-- ==== Sys2Proof/Word.lean ====
section
/-!
DEFINITION. The word types of the Flerax FX7 and their plainest arithmetic: bytes, 16, 32 and 64 bit words,
per-lane masks (R7: bit i belongs to logical lane i), bit fields and the two's-complement readings of R47.
-/
namespace Sys2Proof

/-- One byte of memory (R6). -/
abbrev Byte := BitVec 8
/-- A 16-bit element. -/
abbrev Half := BitVec 16
/-- A 32-bit register lane, instruction word or literal. -/
abbrev Word := BitVec 32
/-- A 64-bit scalar register, pair or address. -/
abbrev DWord := BitVec 64
/-- One bit per logical lane (R7). -/
abbrev Mask := BitVec 32

/-- The number of lanes of a ray (R13). -/
abbrev laneCount : Nat := 32

/-- Bits [hi:lo] of a word, as a number (R5). -/
def bits {w : Nat} (x : BitVec w) (hi lo : Nat) : Nat :=
  (x.toNat / 2 ^ lo) % 2 ^ (hi + 1 - lo)

/-- Bit i of a word. -/
def bit {w : Nat} (x : BitVec w) (i : Nat) : Bool := x.getLsbD i

/-- A Bool as a number. -/
def b2n (b : Bool) : Nat := if b then 1 else 0

/-- The mask with every lane set. -/
def allLanes : Mask := 0xFFFFFFFF#32

/-- Low word of a 64-bit value (R16). -/
def lo32 (x : DWord) : Word := BitVec.ofNat 32 x.toNat
/-- High word of a 64-bit value (R16). -/
def hi32 (x : DWord) : Word := BitVec.ofNat 32 (x.toNat / 2 ^ 32)
/-- The pair v(2k+1), v(2k) as one 64-bit value (R16). -/
def pair64 (hi lo : Word) : DWord := BitVec.ofNat 64 (hi.toNat * 2 ^ 32 + lo.toNat)
/-- A 32-bit value zero-extended to 64 bits. -/
def zext64 (x : Word) : DWord := BitVec.ofNat 64 x.toNat
/-- A 32-bit value sign-extended to 64 bits (R113: SExt). -/
def sext64 (x : Word) : DWord := BitVec.ofInt 64 x.toInt

/-- The value rounded up to a multiple of m (R33, R261). -/
def roundUp (n m : Nat) : Nat := (n + m - 1) / m * m

/-- Quotient rounded up (R46, R196). -/
def ceilDiv (n m : Nat) : Nat := (n + m - 1) / m

end Sys2Proof
end

