-- ==== Sys2Proof/Syntax.lean ====
section
/-!
DEFINITION. The syntax of the FX7: operand codes (R96), guards (R74), and ONE constructor for each row of the
table of operations and events: the 197 instructions of the opcode maps (R105, R107) and the two bank-mode
commands and 105 events by which the device's other agents move. An event's arguments name what it acts on.
-/
namespace Sys2Proof

/-- The 128 operand codes of R96. A literal operand carries the literal of its slot (R97). In a sequencer
stream, v n for n below 32 is m n (R108). -/
inductive Opnd where
  | v (n : Fin 96)
  | s (n : Fin 24)
  | l (j : Fin 4)
  | zero
  | lit (x : Word)
  | lane
  | nul
  deriving DecidableEq, Repr

/-- A predicate p0 to p7 (R13). -/
abbrev Pred := Fin 8

/-- The guard of an instruction: NEG and GP of R99. -/
structure Guard where
  neg : Bool
  p : Pred
  deriving DecidableEq, Repr

/-- The offset of the memory format (R100): OFS 0x0 to 0xE scaled by the access size, or the literal of OFS 0xF. -/
inductive MemOfs where
  | scaled (n : Fin 15)
  | lit (o : Word)
  deriving DecidableEq, Repr

/-- The cache levels of R276 to R281. -/
inductive CacheLevel where
  | l1 | cluster | l2
  deriving DecidableEq, Repr

/-- What triggers a pre-emption (R351). -/
inductive Trigger where
  | slice | priority | bwait | suspend
  deriving DecidableEq, Repr

/-- What the patrol scrub visits (R413): HBM, or the SRAM of a cluster, of a core's registers or L1, of a die's L2, or of the
control store. -/
inductive ScrubUnit where
  | hbm | sram (cluster : Nat) | registers (core : Nat) | l1 (core : Nat) | l2 (die : Nat) | control
  deriving DecidableEq, Repr

/-- A flit, by its number, on a link (R415). -/
structure LinkFlit where
  link : Nat
  flit : Nat
  deriving DecidableEq, Repr

/-- The SPDM and TDISP messages of R400 that move an interface. -/
inductive SpdmMsg where
  | keyExchange | heartbeat | endSession | measurement (index : Nat)
  | lockInterface | startInterface | stopInterface
  deriving DecidableEq, Repr

/-- A memory request or lantern send of the host or of a peer module arriving over a port (R288, R364).
(DESIGN CHOICE, log entry 75) -/
inductive PeerReq where
  | readHbm (addr size : Nat)
  | writeHbm (addr : Nat) (data : List Byte)
  | writeHost (addr : Nat) (data : List Byte)
  | lantern (module ctx vec : Nat) (payload : DWord)
  /-- the host masks or unmasks an MSI-X vector of the function (R399) -/
  | mask (vec : Nat) (on : Bool)
  /-- firmware moves an HBM page of 64 KiB to another context (R402) -/
  | movePage (page : Nat)
  deriving DecidableEq, Repr

/-- One constructor per row of the table. -/
inductive Instr where
  /-- IADD_S32 (R113). Adds a and b modulo 2^32 in each active lane. -/
  | iaddS32 (g : Guard) (d a b : Opnd)
  /-- ISUB_S32 (R113). Subtracts b from a modulo 2^32 in each active lane. -/
  | isubS32 (g : Guard) (d a b : Opnd)
  /-- IADD_S64 (R113). Adds 64-bit a and b modulo 2^64 in each active lane. -/
  | iaddS64 (g : Guard) (d a b : Opnd)
  /-- ISUB_S64 (R113). Subtracts 64-bit b from a modulo 2^64 in each active lane. -/
  | isubS64 (g : Guard) (d a b : Opnd)
  /-- IMUL_S32 (R114). Writes bits [31:0] of the product a times b. -/
  | imulS32 (g : Guard) (d a b : Opnd)
  /-- IMULHI_S32 (R114). Writes bits [63:32] of the signed product a times b. -/
  | imulhiS32 (g : Guard) (d a b : Opnd)
  /-- IMULHI_Z32 (R114). Writes bits [63:32] of the unsigned product a times b. -/
  | imulhiZ32 (g : Guard) (d a b : Opnd)
  /-- IMAD_S32 (R114). Adds a times b to the old d modulo 2^32. -/
  | imadS32 (g : Guard) (d a b : Opnd)
  /-- IMIN_S32 (R115). Writes the smaller of a and b compared as signed. -/
  | iminS32 (g : Guard) (d a b : Opnd)
  /-- IMIN_Z32 (R115). Writes the smaller of a and b compared as unsigned. -/
  | iminZ32 (g : Guard) (d a b : Opnd)
  /-- IMAX_S32 (R115). Writes the larger of a and b compared as signed. -/
  | imaxS32 (g : Guard) (d a b : Opnd)
  /-- IMAX_Z32 (R115). Writes the larger of a and b compared as unsigned. -/
  | imaxZ32 (g : Guard) (d a b : Opnd)
  /-- IABS_S32 (R115). Writes the absolute value of a modulo 2^32. -/
  | iabsS32 (g : Guard) (d a : Opnd)
  /-- IMULW_S32 (R114). Writes the 64-bit signed product of a and b. -/
  | imulwS32 (g : Guard) (d a b : Opnd)
  /-- IMULW_Z32 (R114). Writes the 64-bit unsigned product of a and b. -/
  | imulwZ32 (g : Guard) (d a b : Opnd)
  /-- LEA_S64 (R113). Adds a sign-extended 32-bit offset b to a 64-bit base a. -/
  | leaS64 (g : Guard) (d a b : Opnd)
  /-- AND_Z32 (R117). Writes a AND b. -/
  | andZ32 (g : Guard) (d a b : Opnd)
  /-- OR_Z32 (R117). Writes a OR b. -/
  | orZ32 (g : Guard) (d a b : Opnd)
  /-- XOR_Z32 (R117). Writes a XOR b. -/
  | xorZ32 (g : Guard) (d a b : Opnd)
  /-- ANDN_Z32 (R117). Writes a AND NOT b. -/
  | andnZ32 (g : Guard) (d a b : Opnd)
  /-- SHL_Z32 (R118). Shifts a left by n, giving 0 for n of 32 or more. -/
  | shlZ32 (g : Guard) (d a b : Opnd)
  /-- SHR_Z32 (R118). Shifts a right by n with zero fill. -/
  | shrZ32 (g : Guard) (d a b : Opnd)
  /-- SHR_S32 (R118). Shifts a right by n with sign fill. -/
  | shrS32 (g : Guard) (d a b : Opnd)
  /-- ROT_Z32 (R118). Rotates a left by n mod 32. -/
  | rotZ32 (g : Guard) (d a b : Opnd)
  /-- POPC_Z32 (R119). Counts the 1 bits of a. -/
  | popcZ32 (g : Guard) (d a : Opnd)
  /-- CLZ_Z32 (R119). Counts the leading zeros of a. -/
  | clzZ32 (g : Guard) (d a : Opnd)
  /-- BREV_Z32 (R119). Reverses the bits of a. -/
  | brevZ32 (g : Guard) (d a : Opnd)
  /-- BFE_Z32 (R120). Extracts a bit field of a, zero-extended. -/
  | bfeZ32 (g : Guard) (d a b : Opnd)
  /-- BFE_S32 (R120). Extracts a bit field of a, sign-extended. -/
  | bfeS32 (g : Guard) (d a b : Opnd)
  /-- BFI_Z32 (R120). Inserts the low bits of a into a field of the old d. -/
  | bfiZ32 (g : Guard) (d a b : Opnd)
  /-- MOV_Z32 (R121). Copies 32-bit a to d with its mark. -/
  | movZ32 (g : Guard) (d a : Opnd)
  /-- MOV_Z64 (R121). Copies 64-bit a to d with its mark. -/
  | movZ64 (g : Guard) (d a : Opnd)
  /-- ICMP_EQ_Z32 (R123). Writes a equals b to PT and its complement to PF. -/
  | icmpEqZ32 (g : Guard) (pt pf : Pred) (a b : Opnd)
  /-- ICMP_LT_S32 (R123). Writes signed a less than b to PT and its complement to PF. -/
  | icmpLtS32 (g : Guard) (pt pf : Pred) (a b : Opnd)
  /-- ICMP_LE_S32 (R123). Writes signed a less or equal b to PT and its complement to PF. -/
  | icmpLeS32 (g : Guard) (pt pf : Pred) (a b : Opnd)
  /-- ICMP_LT_Z32 (R123). Writes unsigned a less than b to PT and its complement to PF. -/
  | icmpLtZ32 (g : Guard) (pt pf : Pred) (a b : Opnd)
  /-- ICMP_LE_Z32 (R123). Writes unsigned a less or equal b to PT and its complement to PF. -/
  | icmpLeZ32 (g : Guard) (pt pf : Pred) (a b : Opnd)
  /-- PLOP (R125). Applies a truth table to two predicates and writes PT and PF. -/
  | plop (g : Guard) (pt pf pa pb : Pred) (table : BitVec 4)
  /-- VOTE_ANY (R126). Writes the OR of a predicate over active lanes to PT and its complement to PF. -/
  | voteAny (g : Guard) (pt pf pa : Pred) (n : Bool)
  /-- VOTE_ALL (R126). Writes the AND of a predicate over active lanes to PT and its complement to PF. -/
  | voteAll (g : Guard) (pt pf pa : Pred) (n : Bool)
  /-- BALLOT (R127). Writes the mask of active lanes whose predicate holds. -/
  | ballot (g : Guard) (d : Opnd) (pa : Pred) (n : Bool)
  /-- SHFL_IDX (R128). Delivers a from the lane indexed by b. -/
  | shflIdx (g : Guard) (d a b : Opnd)
  /-- SHFL_UP (R128). Delivers a from lane i minus b. -/
  | shflUp (g : Guard) (d a b : Opnd)
  /-- SHFL_DN (R128). Delivers a from lane i plus b. -/
  | shflDn (g : Guard) (d a b : Opnd)
  /-- SHFL_XOR (R128). Delivers a from lane i XOR b. -/
  | shflXor (g : Guard) (d a b : Opnd)
  /-- IREDADD_S32 (R129). Sums a over active lanes in the pairwise tree. -/
  | iredaddS32 (g : Guard) (d a : Opnd)
  /-- IREDMIN_S32 (R129). Takes the signed minimum of a over active lanes. -/
  | iredminS32 (g : Guard) (d a : Opnd)
  /-- IREDMAX_S32 (R129). Takes the signed maximum of a over active lanes. -/
  | iredmaxS32 (g : Guard) (d a : Opnd)
  /-- FADD_F32 (R144). Adds a and b in FP32 with one rounding. -/
  | faddF32 (g : Guard) (d a b : Opnd)
  /-- FSUB_F32 (R144). Subtracts b from a in FP32. -/
  | fsubF32 (g : Guard) (d a b : Opnd)
  /-- FMUL_F32 (R144). Multiplies a and b in FP32. -/
  | fmulF32 (g : Guard) (d a b : Opnd)
  /-- FFMA_F32 (R144). Computes a times b plus the old d with one rounding. -/
  | ffmaF32 (g : Guard) (d a b : Opnd)
  /-- FMIN_F32 (R144). Writes MinNum of a and b. -/
  | fminF32 (g : Guard) (d a b : Opnd)
  /-- FMAX_F32 (R144). Writes MaxNum of a and b. -/
  | fmaxF32 (g : Guard) (d a b : Opnd)
  /-- FABS_F32 (R144). Clears bit 31 of a. -/
  | fabsF32 (g : Guard) (d a : Opnd)
  /-- FNEG_F32 (R144). Inverts bit 31 of a. -/
  | fnegF32 (g : Guard) (d a : Opnd)
  /-- FADD_F16X2 (R147). Adds two FP16 elements pairwise. -/
  | faddF16x2 (g : Guard) (d a b : Opnd)
  /-- FSUB_F16X2 (R147). Subtracts two FP16 elements pairwise. -/
  | fsubF16x2 (g : Guard) (d a b : Opnd)
  /-- FMUL_F16X2 (R147). Multiplies two FP16 elements pairwise. -/
  | fmulF16x2 (g : Guard) (d a b : Opnd)
  /-- FFMA_F16X2 (R147). Fused multiply-add of two FP16 elements with the old d. -/
  | ffmaF16x2 (g : Guard) (d a b : Opnd)
  /-- FADD_BF16X2 (R147). Adds two BF16 elements pairwise. -/
  | faddBf16x2 (g : Guard) (d a b : Opnd)
  /-- FSUB_BF16X2 (R147). Subtracts two BF16 elements pairwise. -/
  | fsubBf16x2 (g : Guard) (d a b : Opnd)
  /-- FMUL_BF16X2 (R147). Multiplies two BF16 elements pairwise. -/
  | fmulBf16x2 (g : Guard) (d a b : Opnd)
  /-- FFMA_BF16X2 (R147). Fused multiply-add of two BF16 elements with the old d. -/
  | ffmaBf16x2 (g : Guard) (d a b : Opnd)
  /-- FCMP_EQ_F32 (R148). Writes ordered a equals b to PT and its complement to PF. -/
  | fcmpEqF32 (g : Guard) (pt pf : Pred) (a b : Opnd)
  /-- FCMP_LT_F32 (R148). Writes ordered a less than b to PT and its complement to PF. -/
  | fcmpLtF32 (g : Guard) (pt pf : Pred) (a b : Opnd)
  /-- FCMP_LE_F32 (R148). Writes ordered a less or equal b to PT and its complement to PF. -/
  | fcmpLeF32 (g : Guard) (pt pf : Pred) (a b : Opnd)
  /-- FCMP_UN_F32 (R148). Writes a or b is NaN to PT and its complement to PF. -/
  | fcmpUnF32 (g : Guard) (pt pf : Pred) (a b : Opnd)
  /-- FREDADD_F32 (R150). Sums a over active lanes in the pairwise tree with rounding at each node. -/
  | fredaddF32 (g : Guard) (d a : Opnd)
  /-- FREDMIN_F32 (R150). Takes MinNum of a over active lanes. -/
  | fredminF32 (g : Guard) (d a : Opnd)
  /-- FREDMAX_F32 (R150). Takes MaxNum of a over active lanes. -/
  | fredmaxF32 (g : Guard) (d a : Opnd)
  /-- FDIV_F32 (R144). Divides a by b in FP32, correctly rounded. -/
  | fdivF32 (g : Guard) (d a b : Opnd)
  /-- IADD_S16X2 (R158). Adds two 16-bit elements modulo 2^16. -/
  | iaddS16x2 (g : Guard) (d a b : Opnd)
  /-- ISUB_S16X2 (R158). Subtracts two 16-bit elements modulo 2^16. -/
  | isubS16x2 (g : Guard) (d a b : Opnd)
  /-- IADDS_S16X2 (R158). Adds two signed 16-bit elements with saturation. -/
  | iaddsS16x2 (g : Guard) (d a b : Opnd)
  /-- ISUBS_S16X2 (R158). Subtracts two signed 16-bit elements with saturation. -/
  | isubsS16x2 (g : Guard) (d a b : Opnd)
  /-- IADDS_Z16X2 (R158). Adds two unsigned 16-bit elements with saturation. -/
  | iaddsZ16x2 (g : Guard) (d a b : Opnd)
  /-- ISUBS_Z16X2 (R158). Subtracts two unsigned 16-bit elements with saturation. -/
  | isubsZ16x2 (g : Guard) (d a b : Opnd)
  /-- IMUL_S16X2 (R158). Multiplies two 16-bit elements keeping the low bits. -/
  | imulS16x2 (g : Guard) (d a b : Opnd)
  /-- IMAD_S16X2 (R158). Multiply-adds two 16-bit elements to the old d. -/
  | imadS16x2 (g : Guard) (d a b : Opnd)
  /-- IMIN_S16X2 (R158). Takes the signed 16-bit minimum per element. -/
  | iminS16x2 (g : Guard) (d a b : Opnd)
  /-- IMAX_S16X2 (R158). Takes the signed 16-bit maximum per element. -/
  | imaxS16x2 (g : Guard) (d a b : Opnd)
  /-- IMIN_Z16X2 (R158). Takes the unsigned 16-bit minimum per element. -/
  | iminZ16x2 (g : Guard) (d a b : Opnd)
  /-- IMAX_Z16X2 (R158). Takes the unsigned 16-bit maximum per element. -/
  | imaxZ16x2 (g : Guard) (d a b : Opnd)
  /-- IABS_S16X2 (R158). Takes the 16-bit absolute value per element. -/
  | iabsS16x2 (g : Guard) (d a : Opnd)
  /-- SAD_Z8X4 (R159). Adds the sum of absolute byte differences to the old d. -/
  | sadZ8x4 (g : Guard) (d a b : Opnd)
  /-- SAD_Z16X2 (R159). Adds the sum of absolute halfword differences to the old d. -/
  | sadZ16x2 (g : Guard) (d a b : Opnd)
  /-- DOT_S16X2 (R159). Adds the signed 16-bit dot product to the old d modulo 2^32. -/
  | dotS16x2 (g : Guard) (d a b : Opnd)
  /-- FRCP_F32 (R151). Computes 1/a within 1 ulp. -/
  | frcpF32 (g : Guard) (d a : Opnd)
  /-- FRSQ_F32 (R151). Computes 1/sqrt(a) within 1 ulp. -/
  | frsqF32 (g : Guard) (d a : Opnd)
  /-- FSQRT_F32 (R151). Computes sqrt(a) correctly rounded. -/
  | fsqrtF32 (g : Guard) (d a : Opnd)
  /-- FEXP2_F32 (R151). Computes 2^a within 2 ulp. -/
  | fexp2F32 (g : Guard) (d a : Opnd)
  /-- FLOG2_F32 (R151). Computes log2 a within its stated bound. -/
  | flog2F32 (g : Guard) (d a : Opnd)
  /-- FSIN_F32 (R151). Computes sin a within absolute 2^-21. -/
  | fsinF32 (g : Guard) (d a : Opnd)
  /-- FCOS_F32 (R151). Computes cos a within absolute 2^-21. -/
  | fcosF32 (g : Guard) (d a : Opnd)
  /-- FTANH_F32 (R151). Computes tanh a within 2 ulp. -/
  | ftanhF32 (g : Guard) (d a : Opnd)
  /-- CVT (R154). Converts a between the types named by the conversion code in B. -/
  | cvt (g : Guard) (d a : Opnd) (k : BitVec 7)
  /-- QUANT (R156). Quantises the active lanes' FP32 values into one MX block with a voted control word. -/
  | quant (g : Guard) (d a b : Opnd)
  /-- DEQ (R157). Dequantises one MX or asymmetric element per lane into FP32. -/
  | deq (g : Guard) (d a b : Opnd)
  /-- PXUNPACK (R161). Unpacks a packed-pixel stream held across lanes into 16-bit pixel pairs. -/
  | pxunpack (g : Guard) (d a b : Opnd)
  /-- PXPACK (R161). Packs 16-bit pixel pairs into a packed-pixel stream across lanes. -/
  | pxpack (g : Guard) (d a b : Opnd)
  /-- FGELU_F32 (R151). Computes a times Phi(a) within its bound. -/
  | fgeluF32 (g : Guard) (d a : Opnd)
  /-- FSIGM_F32 (R151). Computes the logistic sigmoid of a within 2 ulp. -/
  | fsigmF32 (g : Guard) (d a : Opnd)
  /-- FEXP2_F16X2 (R151). Computes 2^a in each FP16 element. -/
  | fexp2F16x2 (g : Guard) (d a : Opnd)
  /-- BRA (R130). Sets each active lane's vpc to the header plus 4 times DISP. -/
  | bra (g : Guard) (disp : BitVec 21)
  /-- CALL (R132). Pushes the next clause header and jumps, trapping at call depth D. -/
  | call (g : Guard) (disp : BitVec 21)
  /-- RET (R132). Pops each active lane's return entry into vpc, trapping at level 0. -/
  | ret (g : Guard)
  /-- EXIT (R134). Ends the active lanes, setting vpc to 0xFFFFFFFC, without waiting for their operations. -/
  | exit (g : Guard)
  /-- YIELD (R135). Holds the ray back until each ray ready at clause end has issued once or 64 clocks pass. -/
  | yield (g : Guard)
  /-- BRX (R133). Sets each active lane's vpc to a register target, checking alignment and span. -/
  | brx (g : Guard) (a : Opnd)
  /-- CALLX (R133). Pushes the next clause header and jumps to a register target. -/
  | callx (g : Guard) (a : Opnd)
  /-- LNRET (R370). Restores the live mask, vpc, predicates and call levels saved at lantern delivery and clears INHANDLER. -/
  | lnret (g : Guard)
  /-- LD_Z32 (R171). Issues a 4-byte load per active lane, counting on the named counter. -/
  | ldZ32 (g : Guard) (d a : Opnd) (dc : BitVec 3) (ofs : MemOfs)
  /-- LD_Z64 (R171). Issues an 8-byte load per active lane. -/
  | ldZ64 (g : Guard) (d a : Opnd) (dc : BitVec 3) (ofs : MemOfs)
  /-- ST_Z32 (R171). Issues a 4-byte store per active lane with data read at issue. -/
  | stZ32 (g : Guard) (d a : Opnd) (dc : BitVec 3) (ofs : MemOfs)
  /-- ST_Z64 (R171). Issues an 8-byte store per active lane. -/
  | stZ64 (g : Guard) (d a : Opnd) (dc : BitVec 3) (ofs : MemOfs)
  /-- LDRO_Z32 (R175). Issues a 4-byte load through the non-coherent read-only path. -/
  | ldroZ32 (g : Guard) (d a : Opnd) (dc : BitVec 3) (ofs : MemOfs)
  /-- LDRO_Z64 (R175). Issues an 8-byte load through the read-only path. -/
  | ldroZ64 (g : Guard) (d a : Opnd) (dc : BitVec 3) (ofs : MemOfs)
  /-- STNT_Z32 (R176). Issues a 4-byte non-temporal store around the caches. -/
  | stntZ32 (g : Guard) (d a : Opnd) (dc : BitVec 3) (ofs : MemOfs)
  /-- STNT_Z64 (R176). Issues an 8-byte non-temporal store around the caches. -/
  | stntZ64 (g : Guard) (d a : Opnd) (dc : BitVec 3) (ofs : MemOfs)
  /-- LDT (R180). Reads one unit of a tile, reconstructing a tagged tile, as FP32 per lane. -/
  | ldt (g : Guard) (d a : Opnd) (dc : BitVec 3)
  /-- LDT_C (R180). Reads one unit of a tagged tile's coefficients with the mark set. -/
  | ldtC (g : Guard) (d a : Opnd) (dc : BitVec 3)
  /-- STH (R181). Writes a whole tile from registers, applying the forward transform and dropping when tagged. -/
  | sth (g : Guard) (d a : Opnd) (dc : BitVec 3)
  /-- ACQ (R188). Reads an object's GEN and makes visible the writes its releases published, holding later operations. -/
  | acq (g : Guard) (d a : Opnd) (dc : BitVec 3) (ofs : MemOfs)
  /-- REL (R189). Waits for the ray's writes to the object's regions to be performed, then increments GEN. -/
  | rel (g : Guard) (d a : Opnd) (dc : BitVec 3) (ofs : MemOfs)
  /-- MFS (R138). Reads a special register into d. -/
  | mfs (g : Guard) (d : Opnd) (nr : BitVec 7)
  /-- MTS (R139). Writes b to a special register with that register's effect. -/
  | mts (g : Guard) (nr : BitVec 7) (b : Opnd)
  /-- IDIV_S32 (R116). Divides signed a by b, trapping on a zero divisor. -/
  | idivS32 (g : Guard) (d a b : Opnd)
  /-- IDIV_Z32 (R116). Divides unsigned a by b, trapping on a zero divisor. -/
  | idivZ32 (g : Guard) (d a b : Opnd)
  /-- IREM_S32 (R116). Writes the signed remainder of a by b. -/
  | iremS32 (g : Guard) (d a b : Opnd)
  /-- IREM_Z32 (R116). Writes the unsigned remainder of a by b. -/
  | iremZ32 (g : Guard) (d a b : Opnd)
  /-- SEL (R122). Selects a or b per lane by a predicate separate from the guard. -/
  | sel (g : Guard) (d a b : Opnd) (w n : Bool) (p : Pred)
  /-- ICMP_S64 (R124). Compares 64-bit signed operands by COND and writes PT and PF. -/
  | icmpS64 (g : Guard) (pt pf : Pred) (a b : Opnd) (cond : BitVec 2)
  /-- ICMP_Z64 (R124). Compares 64-bit operands for equality or unsigned order and writes PT and PF. -/
  | icmpZ64 (g : Guard) (pt pf : Pred) (a b : Opnd) (cond : BitVec 2)
  /-- IADD3_S32 (R113). Adds a, b and c modulo 2^32. -/
  | iadd3S32 (g : Guard) (d a b c : Opnd)
  /-- SHL_Z64 (R118). Shifts 64-bit a left by n. -/
  | shlZ64 (g : Guard) (d a b : Opnd)
  /-- SHR_Z64 (R118). Shifts 64-bit a right with zero fill. -/
  | shrZ64 (g : Guard) (d a b : Opnd)
  /-- SHR_S64 (R118). Shifts 64-bit a right with sign fill. -/
  | shrS64 (g : Guard) (d a b : Opnd)
  /-- AND_Z64 (R117). Writes 64-bit a AND b. -/
  | andZ64 (g : Guard) (d a b : Opnd)
  /-- OR_Z64 (R117). Writes 64-bit a OR b. -/
  | orZ64 (g : Guard) (d a b : Opnd)
  /-- XOR_Z64 (R117). Writes 64-bit a XOR b. -/
  | xorZ64 (g : Guard) (d a b : Opnd)
  /-- POPC_Z64 (R119). Counts the 1 bits of 64-bit a. -/
  | popcZ64 (g : Guard) (d a : Opnd)
  /-- CLZ_Z64 (R119). Counts the leading zeros of 64-bit a. -/
  | clzZ64 (g : Guard) (d a : Opnd)
  /-- FFMA3_F32 (R145). Computes a times b plus c with one rounding. -/
  | ffma3F32 (g : Guard) (d a b c : Opnd)
  /-- FFMA3_F16X2 (R147). Fused multiply-add a times b plus c per FP16 element. -/
  | ffma3F16x2 (g : Guard) (d a b c : Opnd)
  /-- FFMA3_BF16X2 (R147). Fused multiply-add a times b plus c per BF16 element. -/
  | ffma3Bf16x2 (g : Guard) (d a b c : Opnd)
  /-- FADD_F32_RM (R146). Adds a and b in FP32 with an explicit rounding mode. -/
  | faddF32Rm (g : Guard) (d a b : Opnd) (rm : BitVec 2)
  /-- FMUL_F32_RM (R146). Multiplies a and b in FP32 with an explicit rounding mode. -/
  | fmulF32Rm (g : Guard) (d a b : Opnd) (rm : BitVec 2)
  /-- DOTS_S16X2 (R159). Adds the 16-bit dot product to c with signed saturation. -/
  | dotsS16x2 (g : Guard) (d a b c : Opnd)
  /-- FCMP_F16 (R149). Compares one FP16 element of a and b and writes PT and PF. -/
  | fcmpF16 (g : Guard) (pt pf : Pred) (a b : Opnd) (h : Bool) (cc : BitVec 2)
  /-- FCMP_BF16 (R149). Compares one BF16 element of a and b and writes PT and PF. -/
  | fcmpBf16 (g : Guard) (pt pf : Pred) (a b : Opnd) (h : Bool) (cc : BitVec 2)
  /-- CVT_WIDE (R155). Converts between any types with explicit rounding, saturation and element positions. -/
  | cvtWide (g : Guard) (d a : Opnd) (dst src : BitVec 4) (rm : BitVec 3) (sat spos dpos : BitVec 2)
  /-- LD_TYPE (R170). Issues a load of 1 to 16 bytes per lane with a cache policy. -/
  | ldType (g : Guard) (d a : Opnd) (dc : BitVec 3) (ofs : MemOfs) (cp : BitVec 2) (ty : BitVec 3)
  /-- ST_TYPE (R170). Issues a store of 1 to 16 bytes per lane with a cache policy. -/
  | stType (g : Guard) (d a : Opnd) (dc : BitVec 3) (ofs : MemOfs) (cp : BitVec 2) (ty : BitVec 3)
  /-- ATOM (R183). Issues an atomic read-modify-write per active lane at its scope's point of coherence. -/
  | atom (g : Guard) (d a : Opnd) (dc : BitVec 3) (ofs : MemOfs) (c : Opnd) (scope ty : BitVec 3) (op : BitVec 4)
  /-- LDRES (R184). Loads and takes a reservation on the 64-byte granule in each active lane. -/
  | ldres (g : Guard) (d a : Opnd) (dc : BitVec 3) (ofs : MemOfs) (w : Bool)
  /-- STCON (R184). Stores c where the lane's reservation is intact and writes a status. -/
  | stcon (g : Guard) (d a : Opnd) (dc : BitVec 3) (ofs : MemOfs) (c : Opnd) (w : Bool)
  /-- FENCE (R190). Orders the ray's earlier accesses before its later ones at the scope. -/
  | fence (g : Guard) (dc scope : BitVec 3)
  /-- DRAINNT (R176). Holds the next instruction until the ray's non-temporal stores are performed at home. -/
  | drainnt (g : Guard)
  /-- DRAINST (R177). Holds the next instruction until the ray's stores have passed their checks. -/
  | drainst (g : Guard)
  /-- XCOPY_IN (R194). Starts a copy of a tensor box into a scratchpad tile. -/
  | xcopyIn (g : Guard) (d a : Opnd) (dc : BitVec 3) (c : Opnd) (acq rel : Bool) (scope : BitVec 3)
  /-- XCOPY_OUT (R194). Starts a copy of a scratchpad tile into a tensor box with two tokens. -/
  | xcopyOut (g : Guard) (d a : Opnd) (dc : BitVec 3) (c : Opnd) (acq : Bool) (scope : BitVec 3) (t2 : BitVec 5)
  /-- XMCAST (R198). Starts a copy of a tensor box into the same offset of several clusters. -/
  | xmcast (g : Guard) (d a : Opnd) (dc : BitVec 3) (c : Opnd) (acq rel : Bool) (scope rb : BitVec 3)
  /-- FREAD (R199). Starts a read of one flash page into a buffer. -/
  | fread (g : Guard) (d a : Opnd) (dc : BitVec 3) (c : Opnd) (rel : Bool) (scope : BitVec 3)
  /-- FWRITE (R199). Starts a program of one flash page from a buffer. -/
  | fwrite (g : Guard) (d a : Opnd) (dc : BitVec 3) (c : Opnd) (t2 : BitVec 5)
  /-- WAITC (R200). Tests token chunk bits without stalling, or stalls until they are set with .W. -/
  | waitc (g : Guard) (d a b : Opnd) (w : Bool)
  /-- FORK (R208). Enters a sequencer stream into the cluster's fork queue. -/
  | fork (g : Guard) (d a : Opnd) (dc : BitVec 3) (c : Opnd)
  /-- JOIN (R210). Waits for a stream's end and returns its STATUS. -/
  | join (g : Guard) (d a : Opnd) (dc : BitVec 3)
  /-- FEED (R212). Writes rows of registers as a plane-form block with a voted format word. -/
  | feed (g : Guard) (d a : Opnd) (dc : BitVec 3) (c : Opnd)
  /-- TAKE (R213). Reads elements of an accumulator tile into registers after the tile interlock. -/
  | take (g : Guard) (d : Opnd) (t : BitVec 4) (q : BitVec 2) (c : BitVec 7) (n : BitVec 4)
  /-- BAR_INIT (R201). Sets a barrier's expected count, releasing it if the count is already reached. -/
  | barInit (g : Guard) (a : Opnd) (k : BitVec 3)
  /-- BAR_ARV (R201). Makes and records one arrival of the ray at a barrier of its beam. -/
  | barArv (g : Guard) (k : BitVec 3)
  /-- BAR_ADDR (R201). Writes the barrier address of one of the beam's barriers. -/
  | barAddr (g : Guard) (d : Opnd) (k : BitVec 3)
  /-- ARRIVE (R202). Sends one arrival to the barrier at a barrier address. -/
  | arrive (g : Guard) (a : Opnd) (dc : BitVec 3)
  /-- BWAIT (R205). Waits until another page position's completion is final and returns its result. -/
  | bwait (g : Guard) (d a : Opnd) (dc : BitVec 3)
  /-- CALADV (R204). Adds to the ray's calendar phase. -/
  | caladv (g : Guard) (a : Opnd)
  /-- CALADV_ALLOW (R204). Sets the beam's calendar allowance. -/
  | caladvAllow (g : Guard) (a : Opnd)
  /-- SPAWN (R206). Submits each active lane's launch packet to the context's device queue. -/
  | spawn (g : Guard) (d a : Opnd) (dc : BitVec 3)
  /-- LNSEND (R365). Sends a lantern to a target context and vector and waits for the status. -/
  | lnsend (g : Guard) (d a b : Opnd)
  /-- LNCLR (R369). Reads and clears a vector's pending bit, count and payload. -/
  | lnclr (g : Guard) (d a : Opnd)
  /-- BKPT (R389). Raises a precise breakpoint trap with its code. -/
  | bkpt (g : Guard) (n : BitVec 16)
  /-- SVCALL (R389). Raises a supervisor call event and parks the ray at the next clause header. -/
  | svcall (g : Guard) (n : BitVec 16)
  /-- TRET (R389). Traps in a kernel; in resume microcode re-issues the replay entries. -/
  | tret (g : Guard)
  /-- TERM_RAY (R389). Terminates the issuing ray. -/
  | termRay (g : Guard)
  /-- TERM_BEAM (R389). Terminates the issuing ray's beam. -/
  | termBeam (g : Guard)
  /-- MMA (R226). Queues a plane-engine product accumulated into a tile. -/
  | mma (g : Guard) (a b : Opnd) (scope : BitVec 3) (rel acq : Bool) (db da t : BitVec 4)
  /-- MMAZ (R226). Queues a plane-engine product into a tile cleared first. -/
  | mmaz (g : Guard) (a b : Opnd) (scope : BitVec 3) (rel acq : Bool) (db da t : BitVec 4)
  /-- MZERO (R228). Queues the zeroing of an accumulator tile. -/
  | mzero (g : Guard) (t : BitVec 4)
  /-- MHAAR (R229). Queues the store of an accumulator tile to scratchpad, transformed and dropped per its tag. -/
  | mhaar (g : Guard) (a b : Opnd) (scope : BitVec 3) (rel : Bool) (t : BitVec 4)
  /-- MIHAAR_TILE (R230). Queues the in-place reconstruction of a tagged accumulator tile. -/
  | mihaarTile (g : Guard) (scope : BitVec 3) (rel : Bool) (t : BitVec 4)
  /-- MIHAAR (R230). Queues the reconstruction of a scratchpad tile into a spatial tile. -/
  | mihaar (g : Guard) (a b : Opnd) (scope : BitVec 3) (rel : Bool)
  /-- MTHR_SET (R231). Writes a threshold register of the forking beam as it issues. -/
  | mthrSet (g : Guard) (a : Opnd) (i : BitVec 4)
  /-- MTHR_TILE (R231). Queues a re-thresholding and compaction of a tagged scratchpad tile. -/
  | mthrTile (g : Guard) (a : Opnd) (scope : BitVec 3) (rel : Bool)
  /-- MSIG (R232). Queues one barrier arrival after every earlier command retires. -/
  | msig (g : Guard) (a : Opnd)
  /-- MWAIT (R233). Holds the stream until a scratchpad flag reaches a value. -/
  | mwait (g : Guard) (a b : Opnd) (e : Bool)
  /-- MDESC (R233). Writes an operand descriptor slot. -/
  | mdesc (g : Guard) (a b : Opnd) (j : BitVec 4)
  /-- MEND (R234). Ends issue of the stream, which ends once its commands retire. -/
  | mend (g : Guard)
  /-- BANKMODE_SELECT (R263). Sets the issuing ray's bank selector for %bankmode reads. -/
  | bankmodeSelect (cmd : DWord)
  /-- BANKMODE_SWITCH (R265). Requests a mode switch of a run of banks, accepted or refused as a whole with a token. -/
  | bankmodeSwitch (cmd : DWord)
  /-- BANK_SWITCH_STEP (R266). Takes one bank of an accepted switch through drain, write-back, zeroing and the new mode once its operations have completed. -/
  | bankSwitchStep (cl bank : Nat)
  /-- CLAUSE_ENTRY (R109). A quarter pipe chooses a ready ray, which decodes, checks and begins its next clause once its waits hold. -/
  | clauseEntry (core pipe : Nat)
  /-- ISSUE_STARVATION (R249). A ray ready 256 clocks without being chosen is taken ahead of older rays. -/
  | issueStarvation (core pipe : Nat)
  /-- YIELD_TIMEOUT (R135). 64 clocks after a YIELD the yielding ray may issue again. -/
  | yieldTimeout (core rslot : Nat)
  /-- SLOT_STALL_END (R248). A stalled slot resumes when its token, WAITC, drain, copy acceptance or lantern status arrives. -/
  | slotStallEnd (core rslot : Nat)
  /-- PAGE_WALK (R273). A die walker resolves a TLB miss through the tables or ends in a translation fault. -/
  | pageWalk (die : Nat)
  /-- LOAD_COMPLETE (R171). A load's data returns and is written to the lanes' current positions, decrementing its counter in issue order. -/
  | loadComplete (core op : Nat)
  /-- STORE_CHECK (R171). A store passes or fails its write-permission check and completes for its counter. -/
  | storeCheck (core op : Nat)
  /-- STORE_FAULT_RECORD (R381). A failed store or write-back takes the lowest free store-fault record slot, waiting for one if all are held. -/
  | storeFaultRecord (core op : Nat)
  /-- STORE_FAULT_REPORT (R382). At the first clause boundary after a known store failure the ray is parked and its KIND 0x2 event queued. -/
  | storeFaultReport (core rslot : Nat)
  /-- ATOMIC_COMPLETE (R183). An atomic's merged request is applied at the point of coherence and old values return. -/
  | atomicComplete (core op : Nat)
  /-- FIFO_OPERATION_COMPLETE (R174). A waiting FIFO load or store moves all its elements once the bank has them or room. -/
  | fifoOperationComplete (core op : Nat)
  /-- ACQ_COMPLETE (R188). An acquire reads GEN, drops stale copies and releases the hold on later operations. -/
  | acqComplete (core op : Nat)
  /-- REL_COMPLETE (R189). Once the ray's writes are performed at scope, GEN is incremented and the status written. -/
  | relComplete (core op : Nat)
  /-- FENCE_COMPLETE (R190). Earlier accesses are performed at the scope and later operations are released. -/
  | fenceComplete (core op : Nat)
  /-- DIRTY_WRITE_BACK (R278). A dirty sector is written back below with its byte mask. -/
  | dirtyWriteBack (level : CacheLevel) (unit sector : Nat)
  /-- COPY_ACCEPT (R282). The core's copy engine accepts a copy when it has room, filling chunks with no inside element. -/
  | copyAccept (core op : Nat)
  /-- COPY_CHUNK_COMPLETE (R197). A copy chunk lands, is read or becomes visible, setting its token bit and DONE after the last. -/
  | copyChunkComplete (core op chunk : Nat) (second : Bool)
  /-- FLASH_PROGRAM_COMPLETE (R199). An FWRITE page is durably programmed and its second token completes. -/
  | flashProgramComplete (core op : Nat)
  /-- LDT_COMPLETE (R180). An LDT's head and unit are read and its lanes written. -/
  | ldtComplete (core op : Nat)
  /-- STH_COMPLETE (R181). An STH's head and data are written and its counter decremented. -/
  | sthComplete (core op : Nat)
  /-- FEED_COMPLETE (R235). A FEED's planes and tag bytes are performed at cluster scope and its counter decremented. -/
  | feedComplete (core op : Nat)
  /-- BARRIER_ARRIVAL (R250). An ARRIVE, MSIG or multicast arrival is counted at a barrier, possibly completing its phase. -/
  | barrierArrival (k : Nat)
  /-- BWAIT_COMPLETE (R334). A BWAIT completes in the clock after the awaited entry becomes final. -/
  | bwaitComplete (core op : Nat)
  /-- SPAWN_COMPLETE (R348). Each lane's packet is taken into or refused by the device queue and the status written. -/
  | spawnComplete (core op : Nat)
  /-- STREAM_BEGIN (R215). The next fork of the queue begins its stream once the previous stream has ended and retired. -/
  | streamBegin (cl : Nat)
  /-- TILE_COMMAND_EXECUTE (R220). The plane engine executes and retires the next queued tile command. -/
  | tileCommandExecute (cl : Nat)
  /-- MWAIT_RELEASE (R233). The stream resumes issue once its flag reaches the value. -/
  | mwaitRelease (cl : Nat)
  /-- STREAM_END (R234). After MEND, once commands retire and writes are performed, STATUS 0x00 and STATE 3 are written. -/
  | streamEnd (cl : Nat)
  /-- LOUPE_FRONTIER_REPORT (R258). The frontier count reaching 2^FRONTLIM parks the ray and reports it. -/
  | loupeFrontierReport (core rslot : Nat)
  /-- LOUPE_WAIT_REPORT (R258). The wait count reaching 2^WAITLIM clocks parks the ray and reports it. -/
  | loupeWaitReport (core rslot : Nat)
  /-- QDOOR (R397). A host doorbell write advances a host queue's WR. -/
  | qdoor (fn q : Nat) (wr : DWord)
  /-- QUEUE_HEADER_POLL (R338). The device re-reads an unwritten packet header at least every 2 us. -/
  | queueHeaderPoll (q : Nat)
  /-- PACKET_TAKE (R338). The device takes the next written packet by priority, clearing its TYPE and advancing RD. -/
  | packetTake (q : Nat)
  /-- LAUNCH_BEGIN (R294). A taken launch packet has its auxiliary record, header and region binding table read and checked, or is refused. -/
  | launchBegin (l : Nat)
  /-- BARRIER_PACKET_EVALUATE (R343). A barrier packet reads its signals and completes, aborts or keeps waiting. -/
  | barrierPacketEvaluate (q : Nat)
  /-- AGGREGATOR_MERGE (R349). Child launches taken within 4 us under matching conditions are merged into one dispatch. -/
  | aggregatorMerge (q : Nat)
  /-- PAGE_ENTRY_TAKE (R316). The dispatcher reads a page list entry once and checks it. -/
  | pageEntryTake (l pos : Nat)
  /-- PAGE_TRANSLATE (R317). A flash page index is translated to a channel and physical page or fails. -/
  | pageTranslate (l pos : Nat)
  /-- FLASH_SENSE (R318). A page is sensed with the retry step's thresholds once a channel slot is free. -/
  | flashSense (l pos : Nat)
  /-- LDPC_DECODE (R317). The channel's decoder corrects the codeword, or leads to a retry or failure. -/
  | ldpcDecode (l pos : Nat)
  /-- PAGE_FETCH (R327). An HBM source granule is read at its home. -/
  | pageFetch (l pos : Nat)
  /-- PAGE_DECOMPRESS (R320). The stream is decoded into a prologue buffer once one is free. -/
  | pageDecompress (l pos : Nat)
  /-- PAGE_TRANSFORM (R324). One binding step is applied in the prologue buffer. -/
  | pageTransform (l pos : Nat)
  /-- WINDOW_CARVE (R328). A window is carved on the chosen cluster once one can carve it. -/
  | windowCarve (l pos : Nat)
  /-- PAGE_LANDING (R330). The prologue buffer is written into the window banks and landing completes. -/
  | pageLanding (l pos : Nat)
  /-- DISPATCHER_BANK_TAKE (R268). The dispatcher switches a CACHE bank to window use or returns an empty window bank. -/
  | dispatcherBankTake (cl bank : Nat)
  /-- BEAM_PLACE (R241). A landed beam is placed on a core, carved, zeroed and released. -/
  | beamPlace (l pos : Nat)
  /-- GANG_PLACE (R252). A gang whose pages have all landed or failed is placed on one cluster and released together. -/
  | gangPlace (l pos : Nat)
  /-- BEAM_COMPLETE (R162). A beam whose rays have ended and operations completed completes, and its entry becomes final. -/
  | beamComplete (l pos : Nat)
  /-- LAUNCH_COMPLETE (R374). Once every beam completes, write-backs, page report, status word and signal change are made in order. -/
  | launchComplete (l : Nat)
  /-- SLICE_EXPIRY (R350). A context's charge on a core reaches its slice. -/
  | sliceExpiry (core ctx : Nat)
  /-- PREEMPT_DECISION (R352). On a trigger the scheduler chooses drain, save or flush for a beam or gang. -/
  | preemptDecision (l pos : Nat) (trigger : Trigger)
  /-- DRAIN_TIMEOUT (R352). A drain not complete DRAINMAX clocks after the decision becomes a save. -/
  | drainTimeout (l pos : Nat)
  /-- BEAM_SAVE (R357). The beam's rays stop at clause boundaries and its state and window are written to the save record. -/
  | beamSave (l pos : Nat)
  /-- BEAM_FLUSH (R354). The beam is stopped, its operations cancelled or completed, and its entry returns to TAKEN. -/
  | beamFlush (l pos : Nat)
  /-- REPLY_INTO_SAVE_RECORD (R359). A reply for a saved beam lands in its save record. -/
  | replyIntoSaveRecord (l pos op : Nat)
  /-- BEAM_RESUME (R356). An eligible saved beam is restored at its offsets on its die and its replay entries re-issued. -/
  | beamResume (l pos : Nat)
  /-- LANTERN_RECORD (R364). A permitted send sets the vector pending, counts it and stores its payload. -/
  | lanternRecord (k : Nat)
  /-- LANTERN_DELIVER (R367). At a qualifying clause boundary the handler ray's state is saved and all lanes enter the handler. -/
  | lanternDeliver (core rslot : Nat)
  /-- EVPOP (R384). A write discards the oldest event. -/
  | evpop (core : Nat)
  /-- SFFREE (R381). Writing 1 frees store-fault record slots. -/
  | sffree (core : Nat) (mask : DWord)
  /-- RAYCMD_SELECT (R385). Maps a parked ray's state to RAYWIN. -/
  | raycmdSelect (core rslot : Nat)
  /-- RAYCMD_RESUME (R385). Unparks a ray at its vpc or held mid-clause point. -/
  | raycmdResume (core rslot : Nat)
  /-- RAYCMD_RESUME_SKIP (R385). Unparks a trapped ray past the trapping instruction. -/
  | raycmdResumeSkip (core rslot : Nat)
  /-- RAYCMD_PARK (R385). Parks a resident ray at its next clause boundary and queues KIND 0x7. -/
  | raycmdPark (core rslot : Nat)
  /-- RAYCMD_TERM_RAY (R387). Terminates the named ray. -/
  | raycmdTermRay (core rslot : Nat)
  /-- RAYCMD_TERM_BEAM (R387). Terminates the named ray's beam and its streams. -/
  | raycmdTermBeam (core rslot : Nat)
  /-- RAYCMD_TERM_CTX (R387). Marks the ray's context faulted and aborts its launches. -/
  | raycmdTermCtx (core rslot : Nat)
  /-- XLATE (R388). Answers the outstanding translation fault, retrying the walk or failing the access. -/
  | xlate (core : Nat) (v : DWord)
  /-- TLBINV_PAGE (R384). Invalidates one page's TLB entry for a context. -/
  | tlbinvPage (core ctx : Nat) (va : DWord)
  /-- TLBINV_CONTEXT (R384). Invalidates a whole context's TLB entries. -/
  | tlbinvContext (core ctx : Nat)
  /-- TLBINV_ALL (R384). Invalidates the whole TLB. -/
  | tlbinvAll (core : Nat)
  /-- RAYWIN (R386). Writes a parked ray's state, taking effect at resume with checks that may trap. -/
  | raywin (core off size : Nat) (v : DWord)
  /-- CREATE_CTX (R336). Reads a context record and creates the context. -/
  | createCtx (fn : Nat) (blk : DWord)
  /-- DESTROY_CTX (R402). Terminates a context, destroys its queues and zeroes its resources. -/
  | destroyCtx (fn : Nat) (blk : DWord)
  /-- CREATE_QUEUE (R337). Reads a queue record and creates the queue. -/
  | createQueue (fn : Nat) (blk : DWord)
  /-- DESTROY_QUEUE (R398). Stops a queue taking packets, ending once its launches end. -/
  | destroyQueue (fn : Nat) (blk : DWord)
  /-- CLEAR_HALT (R343). Clears a queue's HALT so it goes on from RD. -/
  | clearHalt (fn : Nat) (blk : DWord)
  /-- SUSPEND (R398). Pre-empts every resident beam of a context. -/
  | suspend (fn : Nat) (blk : DWord)
  /-- RESUME (R398). Ends a context's suspension. -/
  | resume (fn : Nat) (blk : DWord)
  /-- CONFIRM_BOOT (R410). Confirms the running slot, clears the trial mark and raises the SVN record. -/
  | confirmBoot (fn : Nat) (blk : DWord)
  /-- STAGE_IMAGE (R407). Verifies an image and writes it to the slot not running. -/
  | stageImage (fn : Nat) (blk : DWord)
  /-- SET_POWER_CAP (R416). Sets the module power cap. -/
  | setPowerCap (fn : Nat) (blk : DWord)
  /-- READ_LOG (R414). Copies log records to a host buffer. -/
  | readLog (fn : Nat) (blk : DWord)
  /-- FLASH_STATUS (R404). Writes the flash status record. -/
  | flashStatus (fn : Nat) (blk : DWord)
  /-- ASSIGN_FLASH (R403). Gives a context's flash range a fresh key and sets FLBASE and FLCOUNT. -/
  | assignFlash (fn : Nat) (blk : DWord)
  /-- ERASE_FLASH (R403). Crypto-erases a flash range. -/
  | eraseFlash (fn : Nat) (blk : DWord)
  /-- NONCE (R398). Writes a fresh 32-byte nonce. -/
  | nonce (fn : Nat) (blk : DWord)
  /-- RELEASE_OWNER (R409). On a valid statement erases everything and makes the module unowned. -/
  | releaseOwner (fn : Nat) (blk : DWord)
  /-- CLAIM_OWNER (R409). Installs a new owner key on an unowned module. -/
  | claimOwner (fn : Nat) (blk : DWord)
  /-- LNPAY (R397). Stores the payload of a host lantern slot. -/
  | lnpay (fn k : Nat) (v : DWord)
  /-- LNDOOR (R397). Sends a host lantern with the slot's payload and records its status. -/
  | lndoor (fn k : Nat) (v : DWord)
  /-- REGISTER_WRITE_OTHER (R396). A host write to an offset with no behaviour of its own has no effect. -/
  | registerWriteOther (fn off : Nat) (v : DWord)
  /-- TRUST_LOSS (R401). An interface leaving RUN or losing its SPDM session halts, faults and cuts off its contexts. -/
  | trustLoss (fn : Nat)
  /-- MODULE_RESET (R410). Reset runs the boot ROM, which reconstructs identity and boots the trial or confirmed slot. -/
  | moduleReset
  /-- WATCHDOG_EXPIRY (R410). Without CONFIRM_BOOT in 30 s the module resets to the confirmed slot and logs event 0x07. -/
  | watchdogExpiry
  /-- IMAGE_BLOCK_FILL (R411). A shared-image block fill is checked against its digest, failing the module on mismatch. -/
  | imageBlockFill (blk : Nat)
  /-- SHARED_BOOT_RETRY (R411). A failed shared boot retries after 1 s, entering recovery after three failures. -/
  | sharedBootRetry
  /-- PATROL_SCRUB (R413). The patrol scrub visits memory on its period, correcting and logging errors. -/
  | patrolScrub (unit : ScrubUnit) (addr : Nat)
  /-- FLIT_CRC_FAIL (R415). A flit failing its CRC is replayed, retraining or bringing the link down after 8 tries. -/
  | flitCrcFail (link : LinkFlit)
  /-- THERMAL_THROTTLE (R416). A junction at 95 C or power above the cap withholds clause starts and tile passes. -/
  | thermalThrottle (on : Bool)
  /-- THERMAL_TRIP (R416). A junction at 110 C stops every die within 1 ms and faults every context. -/
  | thermalTrip
  /-- SPDM_REQUEST (R400). An SPDM or TDISP request message from the host (key exchange, measurement, interface lock or start) is answered and may move the interface from CONFIG_UNLOCKED to CONFIG_LOCKED or RUN. -/
  | spdmRequest (fn : Nat) (msg : SpdmMsg)
  /-- PEER_REQUEST (R288). A memory request from the host or a peer module arriving over a port reads or writes device memory, or completes with Completer Abort after trust loss. -/
  | peerRequest (fn : Nat) (req : PeerReq)
  deriving DecidableEq, Repr

/-- What moves next: the next slot of a ray or of a cluster's stream, or an event. -/
inductive Turn where
  | slot (core rslot : Nat)
  | streamSlot (cluster : Nat)
  | event (e : Instr)
  deriving DecidableEq, Repr

end Sys2Proof
end

