-- ==== Sys2Proof/Machine/Legal.lean ====
section
/-!
DEFINITION. The fields of each instruction and the checks that a clause's entry makes on each slot with
the causes of R109: the class of an instruction (R94, R105, R107), the operands it names and how (R16, R17, R96),
its literal (R97), the fields whose values are reserved, whether it raises flags (R142) or stands last (R90).
-/
namespace Sys2Proof

/-- The classes of R94. -/
inductive Cls where
  | alu | memory | transc | control | engine | sequencer | system
  deriving DecidableEq, Repr

/-- The CLASS code of a class (R94). -/
def Cls.code : Cls → Nat
  | .alu => 0 | .memory => 1 | .transc => 2 | .control => 3 | .engine => 4 | .sequencer => 5 | .system => 6

/-- The class of an instruction; none for an event (R105, R107). -/
def Instr.cls : Instr → Option Cls
  | .iaddS32 .. | .isubS32 .. | .iaddS64 .. | .isubS64 .. | .imulS32 .. | .imulhiS32 .. | .imulhiZ32 .. | .imadS32 .. | .iminS32 .. | .iminZ32 ..
  | .imaxS32 .. | .imaxZ32 .. | .iabsS32 .. | .imulwS32 .. | .imulwZ32 .. | .leaS64 .. | .andZ32 .. | .orZ32 .. | .xorZ32 .. | .andnZ32 ..
  | .shlZ32 .. | .shrZ32 .. | .shrS32 .. | .rotZ32 .. | .popcZ32 .. | .clzZ32 .. | .brevZ32 .. | .bfeZ32 .. | .bfeS32 .. | .bfiZ32 .. | .movZ32 ..
  | .movZ64 .. | .icmpEqZ32 .. | .icmpLtS32 .. | .icmpLeS32 .. | .icmpLtZ32 .. | .icmpLeZ32 .. | .plop .. | .voteAny .. | .voteAll .. | .ballot ..
  | .shflIdx .. | .shflUp .. | .shflDn .. | .shflXor .. | .iredaddS32 .. | .iredminS32 .. | .iredmaxS32 .. | .faddF32 .. | .fsubF32 .. | .fmulF32 ..
  | .ffmaF32 .. | .fminF32 .. | .fmaxF32 .. | .fabsF32 .. | .fnegF32 .. | .faddF16x2 .. | .fsubF16x2 .. | .fmulF16x2 .. | .ffmaF16x2 ..
  | .faddBf16x2 .. | .fsubBf16x2 .. | .fmulBf16x2 .. | .ffmaBf16x2 .. | .fcmpEqF32 .. | .fcmpLtF32 .. | .fcmpLeF32 .. | .fcmpUnF32 ..
  | .fredaddF32 .. | .fredminF32 .. | .fredmaxF32 .. | .fdivF32 .. | .iaddS16x2 .. | .isubS16x2 .. | .iaddsS16x2 .. | .isubsS16x2 .. | .iaddsZ16x2 ..
  | .isubsZ16x2 .. | .imulS16x2 .. | .imadS16x2 .. | .iminS16x2 .. | .imaxS16x2 .. | .iminZ16x2 .. | .imaxZ16x2 .. | .iabsS16x2 .. | .sadZ8x4 ..
  | .sadZ16x2 .. | .dotS16x2 .. | .idivS32 .. | .idivZ32 .. | .iremS32 .. | .iremZ32 .. | .sel .. | .icmpS64 .. | .icmpZ64 .. | .iadd3S32 ..
  | .shlZ64 .. | .shrZ64 .. | .shrS64 .. | .andZ64 .. | .orZ64 .. | .xorZ64 .. | .popcZ64 .. | .clzZ64 .. | .ffma3F32 .. | .ffma3F16x2 ..
  | .ffma3Bf16x2 .. | .faddF32Rm .. | .fmulF32Rm .. | .dotsS16x2 .. | .fcmpF16 .. | .fcmpBf16 .. => some .alu
  | .ldZ32 .. | .ldZ64 .. | .stZ32 .. | .stZ64 .. | .ldroZ32 .. | .ldroZ64 .. | .stntZ32 .. | .stntZ64 .. | .ldt .. | .ldtC .. | .sth .. | .acq ..
  | .rel .. | .ldType .. | .stType .. | .atom .. | .ldres .. | .stcon .. | .fence .. | .drainnt .. | .drainst .. => some .memory
  | .frcpF32 .. | .frsqF32 .. | .fsqrtF32 .. | .fexp2F32 .. | .flog2F32 .. | .fsinF32 .. | .fcosF32 .. | .ftanhF32 .. | .cvt .. | .quant .. | .deq ..
  | .pxunpack .. | .pxpack .. | .fgeluF32 .. | .fsigmF32 .. | .fexp2F16x2 .. | .cvtWide .. => some .transc
  | .bra .. | .call .. | .ret .. | .exit .. | .yield .. | .brx .. | .callx .. | .lnret .. => some .control
  | .xcopyIn .. | .xcopyOut .. | .xmcast .. | .fread .. | .fwrite .. | .waitc .. | .fork .. | .join .. | .feed .. | .take .. | .barInit ..
  | .barArv .. | .barAddr .. | .arrive .. | .bwait .. | .caladv .. | .caladvAllow .. | .spawn .. => some .engine
  | .mma .. | .mmaz .. | .mzero .. | .mhaar .. | .mihaarTile .. | .mihaar .. | .mthrSet .. | .mthrTile .. | .msig .. | .mwait .. | .mdesc ..
  | .mend .. => some .sequencer
  | .mfs .. | .mts .. | .lnsend .. | .lnclr .. | .bkpt .. | .svcall .. | .tret .. | .termRay .. | .termBeam .. => some .system
  | .bankmodeSelect .. | .bankmodeSwitch .. | .bankSwitchStep .. | .clauseEntry .. | .issueStarvation .. | .yieldTimeout .. | .slotStallEnd ..
  | .pageWalk .. | .loadComplete .. | .storeCheck .. | .storeFaultRecord .. | .storeFaultReport .. | .atomicComplete .. | .fifoOperationComplete ..
  | .acqComplete .. | .relComplete .. | .fenceComplete .. | .dirtyWriteBack .. | .copyAccept .. | .copyChunkComplete .. | .flashProgramComplete ..
  | .ldtComplete .. | .sthComplete .. | .feedComplete .. | .barrierArrival .. | .bwaitComplete .. | .spawnComplete .. | .streamBegin ..
  | .tileCommandExecute .. | .mwaitRelease .. | .streamEnd .. | .loupeFrontierReport .. | .loupeWaitReport .. | .qdoor .. | .queueHeaderPoll ..
  | .packetTake .. | .launchBegin .. | .barrierPacketEvaluate .. | .aggregatorMerge .. | .pageEntryTake .. | .pageTranslate .. | .flashSense ..
  | .ldpcDecode .. | .pageFetch .. | .pageDecompress .. | .pageTransform .. | .windowCarve .. | .pageLanding .. | .dispatcherBankTake ..
  | .beamPlace .. | .gangPlace .. | .beamComplete .. | .launchComplete .. | .sliceExpiry .. | .preemptDecision .. | .drainTimeout .. | .beamSave ..
  | .beamFlush .. | .replyIntoSaveRecord .. | .beamResume .. | .lanternRecord .. | .lanternDeliver .. | .evpop .. | .sffree .. | .raycmdSelect ..
  | .raycmdResume .. | .raycmdResumeSkip .. | .raycmdPark .. | .raycmdTermRay .. | .raycmdTermBeam .. | .raycmdTermCtx .. | .xlate ..
  | .tlbinvPage .. | .tlbinvContext .. | .tlbinvAll .. | .raywin .. | .createCtx .. | .destroyCtx .. | .createQueue .. | .destroyQueue ..
  | .clearHalt .. | .suspend .. | .resume .. | .confirmBoot .. | .stageImage .. | .setPowerCap .. | .readLog .. | .flashStatus .. | .assignFlash ..
  | .eraseFlash .. | .nonce .. | .releaseOwner .. | .claimOwner .. | .lnpay .. | .lndoor .. | .registerWriteOther .. | .trustLoss .. | .moduleReset
  | .watchdogExpiry | .imageBlockFill .. | .sharedBootRetry | .patrolScrub .. | .flitCrcFail .. | .thermalThrottle .. | .thermalTrip
  | .spdmRequest .. | .peerRequest .. => none

/-- Whether an instruction raises flags, so that its slot may carry a set QUIET bit (R42, R142). -/
def Instr.raisesFlags : Instr → Bool
  | .faddF32 .. | .fsubF32 .. | .fmulF32 .. | .ffmaF32 .. | .fminF32 .. | .fmaxF32 .. | .faddF16x2 .. | .fsubF16x2 .. | .fmulF16x2 .. | .ffmaF16x2 ..
  | .faddBf16x2 .. | .fsubBf16x2 .. | .fmulBf16x2 .. | .ffmaBf16x2 .. | .fcmpEqF32 .. | .fcmpLtF32 .. | .fcmpLeF32 .. | .fcmpUnF32 ..
  | .fredaddF32 .. | .fredminF32 .. | .fredmaxF32 .. | .fdivF32 .. | .iaddsS16x2 .. | .isubsS16x2 .. | .iaddsZ16x2 .. | .isubsZ16x2 .. | .frcpF32 ..
  | .frsqF32 .. | .fsqrtF32 .. | .fexp2F32 .. | .flog2F32 .. | .fsinF32 .. | .fcosF32 .. | .ftanhF32 .. | .cvt .. | .quant .. | .deq .. | .pxpack ..
  | .fgeluF32 .. | .fsigmF32 .. | .fexp2F16x2 .. | .ffma3F32 .. | .ffma3F16x2 .. | .ffma3Bf16x2 .. | .faddF32Rm .. | .fmulF32Rm .. | .dotsS16x2 ..
  | .fcmpF16 .. | .fcmpBf16 .. | .cvtWide .. => true
  | .iaddS32 .. | .isubS32 .. | .iaddS64 .. | .isubS64 .. | .imulS32 .. | .imulhiS32 .. | .imulhiZ32 .. | .imadS32 .. | .iminS32 .. | .iminZ32 ..
  | .imaxS32 .. | .imaxZ32 .. | .iabsS32 .. | .imulwS32 .. | .imulwZ32 .. | .leaS64 .. | .andZ32 .. | .orZ32 .. | .xorZ32 .. | .andnZ32 ..
  | .shlZ32 .. | .shrZ32 .. | .shrS32 .. | .rotZ32 .. | .popcZ32 .. | .clzZ32 .. | .brevZ32 .. | .bfeZ32 .. | .bfeS32 .. | .bfiZ32 .. | .movZ32 ..
  | .movZ64 .. | .icmpEqZ32 .. | .icmpLtS32 .. | .icmpLeS32 .. | .icmpLtZ32 .. | .icmpLeZ32 .. | .plop .. | .voteAny .. | .voteAll .. | .ballot ..
  | .shflIdx .. | .shflUp .. | .shflDn .. | .shflXor .. | .iredaddS32 .. | .iredminS32 .. | .iredmaxS32 .. | .fabsF32 .. | .fnegF32 ..
  | .iaddS16x2 .. | .isubS16x2 .. | .imulS16x2 .. | .imadS16x2 .. | .iminS16x2 .. | .imaxS16x2 .. | .iminZ16x2 .. | .imaxZ16x2 .. | .iabsS16x2 ..
  | .sadZ8x4 .. | .sadZ16x2 .. | .dotS16x2 .. | .pxunpack .. | .bra .. | .call .. | .ret .. | .exit .. | .yield .. | .brx .. | .callx .. | .lnret ..
  | .ldZ32 .. | .ldZ64 .. | .stZ32 .. | .stZ64 .. | .ldroZ32 .. | .ldroZ64 .. | .stntZ32 .. | .stntZ64 .. | .ldt .. | .ldtC .. | .sth .. | .acq ..
  | .rel .. | .mfs .. | .mts .. | .idivS32 .. | .idivZ32 .. | .iremS32 .. | .iremZ32 .. | .sel .. | .icmpS64 .. | .icmpZ64 .. | .iadd3S32 ..
  | .shlZ64 .. | .shrZ64 .. | .shrS64 .. | .andZ64 .. | .orZ64 .. | .xorZ64 .. | .popcZ64 .. | .clzZ64 .. | .ldType .. | .stType .. | .atom ..
  | .ldres .. | .stcon .. | .fence .. | .drainnt .. | .drainst .. | .xcopyIn .. | .xcopyOut .. | .xmcast .. | .fread .. | .fwrite .. | .waitc ..
  | .fork .. | .join .. | .feed .. | .take .. | .barInit .. | .barArv .. | .barAddr .. | .arrive .. | .bwait .. | .caladv .. | .caladvAllow ..
  | .spawn .. | .lnsend .. | .lnclr .. | .bkpt .. | .svcall .. | .tret .. | .termRay .. | .termBeam .. | .mma .. | .mmaz .. | .mzero .. | .mhaar ..
  | .mihaarTile .. | .mihaar .. | .mthrSet .. | .mthrTile .. | .msig .. | .mwait .. | .mdesc .. | .mend .. | .bankmodeSelect .. | .bankmodeSwitch ..
  | .bankSwitchStep .. | .clauseEntry .. | .issueStarvation .. | .yieldTimeout .. | .slotStallEnd .. | .pageWalk .. | .loadComplete ..
  | .storeCheck .. | .storeFaultRecord .. | .storeFaultReport .. | .atomicComplete .. | .fifoOperationComplete .. | .acqComplete .. | .relComplete ..
  | .fenceComplete .. | .dirtyWriteBack .. | .copyAccept .. | .copyChunkComplete .. | .flashProgramComplete .. | .ldtComplete .. | .sthComplete ..
  | .feedComplete .. | .barrierArrival .. | .bwaitComplete .. | .spawnComplete .. | .streamBegin .. | .tileCommandExecute .. | .mwaitRelease ..
  | .streamEnd .. | .loupeFrontierReport .. | .loupeWaitReport .. | .qdoor .. | .queueHeaderPoll .. | .packetTake .. | .launchBegin ..
  | .barrierPacketEvaluate .. | .aggregatorMerge .. | .pageEntryTake .. | .pageTranslate .. | .flashSense .. | .ldpcDecode .. | .pageFetch ..
  | .pageDecompress .. | .pageTransform .. | .windowCarve .. | .pageLanding .. | .dispatcherBankTake .. | .beamPlace .. | .gangPlace ..
  | .beamComplete .. | .launchComplete .. | .sliceExpiry .. | .preemptDecision .. | .drainTimeout .. | .beamSave .. | .beamFlush ..
  | .replyIntoSaveRecord .. | .beamResume .. | .lanternRecord .. | .lanternDeliver .. | .evpop .. | .sffree .. | .raycmdSelect .. | .raycmdResume ..
  | .raycmdResumeSkip .. | .raycmdPark .. | .raycmdTermRay .. | .raycmdTermBeam .. | .raycmdTermCtx .. | .xlate .. | .tlbinvPage ..
  | .tlbinvContext .. | .tlbinvAll .. | .raywin .. | .createCtx .. | .destroyCtx .. | .createQueue .. | .destroyQueue .. | .clearHalt ..
  | .suspend .. | .resume .. | .confirmBoot .. | .stageImage .. | .setPowerCap .. | .readLog .. | .flashStatus .. | .assignFlash .. | .eraseFlash ..
  | .nonce .. | .releaseOwner .. | .claimOwner .. | .lnpay .. | .lndoor .. | .registerWriteOther .. | .trustLoss .. | .moduleReset | .watchdogExpiry
  | .imageBlockFill .. | .sharedBootRetry | .patrolScrub .. | .flitCrcFail .. | .thermalThrottle .. | .thermalTrip | .spdmRequest ..
  | .peerRequest .. => false

/-- The instructions that stand only in the last position of a clause (R90), and MEND (R216). -/
def Instr.lastOnly : Instr → Bool
  | .bra .. | .call .. | .ret .. | .exit .. | .yield .. | .brx .. | .callx .. | .lnret .. | .bkpt .. | .svcall .. | .tret .. | .termRay ..
  | .termBeam .. | .mend .. => true
  | _ => false

/-- The instructions that a sequencer stream admits (R108). -/
def Instr.seqOk : Instr → Bool
  | .iaddS32 .. | .isubS32 .. | .iaddS64 .. | .isubS64 .. | .imulS32 .. | .imulhiS32 .. | .imulhiZ32 .. | .imadS32 .. | .iminS32 .. | .iminZ32 ..
  | .imaxS32 .. | .imaxZ32 .. | .iabsS32 .. | .imulwS32 .. | .imulwZ32 .. | .leaS64 .. | .andZ32 .. | .orZ32 .. | .xorZ32 .. | .andnZ32 ..
  | .shlZ32 .. | .shrZ32 .. | .shrS32 .. | .rotZ32 .. | .popcZ32 .. | .clzZ32 .. | .brevZ32 .. | .bfeZ32 .. | .bfeS32 .. | .bfiZ32 .. | .movZ32 ..
  | .movZ64 .. | .icmpEqZ32 .. | .icmpLtS32 .. | .icmpLeS32 .. | .icmpLtZ32 .. | .icmpLeZ32 .. | .plop .. | .voteAny .. | .voteAll .. | .bra ..
  | .call .. | .ret .. | .brx .. | .idivS32 .. | .idivZ32 .. | .iremS32 .. | .iremZ32 .. | .sel .. | .icmpS64 .. | .icmpZ64 .. | .iadd3S32 ..
  | .shlZ64 .. | .shrZ64 .. | .shrS64 .. | .andZ64 .. | .orZ64 .. | .xorZ64 .. | .popcZ64 .. | .clzZ64 .. | .mma .. | .mmaz .. | .mzero ..
  | .mhaar .. | .mihaarTile .. | .mihaar .. | .mthrSet .. | .mthrTile .. | .msig .. | .mwait .. | .mdesc .. | .mend .. => true
  | _ => false

/-! ### Operands -/

/-- How an instruction names an operand. -/
inductive Role where
  /-- A source of 32 bits or, if w64, 64 bits. -/
  | src (w64 : Bool)
  /-- A destination of 32 or 64 bits. -/
  | dst (w64 : Bool)
  /-- The group of four registers of X128 as a load's destination or as store data (R170). -/
  | group (store : Bool)
  /-- The first of n registers that TAKE writes (R213). -/
  | run (n : Nat)
  /-- The first data register of STH and FEED (R181, R211). -/
  | first
  /-- A scalar register, at most s(top) (R194, R198, R199, R369). -/
  | scalar (top : Nat)
  deriving DecidableEq, Repr

/-- An operand and its role. -/
structure OpUse where
  op : Opnd
  role : Role
  deriving DecidableEq, Repr

/-- The special registers of 64 bits (R137). -/
def special64 (n : Nat) : Bool := n == 0x09 || n == 0x0C || n == 0x0D || n == 0x0E || n == 0x20 || n == 0x21 || n == 0x28
/-- The special-register numbers of R32. -/
def specialListed (n : Nat) : Bool := decide (n ≤ 0x0E) || (decide (0x10 ≤ n) && decide (n ≤ 0x1F)) || n == 0x20 || n == 0x21 || n == 0x28
/-- The special registers that are read only (R32). -/
def specialRO (n : Nat) : Bool := n == 0 || (decide (3 ≤ n) && decide (n ≤ 0x0E)) || n == 0x21

/-- The width in bits of a conversion type (R153); 0 for the reserved indices. -/
def typeWidth (t : Nat) : Nat :=
  match t with
  | 0 => 32 | 1 => 16 | 2 => 16 | 3 => 8 | 4 => 8 | 5 => 4 | 6 => 8 | 7 => 16
  | 8 => 32 | 9 => 64 | 10 => 8 | 11 => 16 | 12 => 32 | 13 => 64 | _ => 0

/-- The source type of a primary conversion code's low three bits (R154). -/
def cvtSource (k : Nat) : Nat :=
  match k with
  | 0 => 0 | 1 => 1 | 2 => 2 | 3 => 3 | 4 => 4 | 5 => 5 | 6 => 8 | _ => 12

/-- The role of a load's destination or of store data by TYPE (R170). -/
def memRole (store : Bool) (ty : Nat) : Role :=
  if ty = 6 then .group store else if store then .src (ty == 5) else .dst (ty == 5)

/-- The operands of an instruction with their roles, in field order D, A, B, C. -/
def Instr.uses : Instr → List OpUse
  | .iaddS32 _ d a b => [⟨d, .dst false⟩, ⟨a, .src false⟩, ⟨b, .src false⟩]
  | .isubS32 _ d a b => [⟨d, .dst false⟩, ⟨a, .src false⟩, ⟨b, .src false⟩]
  | .iaddS64 _ d a b => [⟨d, .dst true⟩, ⟨a, .src true⟩, ⟨b, .src true⟩]
  | .isubS64 _ d a b => [⟨d, .dst true⟩, ⟨a, .src true⟩, ⟨b, .src true⟩]
  | .imulS32 _ d a b => [⟨d, .dst false⟩, ⟨a, .src false⟩, ⟨b, .src false⟩]
  | .imulhiS32 _ d a b => [⟨d, .dst false⟩, ⟨a, .src false⟩, ⟨b, .src false⟩]
  | .imulhiZ32 _ d a b => [⟨d, .dst false⟩, ⟨a, .src false⟩, ⟨b, .src false⟩]
  | .imadS32 _ d a b => [⟨d, .dst false⟩, ⟨a, .src false⟩, ⟨b, .src false⟩]
  | .iminS32 _ d a b => [⟨d, .dst false⟩, ⟨a, .src false⟩, ⟨b, .src false⟩]
  | .iminZ32 _ d a b => [⟨d, .dst false⟩, ⟨a, .src false⟩, ⟨b, .src false⟩]
  | .imaxS32 _ d a b => [⟨d, .dst false⟩, ⟨a, .src false⟩, ⟨b, .src false⟩]
  | .imaxZ32 _ d a b => [⟨d, .dst false⟩, ⟨a, .src false⟩, ⟨b, .src false⟩]
  | .iabsS32 _ d a => [⟨d, .dst false⟩, ⟨a, .src false⟩]
  | .imulwS32 _ d a b => [⟨d, .dst true⟩, ⟨a, .src false⟩, ⟨b, .src false⟩]
  | .imulwZ32 _ d a b => [⟨d, .dst true⟩, ⟨a, .src false⟩, ⟨b, .src false⟩]
  | .leaS64 _ d a b => [⟨d, .dst true⟩, ⟨a, .src true⟩, ⟨b, .src false⟩]
  | .andZ32 _ d a b => [⟨d, .dst false⟩, ⟨a, .src false⟩, ⟨b, .src false⟩]
  | .orZ32 _ d a b => [⟨d, .dst false⟩, ⟨a, .src false⟩, ⟨b, .src false⟩]
  | .xorZ32 _ d a b => [⟨d, .dst false⟩, ⟨a, .src false⟩, ⟨b, .src false⟩]
  | .andnZ32 _ d a b => [⟨d, .dst false⟩, ⟨a, .src false⟩, ⟨b, .src false⟩]
  | .shlZ32 _ d a b => [⟨d, .dst false⟩, ⟨a, .src false⟩, ⟨b, .src false⟩]
  | .shrZ32 _ d a b => [⟨d, .dst false⟩, ⟨a, .src false⟩, ⟨b, .src false⟩]
  | .shrS32 _ d a b => [⟨d, .dst false⟩, ⟨a, .src false⟩, ⟨b, .src false⟩]
  | .rotZ32 _ d a b => [⟨d, .dst false⟩, ⟨a, .src false⟩, ⟨b, .src false⟩]
  | .popcZ32 _ d a => [⟨d, .dst false⟩, ⟨a, .src false⟩]
  | .clzZ32 _ d a => [⟨d, .dst false⟩, ⟨a, .src false⟩]
  | .brevZ32 _ d a => [⟨d, .dst false⟩, ⟨a, .src false⟩]
  | .bfeZ32 _ d a b => [⟨d, .dst false⟩, ⟨a, .src false⟩, ⟨b, .src false⟩]
  | .bfeS32 _ d a b => [⟨d, .dst false⟩, ⟨a, .src false⟩, ⟨b, .src false⟩]
  | .bfiZ32 _ d a b => [⟨d, .dst false⟩, ⟨a, .src false⟩, ⟨b, .src false⟩]
  | .movZ32 _ d a => [⟨d, .dst false⟩, ⟨a, .src false⟩]
  | .movZ64 _ d a => [⟨d, .dst true⟩, ⟨a, .src true⟩]
  | .icmpEqZ32 _ _ _ a b => [⟨a, .src false⟩, ⟨b, .src false⟩]
  | .icmpLtS32 _ _ _ a b => [⟨a, .src false⟩, ⟨b, .src false⟩]
  | .icmpLeS32 _ _ _ a b => [⟨a, .src false⟩, ⟨b, .src false⟩]
  | .icmpLtZ32 _ _ _ a b => [⟨a, .src false⟩, ⟨b, .src false⟩]
  | .icmpLeZ32 _ _ _ a b => [⟨a, .src false⟩, ⟨b, .src false⟩]
  | .plop .. => []
  | .voteAny .. => []
  | .voteAll .. => []
  | .ballot _ d _ _ => [⟨d, .dst false⟩]
  | .shflIdx _ d a b => [⟨d, .dst false⟩, ⟨a, .src false⟩, ⟨b, .src false⟩]
  | .shflUp _ d a b => [⟨d, .dst false⟩, ⟨a, .src false⟩, ⟨b, .src false⟩]
  | .shflDn _ d a b => [⟨d, .dst false⟩, ⟨a, .src false⟩, ⟨b, .src false⟩]
  | .shflXor _ d a b => [⟨d, .dst false⟩, ⟨a, .src false⟩, ⟨b, .src false⟩]
  | .iredaddS32 _ d a => [⟨d, .dst false⟩, ⟨a, .src false⟩]
  | .iredminS32 _ d a => [⟨d, .dst false⟩, ⟨a, .src false⟩]
  | .iredmaxS32 _ d a => [⟨d, .dst false⟩, ⟨a, .src false⟩]
  | .faddF32 _ d a b => [⟨d, .dst false⟩, ⟨a, .src false⟩, ⟨b, .src false⟩]
  | .fsubF32 _ d a b => [⟨d, .dst false⟩, ⟨a, .src false⟩, ⟨b, .src false⟩]
  | .fmulF32 _ d a b => [⟨d, .dst false⟩, ⟨a, .src false⟩, ⟨b, .src false⟩]
  | .ffmaF32 _ d a b => [⟨d, .dst false⟩, ⟨a, .src false⟩, ⟨b, .src false⟩]
  | .fminF32 _ d a b => [⟨d, .dst false⟩, ⟨a, .src false⟩, ⟨b, .src false⟩]
  | .fmaxF32 _ d a b => [⟨d, .dst false⟩, ⟨a, .src false⟩, ⟨b, .src false⟩]
  | .fabsF32 _ d a => [⟨d, .dst false⟩, ⟨a, .src false⟩]
  | .fnegF32 _ d a => [⟨d, .dst false⟩, ⟨a, .src false⟩]
  | .faddF16x2 _ d a b => [⟨d, .dst false⟩, ⟨a, .src false⟩, ⟨b, .src false⟩]
  | .fsubF16x2 _ d a b => [⟨d, .dst false⟩, ⟨a, .src false⟩, ⟨b, .src false⟩]
  | .fmulF16x2 _ d a b => [⟨d, .dst false⟩, ⟨a, .src false⟩, ⟨b, .src false⟩]
  | .ffmaF16x2 _ d a b => [⟨d, .dst false⟩, ⟨a, .src false⟩, ⟨b, .src false⟩]
  | .faddBf16x2 _ d a b => [⟨d, .dst false⟩, ⟨a, .src false⟩, ⟨b, .src false⟩]
  | .fsubBf16x2 _ d a b => [⟨d, .dst false⟩, ⟨a, .src false⟩, ⟨b, .src false⟩]
  | .fmulBf16x2 _ d a b => [⟨d, .dst false⟩, ⟨a, .src false⟩, ⟨b, .src false⟩]
  | .ffmaBf16x2 _ d a b => [⟨d, .dst false⟩, ⟨a, .src false⟩, ⟨b, .src false⟩]
  | .fcmpEqF32 _ _ _ a b => [⟨a, .src false⟩, ⟨b, .src false⟩]
  | .fcmpLtF32 _ _ _ a b => [⟨a, .src false⟩, ⟨b, .src false⟩]
  | .fcmpLeF32 _ _ _ a b => [⟨a, .src false⟩, ⟨b, .src false⟩]
  | .fcmpUnF32 _ _ _ a b => [⟨a, .src false⟩, ⟨b, .src false⟩]
  | .fredaddF32 _ d a => [⟨d, .dst false⟩, ⟨a, .src false⟩]
  | .fredminF32 _ d a => [⟨d, .dst false⟩, ⟨a, .src false⟩]
  | .fredmaxF32 _ d a => [⟨d, .dst false⟩, ⟨a, .src false⟩]
  | .fdivF32 _ d a b => [⟨d, .dst false⟩, ⟨a, .src false⟩, ⟨b, .src false⟩]
  | .iaddS16x2 _ d a b => [⟨d, .dst false⟩, ⟨a, .src false⟩, ⟨b, .src false⟩]
  | .isubS16x2 _ d a b => [⟨d, .dst false⟩, ⟨a, .src false⟩, ⟨b, .src false⟩]
  | .iaddsS16x2 _ d a b => [⟨d, .dst false⟩, ⟨a, .src false⟩, ⟨b, .src false⟩]
  | .isubsS16x2 _ d a b => [⟨d, .dst false⟩, ⟨a, .src false⟩, ⟨b, .src false⟩]
  | .iaddsZ16x2 _ d a b => [⟨d, .dst false⟩, ⟨a, .src false⟩, ⟨b, .src false⟩]
  | .isubsZ16x2 _ d a b => [⟨d, .dst false⟩, ⟨a, .src false⟩, ⟨b, .src false⟩]
  | .imulS16x2 _ d a b => [⟨d, .dst false⟩, ⟨a, .src false⟩, ⟨b, .src false⟩]
  | .imadS16x2 _ d a b => [⟨d, .dst false⟩, ⟨a, .src false⟩, ⟨b, .src false⟩]
  | .iminS16x2 _ d a b => [⟨d, .dst false⟩, ⟨a, .src false⟩, ⟨b, .src false⟩]
  | .imaxS16x2 _ d a b => [⟨d, .dst false⟩, ⟨a, .src false⟩, ⟨b, .src false⟩]
  | .iminZ16x2 _ d a b => [⟨d, .dst false⟩, ⟨a, .src false⟩, ⟨b, .src false⟩]
  | .imaxZ16x2 _ d a b => [⟨d, .dst false⟩, ⟨a, .src false⟩, ⟨b, .src false⟩]
  | .iabsS16x2 _ d a => [⟨d, .dst false⟩, ⟨a, .src false⟩]
  | .sadZ8x4 _ d a b => [⟨d, .dst false⟩, ⟨a, .src false⟩, ⟨b, .src false⟩]
  | .sadZ16x2 _ d a b => [⟨d, .dst false⟩, ⟨a, .src false⟩, ⟨b, .src false⟩]
  | .dotS16x2 _ d a b => [⟨d, .dst false⟩, ⟨a, .src false⟩, ⟨b, .src false⟩]
  | .frcpF32 _ d a => [⟨d, .dst false⟩, ⟨a, .src false⟩]
  | .frsqF32 _ d a => [⟨d, .dst false⟩, ⟨a, .src false⟩]
  | .fsqrtF32 _ d a => [⟨d, .dst false⟩, ⟨a, .src false⟩]
  | .fexp2F32 _ d a => [⟨d, .dst false⟩, ⟨a, .src false⟩]
  | .flog2F32 _ d a => [⟨d, .dst false⟩, ⟨a, .src false⟩]
  | .fsinF32 _ d a => [⟨d, .dst false⟩, ⟨a, .src false⟩]
  | .fcosF32 _ d a => [⟨d, .dst false⟩, ⟨a, .src false⟩]
  | .ftanhF32 _ d a => [⟨d, .dst false⟩, ⟨a, .src false⟩]
  | .cvt _ d a k => [⟨d, .dst (typeWidth (bits k 6 3) == 64)⟩, ⟨a, .src false⟩]
  | .quant _ d a b => [⟨d, .dst false⟩, ⟨a, .src false⟩, ⟨b, .src false⟩]
  | .deq _ d a b => [⟨d, .dst false⟩, ⟨a, .src false⟩, ⟨b, .src false⟩]
  | .pxunpack _ d a b => [⟨d, .dst false⟩, ⟨a, .src false⟩, ⟨b, .src false⟩]
  | .pxpack _ d a b => [⟨d, .dst false⟩, ⟨a, .src false⟩, ⟨b, .src false⟩]
  | .fgeluF32 _ d a => [⟨d, .dst false⟩, ⟨a, .src false⟩]
  | .fsigmF32 _ d a => [⟨d, .dst false⟩, ⟨a, .src false⟩]
  | .fexp2F16x2 _ d a => [⟨d, .dst false⟩, ⟨a, .src false⟩]
  | .bra .. => []
  | .call .. => []
  | .ret .. => []
  | .exit .. => []
  | .yield .. => []
  | .brx _ a => [⟨a, .src false⟩]
  | .callx _ a => [⟨a, .src false⟩]
  | .lnret .. => []
  | .ldZ32 _ d a _ _ => [⟨d, .dst false⟩, ⟨a, .src true⟩]
  | .ldZ64 _ d a _ _ => [⟨d, .dst true⟩, ⟨a, .src true⟩]
  | .stZ32 _ d a _ _ => [⟨d, .src false⟩, ⟨a, .src true⟩]
  | .stZ64 _ d a _ _ => [⟨d, .src true⟩, ⟨a, .src true⟩]
  | .ldroZ32 _ d a _ _ => [⟨d, .dst false⟩, ⟨a, .src true⟩]
  | .ldroZ64 _ d a _ _ => [⟨d, .dst true⟩, ⟨a, .src true⟩]
  | .stntZ32 _ d a _ _ => [⟨d, .src false⟩, ⟨a, .src true⟩]
  | .stntZ64 _ d a _ _ => [⟨d, .src true⟩, ⟨a, .src true⟩]
  | .ldt _ d a _ => [⟨d, .dst false⟩, ⟨a, .src true⟩]
  | .ldtC _ d a _ => [⟨d, .dst false⟩, ⟨a, .src true⟩]
  | .sth _ d a _ => [⟨d, .first⟩, ⟨a, .src true⟩]
  | .acq _ d a _ _ => [⟨d, .dst true⟩, ⟨a, .src true⟩]
  | .rel _ d a _ _ => [⟨d, .dst false⟩, ⟨a, .src true⟩]
  | .mfs _ d nr => [⟨d, .dst (special64 nr.toNat)⟩]
  | .mts _ nr b => [⟨b, .src (special64 nr.toNat)⟩]
  | .idivS32 _ d a b => [⟨d, .dst false⟩, ⟨a, .src false⟩, ⟨b, .src false⟩]
  | .idivZ32 _ d a b => [⟨d, .dst false⟩, ⟨a, .src false⟩, ⟨b, .src false⟩]
  | .iremS32 _ d a b => [⟨d, .dst false⟩, ⟨a, .src false⟩, ⟨b, .src false⟩]
  | .iremZ32 _ d a b => [⟨d, .dst false⟩, ⟨a, .src false⟩, ⟨b, .src false⟩]
  | .sel _ d a b w _ _ => [⟨d, .dst w⟩, ⟨a, .src w⟩, ⟨b, .src w⟩]
  | .icmpS64 _ _ _ a b _ => [⟨a, .src true⟩, ⟨b, .src true⟩]
  | .icmpZ64 _ _ _ a b _ => [⟨a, .src true⟩, ⟨b, .src true⟩]
  | .iadd3S32 _ d a b c => [⟨d, .dst false⟩, ⟨a, .src false⟩, ⟨b, .src false⟩, ⟨c, .src false⟩]
  | .shlZ64 _ d a b => [⟨d, .dst true⟩, ⟨a, .src true⟩, ⟨b, .src false⟩]
  | .shrZ64 _ d a b => [⟨d, .dst true⟩, ⟨a, .src true⟩, ⟨b, .src false⟩]
  | .shrS64 _ d a b => [⟨d, .dst true⟩, ⟨a, .src true⟩, ⟨b, .src false⟩]
  | .andZ64 _ d a b => [⟨d, .dst true⟩, ⟨a, .src true⟩, ⟨b, .src true⟩]
  | .orZ64 _ d a b => [⟨d, .dst true⟩, ⟨a, .src true⟩, ⟨b, .src true⟩]
  | .xorZ64 _ d a b => [⟨d, .dst true⟩, ⟨a, .src true⟩, ⟨b, .src true⟩]
  | .popcZ64 _ d a => [⟨d, .dst false⟩, ⟨a, .src true⟩]
  | .clzZ64 _ d a => [⟨d, .dst false⟩, ⟨a, .src true⟩]
  | .ffma3F32 _ d a b c => [⟨d, .dst false⟩, ⟨a, .src false⟩, ⟨b, .src false⟩, ⟨c, .src false⟩]
  | .ffma3F16x2 _ d a b c => [⟨d, .dst false⟩, ⟨a, .src false⟩, ⟨b, .src false⟩, ⟨c, .src false⟩]
  | .ffma3Bf16x2 _ d a b c => [⟨d, .dst false⟩, ⟨a, .src false⟩, ⟨b, .src false⟩, ⟨c, .src false⟩]
  | .faddF32Rm _ d a b _ => [⟨d, .dst false⟩, ⟨a, .src false⟩, ⟨b, .src false⟩]
  | .fmulF32Rm _ d a b _ => [⟨d, .dst false⟩, ⟨a, .src false⟩, ⟨b, .src false⟩]
  | .dotsS16x2 _ d a b c => [⟨d, .dst false⟩, ⟨a, .src false⟩, ⟨b, .src false⟩, ⟨c, .src false⟩]
  | .fcmpF16 _ _ _ a b _ _ => [⟨a, .src false⟩, ⟨b, .src false⟩]
  | .fcmpBf16 _ _ _ a b _ _ => [⟨a, .src false⟩, ⟨b, .src false⟩]
  | .cvtWide _ d a dst src _ _ _ _ => [⟨d, .dst (typeWidth dst.toNat == 64)⟩, ⟨a, .src (typeWidth src.toNat == 64)⟩]
  | .ldType _ d a _ _ _ ty => [⟨d, memRole false ty.toNat⟩, ⟨a, .src true⟩]
  | .stType _ d a _ _ _ ty => [⟨d, memRole true ty.toNat⟩, ⟨a, .src true⟩]
  | .atom _ d a _ _ c _ ty _ => [⟨d, .dst (ty.toNat == 2 || ty.toNat == 3)⟩, ⟨a, .src true⟩, ⟨c, .src (ty.toNat == 2 || ty.toNat == 3)⟩]
  | .ldres _ d a _ _ w => [⟨d, .dst w⟩, ⟨a, .src true⟩]
  | .stcon _ d a _ _ c w => [⟨d, .dst false⟩, ⟨a, .src true⟩, ⟨c, .src w⟩]
  | .fence .. => []
  | .drainnt .. => []
  | .drainst .. => []
  | .xcopyIn _ d a _ c _ _ _ => [⟨d, .scalar 23⟩, ⟨a, .src true⟩, ⟨c, .scalar 19⟩]
  | .xcopyOut _ d a _ c _ _ _ => [⟨d, .scalar 23⟩, ⟨a, .src true⟩, ⟨c, .scalar 19⟩]
  | .xmcast _ d a _ c _ _ _ _ => [⟨d, .scalar 23⟩, ⟨a, .src true⟩, ⟨c, .scalar 18⟩]
  | .fread _ d a _ c _ _ => [⟨d, .scalar 23⟩, ⟨a, .src true⟩, ⟨c, .src true⟩]
  | .fwrite _ d a _ c _ => [⟨d, .scalar 23⟩, ⟨a, .src true⟩, ⟨c, .src true⟩]
  | .waitc _ d a b _ => [⟨d, .dst false⟩, ⟨a, .src true⟩, ⟨b, .src true⟩]
  | .fork _ d a _ c => [⟨d, .src true⟩, ⟨a, .src true⟩, ⟨c, .src false⟩]
  | .join _ d a _ => [⟨d, .dst false⟩, ⟨a, .src true⟩]
  | .feed _ d a _ c => [⟨d, .first⟩, ⟨a, .src true⟩, ⟨c, .src false⟩]
  | .take _ d _ _ _ n => [⟨d, .run (n.toNat + 1)⟩]
  | .barInit _ a _ => [⟨a, .src false⟩]
  | .barArv .. => []
  | .barAddr _ d _ => [⟨d, .dst true⟩]
  | .arrive _ a _ => [⟨a, .src true⟩]
  | .bwait _ d a _ => [⟨d, .dst false⟩, ⟨a, .src false⟩]
  | .caladv _ a => [⟨a, .src false⟩]
  | .caladvAllow _ a => [⟨a, .src false⟩]
  | .spawn _ d a _ => [⟨d, .dst false⟩, ⟨a, .src true⟩]
  | .lnsend _ d a b => [⟨d, .dst false⟩, ⟨a, .src true⟩, ⟨b, .src true⟩]
  | .lnclr _ d a => [⟨d, .scalar 22⟩, ⟨a, .src false⟩]
  | .bkpt .. => []
  | .svcall .. => []
  | .tret .. => []
  | .termRay .. => []
  | .termBeam .. => []
  | .mma _ a b _ _ _ _ _ _ => [⟨a, .src true⟩, ⟨b, .src true⟩]
  | .mmaz _ a b _ _ _ _ _ _ => [⟨a, .src true⟩, ⟨b, .src true⟩]
  | .mzero .. => []
  | .mhaar _ a b _ _ _ => [⟨a, .src true⟩, ⟨b, .src true⟩]
  | .mihaarTile .. => []
  | .mihaar _ a b _ _ => [⟨a, .src true⟩, ⟨b, .src true⟩]
  | .mthrSet _ a _ => [⟨a, .src true⟩]
  | .mthrTile _ a _ _ => [⟨a, .src true⟩]
  | .msig _ a => [⟨a, .src true⟩]
  | .mwait _ a b _ => [⟨a, .src true⟩, ⟨b, .src true⟩]
  | .mdesc _ a b _ => [⟨a, .src true⟩, ⟨b, .src true⟩]
  | .mend .. => []
  | .bankmodeSelect .. | .bankmodeSwitch .. | .bankSwitchStep .. | .clauseEntry .. | .issueStarvation .. | .yieldTimeout .. | .slotStallEnd ..
  | .pageWalk .. | .loadComplete .. | .storeCheck .. | .storeFaultRecord .. | .storeFaultReport .. | .atomicComplete .. | .fifoOperationComplete ..
  | .acqComplete .. | .relComplete .. | .fenceComplete .. | .dirtyWriteBack .. | .copyAccept .. | .copyChunkComplete .. | .flashProgramComplete ..
  | .ldtComplete .. | .sthComplete .. | .feedComplete .. | .barrierArrival .. | .bwaitComplete .. | .spawnComplete .. | .streamBegin ..
  | .tileCommandExecute .. | .mwaitRelease .. | .streamEnd .. | .loupeFrontierReport .. | .loupeWaitReport .. | .qdoor .. | .queueHeaderPoll ..
  | .packetTake .. | .launchBegin .. | .barrierPacketEvaluate .. | .aggregatorMerge .. | .pageEntryTake .. | .pageTranslate .. | .flashSense ..
  | .ldpcDecode .. | .pageFetch .. | .pageDecompress .. | .pageTransform .. | .windowCarve .. | .pageLanding .. | .dispatcherBankTake ..
  | .beamPlace .. | .gangPlace .. | .beamComplete .. | .launchComplete .. | .sliceExpiry .. | .preemptDecision .. | .drainTimeout .. | .beamSave ..
  | .beamFlush .. | .replyIntoSaveRecord .. | .beamResume .. | .lanternRecord .. | .lanternDeliver .. | .evpop .. | .sffree .. | .raycmdSelect ..
  | .raycmdResume .. | .raycmdResumeSkip .. | .raycmdPark .. | .raycmdTermRay .. | .raycmdTermBeam .. | .raycmdTermCtx .. | .xlate ..
  | .tlbinvPage .. | .tlbinvContext .. | .tlbinvAll .. | .raywin .. | .createCtx .. | .destroyCtx .. | .createQueue .. | .destroyQueue ..
  | .clearHalt .. | .suspend .. | .resume .. | .confirmBoot .. | .stageImage .. | .setPowerCap .. | .readLog .. | .flashStatus .. | .assignFlash ..
  | .eraseFlash .. | .nonce .. | .releaseOwner .. | .claimOwner .. | .lnpay .. | .lndoor .. | .registerWriteOther .. | .trustLoss .. | .moduleReset
  | .watchdogExpiry | .imageBlockFill .. | .sharedBootRetry | .patrolScrub .. | .flitCrcFail .. | .thermalThrottle .. | .thermalTrip
  | .spdmRequest .. | .peerRequest .. => []

/-- The memory offset of an instruction in memory format, if its description gives it one (R100). -/
def Instr.memOfs : Instr → Option MemOfs
  | .ldZ32 _ _ _ _ ofs | .ldZ64 _ _ _ _ ofs | .stZ32 _ _ _ _ ofs | .stZ64 _ _ _ _ ofs | .ldroZ32 _ _ _ _ ofs | .ldroZ64 _ _ _ _ ofs
  | .stntZ32 _ _ _ _ ofs | .stntZ64 _ _ _ _ ofs | .acq _ _ _ _ ofs | .rel _ _ _ _ ofs | .ldType _ _ _ _ ofs _ _ | .stType _ _ _ _ ofs _ _
  | .atom _ _ _ _ ofs _ _ _ _ | .ldres _ _ _ _ ofs _ | .stcon _ _ _ _ ofs _ _ => some ofs
  | _ => none

/-- The dependence counter field of an instruction in memory format (R100). -/
def Instr.dcField : Instr → Option (BitVec 3)
  | .ldZ32 _ _ _ dc _ | .ldZ64 _ _ _ dc _ | .stZ32 _ _ _ dc _ | .stZ64 _ _ _ dc _ | .ldroZ32 _ _ _ dc _ | .ldroZ64 _ _ _ dc _ | .stntZ32 _ _ _ dc _
  | .stntZ64 _ _ _ dc _ | .ldt _ _ _ dc | .ldtC _ _ _ dc | .sth _ _ _ dc | .acq _ _ _ dc _ | .rel _ _ _ dc _ | .ldType _ _ _ dc _ _ _
  | .stType _ _ _ dc _ _ _ | .atom _ _ _ dc _ _ _ _ _ | .ldres _ _ _ dc _ _ | .stcon _ _ _ dc _ _ _ | .fence _ dc _ | .xcopyIn _ _ _ dc _ _ _ _
  | .xcopyOut _ _ _ dc _ _ _ _ | .xmcast _ _ _ dc _ _ _ _ _ | .fread _ _ _ dc _ _ _ | .fwrite _ _ _ dc _ _ | .fork _ _ _ dc _ | .join _ _ _ dc
  | .feed _ _ _ dc _ | .arrive _ _ dc | .bwait _ _ _ dc | .spawn _ _ _ dc => some dc
  | _ => none

/-- The guard of an instruction (R99). -/
def Instr.guard : Instr → Guard
  | .iaddS32 g _ _ _ | .isubS32 g _ _ _ | .iaddS64 g _ _ _ | .isubS64 g _ _ _ | .imulS32 g _ _ _ | .imulhiS32 g _ _ _ | .imulhiZ32 g _ _ _
  | .imadS32 g _ _ _ | .iminS32 g _ _ _ | .iminZ32 g _ _ _ | .imaxS32 g _ _ _ | .imaxZ32 g _ _ _ | .iabsS32 g _ _ | .imulwS32 g _ _ _
  | .imulwZ32 g _ _ _ | .leaS64 g _ _ _ | .andZ32 g _ _ _ | .orZ32 g _ _ _ | .xorZ32 g _ _ _ | .andnZ32 g _ _ _ | .shlZ32 g _ _ _ | .shrZ32 g _ _ _
  | .shrS32 g _ _ _ | .rotZ32 g _ _ _ | .popcZ32 g _ _ | .clzZ32 g _ _ | .brevZ32 g _ _ | .bfeZ32 g _ _ _ | .bfeS32 g _ _ _ | .bfiZ32 g _ _ _
  | .movZ32 g _ _ | .movZ64 g _ _ | .icmpEqZ32 g _ _ _ _ | .icmpLtS32 g _ _ _ _ | .icmpLeS32 g _ _ _ _ | .icmpLtZ32 g _ _ _ _ | .icmpLeZ32 g _ _ _ _
  | .plop g _ _ _ _ _ | .voteAny g _ _ _ _ | .voteAll g _ _ _ _ | .ballot g _ _ _ | .shflIdx g _ _ _ | .shflUp g _ _ _ | .shflDn g _ _ _
  | .shflXor g _ _ _ | .iredaddS32 g _ _ | .iredminS32 g _ _ | .iredmaxS32 g _ _ | .faddF32 g _ _ _ | .fsubF32 g _ _ _ | .fmulF32 g _ _ _
  | .ffmaF32 g _ _ _ | .fminF32 g _ _ _ | .fmaxF32 g _ _ _ | .fabsF32 g _ _ | .fnegF32 g _ _ | .faddF16x2 g _ _ _ | .fsubF16x2 g _ _ _
  | .fmulF16x2 g _ _ _ | .ffmaF16x2 g _ _ _ | .faddBf16x2 g _ _ _ | .fsubBf16x2 g _ _ _ | .fmulBf16x2 g _ _ _ | .ffmaBf16x2 g _ _ _
  | .fcmpEqF32 g _ _ _ _ | .fcmpLtF32 g _ _ _ _ | .fcmpLeF32 g _ _ _ _ | .fcmpUnF32 g _ _ _ _ | .fredaddF32 g _ _ | .fredminF32 g _ _
  | .fredmaxF32 g _ _ | .fdivF32 g _ _ _ | .iaddS16x2 g _ _ _ | .isubS16x2 g _ _ _ | .iaddsS16x2 g _ _ _ | .isubsS16x2 g _ _ _ | .iaddsZ16x2 g _ _ _
  | .isubsZ16x2 g _ _ _ | .imulS16x2 g _ _ _ | .imadS16x2 g _ _ _ | .iminS16x2 g _ _ _ | .imaxS16x2 g _ _ _ | .iminZ16x2 g _ _ _ | .imaxZ16x2 g _ _ _
  | .iabsS16x2 g _ _ | .sadZ8x4 g _ _ _ | .sadZ16x2 g _ _ _ | .dotS16x2 g _ _ _ | .frcpF32 g _ _ | .frsqF32 g _ _ | .fsqrtF32 g _ _ | .fexp2F32 g _ _
  | .flog2F32 g _ _ | .fsinF32 g _ _ | .fcosF32 g _ _ | .ftanhF32 g _ _ | .cvt g _ _ _ | .quant g _ _ _ | .deq g _ _ _ | .pxunpack g _ _ _
  | .pxpack g _ _ _ | .fgeluF32 g _ _ | .fsigmF32 g _ _ | .fexp2F16x2 g _ _ | .bra g _ | .call g _ | .ret g | .exit g | .yield g | .brx g _
  | .callx g _ | .lnret g | .ldZ32 g _ _ _ _ | .ldZ64 g _ _ _ _ | .stZ32 g _ _ _ _ | .stZ64 g _ _ _ _ | .ldroZ32 g _ _ _ _ | .ldroZ64 g _ _ _ _
  | .stntZ32 g _ _ _ _ | .stntZ64 g _ _ _ _ | .ldt g _ _ _ | .ldtC g _ _ _ | .sth g _ _ _ | .acq g _ _ _ _ | .rel g _ _ _ _ | .mfs g _ _ | .mts g _ _
  | .idivS32 g _ _ _ | .idivZ32 g _ _ _ | .iremS32 g _ _ _ | .iremZ32 g _ _ _ | .sel g _ _ _ _ _ _ | .icmpS64 g _ _ _ _ _ | .icmpZ64 g _ _ _ _ _
  | .iadd3S32 g _ _ _ _ | .shlZ64 g _ _ _ | .shrZ64 g _ _ _ | .shrS64 g _ _ _ | .andZ64 g _ _ _ | .orZ64 g _ _ _ | .xorZ64 g _ _ _ | .popcZ64 g _ _
  | .clzZ64 g _ _ | .ffma3F32 g _ _ _ _ | .ffma3F16x2 g _ _ _ _ | .ffma3Bf16x2 g _ _ _ _ | .faddF32Rm g _ _ _ _ | .fmulF32Rm g _ _ _ _
  | .dotsS16x2 g _ _ _ _ | .fcmpF16 g _ _ _ _ _ _ | .fcmpBf16 g _ _ _ _ _ _ | .cvtWide g _ _ _ _ _ _ _ _ | .ldType g _ _ _ _ _ _
  | .stType g _ _ _ _ _ _ | .atom g _ _ _ _ _ _ _ _ | .ldres g _ _ _ _ _ | .stcon g _ _ _ _ _ _ | .fence g _ _ | .drainnt g | .drainst g
  | .xcopyIn g _ _ _ _ _ _ _ | .xcopyOut g _ _ _ _ _ _ _ | .xmcast g _ _ _ _ _ _ _ _ | .fread g _ _ _ _ _ _ | .fwrite g _ _ _ _ _ | .waitc g _ _ _ _
  | .fork g _ _ _ _ | .join g _ _ _ | .feed g _ _ _ _ | .take g _ _ _ _ _ | .barInit g _ _ | .barArv g _ | .barAddr g _ _ | .arrive g _ _
  | .bwait g _ _ _ | .caladv g _ | .caladvAllow g _ | .spawn g _ _ _ | .lnsend g _ _ _ | .lnclr g _ _ | .bkpt g _ | .svcall g _ | .tret g
  | .termRay g | .termBeam g | .mma g _ _ _ _ _ _ _ _ | .mmaz g _ _ _ _ _ _ _ _ | .mzero g _ | .mhaar g _ _ _ _ _ | .mihaarTile g _ _ _
  | .mihaar g _ _ _ _ | .mthrSet g _ _ | .mthrTile g _ _ _ | .msig g _ | .mwait g _ _ _ | .mdesc g _ _ _ | .mend g => g
  | .bankmodeSelect .. | .bankmodeSwitch .. | .bankSwitchStep .. | .clauseEntry .. | .issueStarvation .. | .yieldTimeout .. | .slotStallEnd ..
  | .pageWalk .. | .loadComplete .. | .storeCheck .. | .storeFaultRecord .. | .storeFaultReport .. | .atomicComplete .. | .fifoOperationComplete ..
  | .acqComplete .. | .relComplete .. | .fenceComplete .. | .dirtyWriteBack .. | .copyAccept .. | .copyChunkComplete .. | .flashProgramComplete ..
  | .ldtComplete .. | .sthComplete .. | .feedComplete .. | .barrierArrival .. | .bwaitComplete .. | .spawnComplete .. | .streamBegin ..
  | .tileCommandExecute .. | .mwaitRelease .. | .streamEnd .. | .loupeFrontierReport .. | .loupeWaitReport .. | .qdoor .. | .queueHeaderPoll ..
  | .packetTake .. | .launchBegin .. | .barrierPacketEvaluate .. | .aggregatorMerge .. | .pageEntryTake .. | .pageTranslate .. | .flashSense ..
  | .ldpcDecode .. | .pageFetch .. | .pageDecompress .. | .pageTransform .. | .windowCarve .. | .pageLanding .. | .dispatcherBankTake ..
  | .beamPlace .. | .gangPlace .. | .beamComplete .. | .launchComplete .. | .sliceExpiry .. | .preemptDecision .. | .drainTimeout .. | .beamSave ..
  | .beamFlush .. | .replyIntoSaveRecord .. | .beamResume .. | .lanternRecord .. | .lanternDeliver .. | .evpop .. | .sffree .. | .raycmdSelect ..
  | .raycmdResume .. | .raycmdResumeSkip .. | .raycmdPark .. | .raycmdTermRay .. | .raycmdTermBeam .. | .raycmdTermCtx .. | .xlate ..
  | .tlbinvPage .. | .tlbinvContext .. | .tlbinvAll .. | .raywin .. | .createCtx .. | .destroyCtx .. | .createQueue .. | .destroyQueue ..
  | .clearHalt .. | .suspend .. | .resume .. | .confirmBoot .. | .stageImage .. | .setPowerCap .. | .readLog .. | .flashStatus .. | .assignFlash ..
  | .eraseFlash .. | .nonce .. | .releaseOwner .. | .claimOwner .. | .lnpay .. | .lndoor .. | .registerWriteOther .. | .trustLoss .. | .moduleReset
  | .watchdogExpiry | .imageBlockFill .. | .sharedBootRetry | .patrolScrub .. | .flitCrcFail .. | .thermalThrottle .. | .thermalTrip
  | .spdmRequest .. | .peerRequest .. => ⟨false, 7⟩

/-- Whether an instruction is a wide form (R103). -/
def Instr.wide : Instr → Bool
  | .idivS32 .. | .idivZ32 .. | .iremS32 .. | .iremZ32 .. | .sel .. | .icmpS64 .. | .icmpZ64 .. | .iadd3S32 .. | .shlZ64 .. | .shrZ64 .. | .shrS64 ..
  | .andZ64 .. | .orZ64 .. | .xorZ64 .. | .popcZ64 .. | .clzZ64 .. | .ffma3F32 .. | .ffma3F16x2 .. | .ffma3Bf16x2 .. | .faddF32Rm .. | .fmulF32Rm ..
  | .dotsS16x2 .. | .fcmpF16 .. | .fcmpBf16 .. | .cvtWide .. | .ldType .. | .stType .. | .atom .. | .ldres .. | .stcon .. | .fence .. | .drainnt ..
  | .drainst .. | .xcopyIn .. | .xcopyOut .. | .xmcast .. | .fread .. | .fwrite .. | .waitc .. | .fork .. | .join .. | .feed .. | .take ..
  | .barInit .. | .barArv .. | .barAddr .. | .arrive .. | .bwait .. | .caladv .. | .caladvAllow .. | .spawn .. | .lnsend .. | .lnclr .. | .bkpt ..
  | .svcall .. | .tret .. | .termRay .. | .termBeam .. | .mma .. | .mmaz .. | .mzero .. | .mhaar .. | .mihaarTile .. | .mihaar .. | .mthrSet ..
  | .mthrTile .. | .msig .. | .mwait .. | .mdesc .. | .mend .. => true
  | _ => false

/-- The literals an instruction's fields name: operands first, then the memory offset. -/
def Instr.lits (i : Instr) : List Word :=
  i.uses.filterMap (fun u => match u.op with | .lit x => some x | _ => none) ++
  (match i.memOfs with | some (.lit x) => [x] | _ => [])

/-- Whether the instruction takes a literal slot (R88). -/
def Instr.usesLit (i : Instr) : Bool := !i.lits.isEmpty
/-- The literal of the instruction's literal slot. -/
def Instr.litVal (i : Instr) : Word := i.lits.headD 0
/-- All fields that name the literal name one literal (R97). -/
def Instr.litOk (i : Instr) : Bool := i.lits.all (· == i.litVal)
/-- The number of slots an instruction takes (R88). -/
def Instr.size (i : Instr) : Nat := 1 + b2n i.wide + b2n i.usesLit

/-! ### Reserved field values (cause 0x04) -/

/-- The jump displacement of BRA and CALL in words (R102). -/
def Instr.jumpDisp : Instr → Option Int
  | .bra _ disp | .call _ disp => some disp.toInt
  | _ => none

/-- A primary conversion code is listed in R154. -/
def cvtCodeOk (k : BitVec 7) : Bool :=
  decide (bits k 6 3 < 14) && bits k 6 3 != cvtSource (bits k 2 0)

/-- An element position k of a type fits 32 bits, and is 0 for a type of 32 or 64 bits (R155). -/
def elemPosOk (t k : Nat) : Bool :=
  k == 0 || (decide (typeWidth t < 32) && decide ((k + 1) * typeWidth t ≤ 32))

/-- A scope code is not reserved (R186). -/
def scopeOk (s : BitVec 3) : Bool := decide (s.toNat < 6)

/-- The fields that have a place in Instr hold no reserved value (R100, R103 and each description). -/
def Instr.fieldsOk : Instr → Bool
  | .mfs _ _ nr => specialListed nr.toNat
  | .mts _ nr _ => specialListed nr.toNat && !specialRO nr.toNat
  | .cvt _ _ _ k => cvtCodeOk k
  | .cvtWide _ _ _ dst src rm sat spos dpos =>
    decide (dst.toNat < 14) && decide (src.toNat < 14) && dst != src && rm != 5 && rm != 6 && sat != 3 &&
    elemPosOk src.toNat spos.toNat && elemPosOk dst.toNat dpos.toNat
  | .icmpS64 _ _ _ _ _ cond => cond != 0 && cond != 3
  | .icmpZ64 _ _ _ _ _ cond => cond != 3
  | .ldType _ _ _ dc _ cp ty => decide (dc.toNat < 6) && cp != 3 && ty != 7
  | .stType _ _ _ dc _ cp ty => decide (dc.toNat < 6) && cp != 3 && ty != 7 && ty != 1 && ty != 3
  | .atom _ _ _ dc _ _ scope ty op =>
    decide (dc.toNat < 6) && scopeOk scope && decide (ty.toNat < 5) && decide (op.toNat < 8) &&
    !(ty == 4 && (op == 3 || op == 4 || op == 5))
  | .fence _ dc scope => decide (dc.toNat < 6) && scopeOk scope
  | .xcopyIn _ _ _ dc _ _ _ scope => decide (dc.toNat < 6) && scopeOk scope
  | .xcopyOut _ d _ dc _ _ scope t2 =>
    decide (dc.toNat < 6) && scopeOk scope && decide (t2.toNat < 24) &&
    (match d with | .s n => n.val != t2.toNat | _ => true)
  | .xmcast _ _ _ dc _ _ _ scope _ => decide (dc.toNat < 6) && scopeOk scope
  | .fread _ _ _ dc _ _ scope => decide (dc.toNat < 6) && scopeOk scope
  | .fwrite _ d _ dc _ t2 =>
    decide (dc.toNat < 6) && decide (t2.toNat < 24) && (match d with | .s n => n.val != t2.toNat | _ => true)
  | .take _ _ _ _ c n => decide (c.toNat + n.toNat + 1 ≤ 128)
  | i => match i.dcField with | some dc => decide (dc.toNat < 6) | none => true

/-! ### Operand legality (causes 0x10 to 0x13) -/

/-- What the check of an operand needs: the stream's kind, the ray's allotment, the instruction's position. -/
structure OpEnv where
  seq : Bool
  allot : Nat
  pos : Nat
  deriving DecidableEq, Repr

/-- The causes an operand of a ray's instruction raises (R16, R17, R27, R96). D of STH and FEED, the first of a run of vector registers
(R181, R211), is refused where it is no vector register. (DESIGN CHOICE, log entry 127) -/
def OpUse.causesRay (e : OpEnv) (u : OpUse) : List Nat :=
  match u.role, u.op with
  | .src w, .v n | .dst w, .v n =>
    (if e.allot ≤ n.val + b2n (w && n.val % 2 == 0) then [0x12] else []) ++ (if w && n.val % 2 == 1 then [0x13] else [])
  | .group _, .v n => (if e.allot ≤ n.val + (if n.val % 4 = 0 then 3 else 0) then [0x12] else []) ++ (if n.val % 4 != 0 then [0x13] else [])
  | .run k, .v n => if e.allot < n.val + k then [0x12] else []
  | .first, .v n => if e.allot ≤ n.val then [0x12] else []
  | .scalar top, .s n => if top < n.val then [0x10] else []
  | .src _, .l j => if e.pos ≤ j.val + 1 then [0x11] else []
  | .group true, .l j => if e.pos ≤ j.val + 1 then [0x11] else []
  | .src _, .nul => [0x10]
  | .src _, _ => []
  | .dst _, .s _ | .dst _, .nul => []
  | .group false, .nul | .run _, .nul => []
  | .group true, .zero | .group true, .lit _ | .group true, .lane => []
  | _, _ => [0x10]

/-- The causes an operand of a stream's instruction raises (R108). -/
def OpUse.causesSeq (e : OpEnv) (u : OpUse) : List Nat :=
  match u.role, u.op with
  | .src _, .v n | .dst _, .v n => if 32 ≤ n.val then [0x10] else []
  | .src _, .l j => if e.pos ≤ j.val + 1 then [0x11] else []
  | .src _, .zero | .src _, .lit _ => []
  | .dst _, .nul => []
  | _, _ => [0x10]

/-- The operand causes of an instruction. (DEDUCED, log entry 12) -/
def Instr.operandCauses (e : OpEnv) (i : Instr) : List Nat :=
  i.uses.flatMap (fun u => if e.seq then u.causesSeq e else u.causesRay e)

end Sys2Proof
end

