-- ==== Sys2Proof/Machine/Data.lean ====
section
/-!
DEFINITION. The data structures of the state: maps from numbers as lists sorted by key, one value for each of the
32 lanes as a list, and memory as a list of (address, byte) cells in ONE canonical form.
-/
namespace Sys2Proof.Machine

/-- A map from numbers: entries sorted by key, each key once. -/
abbrev SMap (α : Type) := List (Nat × α)

/-- The value at a key, if there is one. -/
def SMap.get? {α : Type} : SMap α → Nat → Option α
  | [], _ => none
  | (k, v) :: t, n => if k = n then some v else SMap.get? t n

/-- The value at a key, d where there is none. -/
def SMap.get {α : Type} (m : SMap α) (d : α) (n : Nat) : α := (SMap.get? m n).getD d

/-- Sets the value at a key. -/
def SMap.put {α : Type} : SMap α → Nat → α → SMap α
  | [], n, x => [(n, x)]
  | (k, v) :: t, n, x =>
    if n < k then (n, x) :: (k, v) :: t
    else if n = k then (n, x) :: t
    else (k, v) :: SMap.put t n x

/-- Removes a key. -/
def SMap.del {α : Type} : SMap α → Nat → SMap α
  | [], _ => []
  | (k, v) :: t, n => if k = n then SMap.del t n else (k, v) :: SMap.del t n

/-- Changes the value at a key, if there is one. -/
def SMap.upd {α : Type} (m : SMap α) (n : Nat) (f : α → α) : SMap α :=
  match SMap.get? m n with
  | some v => SMap.put m n (f v)
  | none => m

/-- Changes every value. -/
def SMap.mapVals {α β : Type} (f : Nat → α → β) (m : SMap α) : SMap β := m.map fun (k, v) => (k, f k v)

/-- Whether a key is present. -/
def SMap.has {α : Type} (m : SMap α) (n : Nat) : Bool := (SMap.get? m n).isSome

/-- The least number of range (start, start + count) that is no key. -/
def SMap.firstFree {α : Type} (m : SMap α) (count : Nat) : Option Nat :=
  (List.range count).find? fun i => !SMap.has m i

/-! ### Lane values -/

/-- The value of a lane in a list of lane values. -/
def laneGet {α : Type} (l : List α) (d : α) (i : Nat) : α := l.getD i d

/-- One value per lane, from a rule. -/
def laneTab {α : Type} (f : Nat → α) : List α := (List.range 32).map f

/-- A mask from a rule. -/
def maskOf (f : Nat → Bool) : Mask :=
  BitVec.ofNat 32 ((List.range 32).foldl (fun n i => if f i then n + 2 ^ i else n) 0)

/-- The lanes of a mask in ascending order. -/
def lanesOf (m : Mask) : List Nat := (List.range 32).filter fun i => bit m i

/-- The lowest lane of a mask. -/
def lowest (m : Mask) : Option Nat := (List.range 32).find? fun i => bit m i

/-- Number of lanes in a mask. -/
def maskCount (m : Mask) : Nat := (lanesOf m).length

/-- The value at position n of a list changed. -/
def setAt {α : Type} : List α → Nat → α → List α
  | [], _, _ => []
  | _ :: t, 0, x => x :: t
  | h :: t, n + 1, x => h :: setAt t n x

/-! ### Memory -/

/-- Memory bytes: addresses strictly rising, no entry equal to the 0 that an unlisted address reads as.
(DESIGN CHOICE, log entry 5) -/
abbrev Mem := List (Nat × Byte)

/-- One byte of memory; an unlisted byte reads 0. (DESIGN CHOICE, log entry 5) -/
def Mem.read : Mem → Nat → Byte
  | [], _ => 0
  | (k, v) :: t, a => if k = a then v else Mem.read t a

/-- Writes one byte, keeping the canonical form: a byte written as 0 is not listed. -/
def Mem.write : Mem → Nat → Byte → Mem
  | [], a, b => if b = 0 then [] else [(a, b)]
  | (k, v) :: t, a, b =>
    if a < k then (if b = 0 then (k, v) :: t else (a, b) :: (k, v) :: t)
    else if a = k then (if b = 0 then t else (a, b) :: t)
    else (k, v) :: Mem.write t a b

/-- Whether every address of the memory is above n and the form holds. -/
def Mem.wfFrom : Mem → Nat → Bool
  | [], _ => true
  | (k, v) :: t, n => decide (n ≤ k) && decide (v ≠ 0) && Mem.wfFrom t (k + 1)

/-- The canonical form of a memory: addresses strictly rising, no byte 0 listed. -/
def Mem.wf (m : Mem) : Bool := Mem.wfFrom m 0

/-- n bytes from an address, the lowest address first. -/
def Mem.readBytes (m : Mem) (a n : Nat) : List Byte := (List.range n).map fun i => Mem.read m (a + i)

/-- Writes bytes from an address up. -/
def Mem.writeBytes (m : Mem) (a : Nat) : List Byte → Mem
  | [] => m
  | b :: t => Mem.writeBytes (Mem.write m a b) (a + 1) t

/-- Drops a range of bytes, so that it reads 0. -/
def Mem.zeroRange (m : Mem) (a n : Nat) : Mem := m.filter fun (k, _) => k < a || a + n ≤ k

/-- The number a list of bytes holds, little-endian (R6). -/
def leNat : List Byte → Nat
  | [] => 0
  | b :: t => b.toNat + 256 * leNat t

/-- The n low bytes of a number, little-endian (R6). -/
def leBytes : Nat → Nat → List Byte
  | 0, _ => []
  | n + 1, v => BitVec.ofNat 8 v :: leBytes n (v / 256)

/-- n bytes at an address as a number (R6). -/
def Mem.readN (m : Mem) (a n : Nat) : Nat := leNat (Mem.readBytes m a n)

/-- Bits [hi:lo] of a number (R5). -/
def nbits (x hi lo : Nat) : Nat := x / 2 ^ lo % 2 ^ (hi + 1 - lo)

end Sys2Proof.Machine
end

