-- ==== Sys2Proof/Machine/State.lean ====
section
/-!
DEFINITION. The state of the FX7 as plain data: everything the spec gives the machine, and the model's own fields
(turn, cur, inputs, tick), and the state right after module reset. INVENTORY.md lists each piece with its rule.
-/
namespace Sys2Proof.Machine

/-! ### Threads: the registers that instructions reach (R13, R214) -/

/-- One bypass latch: 64 bits and a mark per lane (R26). -/
structure Latch where
  vals : List DWord
  mark : Mask
  deriving DecidableEq, Repr

/-- The decoded clause a ray or stream holds until it leaves it (R88, R89, R92). -/
structure Clause where
  /-- offset of the header -/
  hdr : Nat
  word : Word
  /-- the COUNT slots -/
  slots : List Word
  /-- index of the next slot to run, from 0 -/
  next : Nat
  /-- instruction position of the next instruction, from 1 (R27) -/
  pos : Nat
  entering : Mask
  /-- writes to threshold registers that take effect as the clause ends (R31) -/
  hset : SMap Word
  deriving DecidableEq, Repr

/-- Whose registers a thread holds. -/
inductive ThreadKind where
  | ray | stream
  deriving DecidableEq, Repr

/-- The registers of a ray (R13) or of a sequencer stream (R214), which acts as a ray of one lane (R112). -/
structure Thread where
  kind : ThreadKind
  /-- v0 to v95: a list of lane words per register; an unlisted register holds 0 -/
  v : SMap (List Word)
  /-- coefficient marks, one mask per vector register (R18) -/
  marks : SMap Mask
  /-- s0 to s23 -/
  s : SMap DWord
  /-- m0 to m31 of a stream -/
  m : SMap DWord
  /-- p0 to p6, one mask each -/
  p : SMap Mask
  vpc : List Word
  live : Mask
  flags : List (BitVec 6)
  fmode : Word
  /-- l1 first -/
  latches : List Latch
  /-- return entries: entry e, one word per lane -/
  ret : SMap (List Word)
  /-- call level of each lane (R132) -/
  level : List Nat
  /-- the call depth: D of the header, 16 in a stream -/
  depth : Nat
  /-- the vector allotment A (R17) -/
  allot : Nat
  retired : DWord
  clause : Option Clause
  /-- bytes of code from the code base (R22, R311) -/
  span : Nat
  deriving DecidableEq, Repr

/-! ### Rays -/

/-- Why a ray is parked (R379, R258, R382, R383, R385). -/
inductive ParkReason where
  | clauseTrap | runTrap | svcall | storeFault | writeBack | loupe | request
  deriving DecidableEq, Repr

/-- What a begun slot waits for (R248). -/
inductive Stall where
  /-- a pending token that is read or written (R20) -/
  | token (r : Nat)
  /-- WAITC.W (R200) -/
  | waitc
  /-- DRAINNT or DRAINST (R176, R177) -/
  | drain
  /-- the copy engine's room (R282) -/
  | copyRoom
  /-- a translation under way (R172, R273) -/
  | walk
  /-- an LNSEND's status (R365) -/
  | lnsend
  /-- all 16 store-fault record slots held (R381) -/
  | recordSlots
  /-- an LNSEND's answer has come -/
  | answered (status : Nat)
  deriving DecidableEq, Repr

/-- The lantern save registers (R367, R373). -/
structure LanternSave where
  vpc : List Word
  p : SMap Mask
  live : Mask
  level : List Nat
  inHandler : Bool
  vector : Nat
  deriving DecidableEq, Repr

/-- A reservation: a granule of 64 bytes of scratchpad or of physical memory (R184). -/
structure Granule where
  scratch : Bool
  host : Bool
  number : Nat
  deriving DecidableEq, Repr

/-- What the ray waits for at a boundary, as the loupe counts waits (R256). -/
inductive WaitKind where
  | barrier (b : Nat) | calendar | fifo | join
  deriving DecidableEq, Repr

/-- A wait as the loupe counts it (R256): what for, its clocks up to a clock at which it was last counted. -/
structure WaitCount where
  kind : WaitKind
  count : Nat
  seen : Nat
  deriving DecidableEq, Repr

/-- A store of a ray that has failed its check and is not yet reported (R381, R382): its operation, the record slot it has taken,
and its record. -/
structure StoreDue where
  op : Nat
  slot : Option Nat
  record : BitVec 256
  deriving DecidableEq, Repr

/-- A resident ray. -/
structure Ray where
  th : Thread
  /-- launch and position of its beam -/
  l : Nat
  pos : Nat
  rayId : Nat
  role : Nat
  pipe : Nat
  releaseClock : Nat
  /-- dc0 to dc5 (R24) -/
  dc : List Nat
  /-- tokens that are pending (R20) -/
  pend : List Nat
  /-- logical lane at each physical position (R245) -/
  laneMap : List Nat
  parked : Option ParkReason
  parkReq : Bool
  /-- the boundary checks a resume makes because RAYWIN wrote the ray, and the lanes whose vpc it wrote (R386) -/
  rewritten : Bool
  vpcWritten : Mask
  /-- store failures known and not yet reported, the oldest first (R382) -/
  dueStore : List StoreDue
  /-- parked for store failures, with the event still to be queued once each of them holds a slot (R381) -/
  awaiting : Bool
  /-- record slots of write-back failures not yet reported (R383) -/
  dueWb : List (Nat × BitVec 256)
  /-- the recorded barrier arrival: barrier and phase (R201) -/
  arrival : Option (Nat × Nat)
  phase : DWord
  /-- an ADV has run and its next clause has not begun (R204) -/
  adv : Bool
  bankSel : Nat
  resv : List (Option Granule)
  /-- the virtual granule of each lane's last LDRES, by which a STCON that cannot translate is judged (R184) -/
  resvVa : List Nat
  /-- the clock at which the present slot ends at the earliest (R245) -/
  slotEnd : Nat
  stall : Option Stall
  /-- pages whose translation the supervisor core answered as unresolvable, for the slot that waits (R388) -/
  unresolved : List Nat
  frontier : Nat
  lastEntered : Mask
  /-- the wait the loupe counts (R256) -/
  waiting : Option WaitCount
  readySince : Option Nat
  /-- taken at the next choice, ahead of older rays (R249) -/
  starved : Bool
  /-- rays that issue before this one again, and the clock of the YIELD (R135) -/
  yieldTo : List Nat
  yieldAt : Nat
  lantern : LanternSave
  deriving DecidableEq, Repr

/-! ### In-flight operations (R162, R167, R358) -/

/-- Where a lane's bytes are: scratchpad of the cluster, a FIFO bank, or physical memory with its page's bits. -/
inductive Place where
  | scratch (ofs : Nat)
  | fifo (bank : Nat)
  | phys (host : Bool) (addr : Nat) (nc : Bool)
  /-- a store lane whose translation failed with a cause (R173) -/
  | bad (cause : Nat)
  | off
  deriving DecidableEq, Repr

/-- The layout record and descriptor of a copy, or the page of FREAD and FWRITE (R193 to R199). -/
inductive CopyKind where
  | xin | xout | mcast (clusters : Nat) (bar : Nat) | fread | fwrite
  deriving DecidableEq, Repr

/-- A layout record as read (R193). -/
structure Layout where
  base : Nat
  elem : Nat
  ndim : Nat
  wrap : List Nat
  clip : List Nat
  stride : List Int
  fill : Nat
  deriving DecidableEq, Repr

/-- A copy as it stands (R191 to R199, R282). -/
structure Copy where
  kind : CopyKind
  tok : Nat
  tok2 : Option Nat
  record : DWord
  tile : DWord
  desc : List DWord
  scope : Nat
  acq : Bool
  rel : Bool
  accepted : Bool
  lay : Option Layout
  nch : Nat
  /-- chunks read and not yet written on, or the whole flash page -/
  buf : SMap (List Byte)
  /-- the error of a multicast that still serves other clusters (R198) -/
  err : Nat
  /-- the beams that a multicast serves: launch and position (R198) -/
  recv : List (Nat × Nat)
  /-- chunks done for each token -/
  done1 : List Nat
  done2 : List Nat
  ended1 : Bool
  ended2 : Bool
  deriving DecidableEq, Repr

/-- What an operation does when it completes. -/
inductive OpKind where
  /-- no lane was active (R24) -/
  | empty
  | load (ro : Bool) (ty cp : Nat)
  | store (nt : Bool) (ty cp : Nat)
  /-- with FZ32 of the ray's %fmode as it issued (R39) -/
  | atom (scope ty op : Nat) (fz : Bool)
  | ldres (w : Bool)
  | stcon (w : Bool)
  | acq
  | rel
  | fence (scope : Nat)
  | ldt (coef : Bool) (tileRef : DWord)
  | sth (head : List Byte) (data : List Byte)
  | copy (c : Copy)
  | feed (tag planes : Nat)
  | arrive
  | bwait (target : Nat)
  | spawn (packets : List (List Byte)) (status : List Nat)
  | fork
  | join
  deriving DecidableEq, Repr

/-- An operation a ray has issued, with the sources captured at issue (R167, R358). -/
structure Op where
  id : Nat
  rslot : Nat
  l : Nat
  pos : Nat
  rayId : Nat
  ctx : Nat
  pc : Nat
  /-- %retired when its slot ran, for the skid of R382 -/
  issuedAt : Nat
  words : List Word
  dc : Option Nat
  d : Opnd
  act : Mask
  ea : List DWord
  place : List Place
  data : List (BitVec 128)
  kind : OpKind
  /-- accepted by a bank, cache or home (R358) -/
  accepted : Bool
  /-- the write-permission check has been made (R171) -/
  checked : Bool
  /-- lanes that failed it, and the record slot taken (R381) -/
  failed : Mask
  recSlot : Option Nat
  /-- complete: its counter may be decremented (R24) -/
  done : Bool
  /-- decremented -/
  counted : Bool
  /-- nothing left to do -/
  isOver : Bool
  /-- the lanes that have been read, written or applied already, and an atomic's old values (R174, R286) -/
  served : Mask
  olds : List Nat
  deriving DecidableEq, Repr

/-! ### Caches (R276 to R281) -/

/-- The tag of the last store that wrote bytes of a sector (R383). -/
structure StoreTag where
  ctx : Nat
  core : Nat
  rslot : Nat
  l : Nat
  pos : Nat
  rayId : Nat
  role : Nat
  pc : Nat
  /-- a virtual address that the store wrote in the sector, by which its page is found (R189) -/
  va : Nat
  deriving DecidableEq, Repr

/-- A cache: its bytes by physical byte address, each with its written mark, the tags of its dirty sectors, and
its lines, the most recently used first. -/
structure Cache where
  bytes : SMap (Byte × Bool)
  tags : SMap StoreTag
  lines : List Nat
  deriving DecidableEq, Repr

/-- A TLB entry (R273): context, virtual page base and size, physical base and leaf bits. -/
structure TlbEntry where
  ctx : Nat
  va : Nat
  size : Nat
  pa : Nat
  nc : Bool
  host : Bool
  w : Bool
  deriving DecidableEq, Repr

/-- A miss that waits for a walker (R273). -/
structure WalkReq where
  core : Nat
  rslot : Nat
  ctx : Nat
  va : Nat
  write : Bool
  deriving DecidableEq, Repr

/-! ### Cores -/

/-- A core. -/
structure Core where
  /-- resident rays by RSLOT -/
  rays : SMap Ray
  /-- the ray whose clause holds each quarter pipe (R248) -/
  pipes : SMap Nat
  /-- operations in issue order -/
  ops : List Op
  nextOp : Nat
  l1 : Cache
  /-- copies of the read-only path (R175) -/
  ro : SMap Byte
  tlb : List TlbEntry
  events : List (BitVec 256)
  /-- events whose source has one undelivered (R380) -/
  late : List (BitVec 256)
  /-- store-fault record slots held (R381) -/
  recs : SMap (BitVec 256)
  /-- write-backs that wait for a record slot: record and tag (R381, R383) -/
  wbWait : List (BitVec 256 × StoreTag)
  refused : Bool
  selected : Option Nat
  /-- the translation fault outstanding (R388) -/
  xfault : Option WalkReq
  /-- pipe-clocks charged to each context (R350) -/
  charge : SMap Nat
  freeRegs : Nat
  deriving DecidableEq, Repr

/-! ### Clusters -/

/-- Bank modes (R262). -/
inductive BankMode where
  | cache | scratch | fifo
  deriving DecidableEq, Repr

/-- A bank of cluster SRAM (R262, R264, R269). -/
structure Bank where
  mode : BankMode
  owner : Option Nat
  win : Bool
  sw : Bool
  head : Nat
  tail : Nat
  count : Nat
  deriving DecidableEq, Repr

/-- A switch under way (R265, R266, R268): the token of a ray, or the dispatcher. -/
structure Switch where
  core : Nat
  rslot : Nat
  l : Nat
  pos : Nat
  tok : Option Nat
  mode : BankMode
  ctx : Option Nat
  win : Bool
  banks : List Nat
  deriving DecidableEq, Repr

/-- An accumulator tile (R219). -/
structure Tile where
  /-- element (m, n) at 128 m + n; an unlisted element is +0 -/
  elems : SMap Word
  tag : Byte
  empty : Bool
  owner : Option Nat
  deriving DecidableEq, Repr

/-- A fork in the cluster's queue (R208). -/
structure Fork where
  core : Nat
  rslot : Nat
  l : Nat
  pos : Nat
  ctx : Nat
  rayId : Nat
  role : Nat
  op : Nat
  arg : DWord
  obj : DWord
  entry : Word
  deriving DecidableEq, Repr

/-- An operand descriptor (R222). -/
structure Desc where
  lo : DWord
  hi : DWord
  deriving DecidableEq, Repr

/-- A queued tile command with what it captured at issue (R220). -/
inductive TileOp where
  | mma (z : Bool) (t : Nat) (da db : Desc) (oa ob : Nat)
  | mzero (t : Nat)
  | mhaar (t h : Nat) (tag : Byte) (fmt : Nat) (thr : Word)
  | mihaarTile (t : Nat)
  | mihaar (src dst : Nat)
  | mthrTile (h : Nat) (hs : List Word)
  | msig (addr : DWord)
  deriving DecidableEq, Repr

structure TileCmd where
  op : TileOp
  pc : Nat
  acq : Bool
  rel : Bool
  deriving DecidableEq, Repr

/-- Where a stream stands. -/
inductive StreamState where
  | running
  /-- an MWAIT waits: flag offset, value, whether for equality (R233) -/
  | mwait (f : Nat) (v : DWord) (eq : Bool)
  /-- a full command queue stalls it (R220) -/
  | ended
  deriving DecidableEq, Repr

/-- The running stream (R214). -/
structure Stream where
  th : Thread
  fork : Fork
  state : StreamState
  /-- descriptor slots written since stream begin -/
  desc : SMap Desc
  /-- the STATUS to write once it is over (R218) -/
  status : Nat
  /-- offset of the failing instruction -/
  failPc : Nat
  deriving DecidableEq, Repr

/-- A carved window of cluster SRAM (R261). -/
structure Window where
  ofs : Nat
  size : Nat
  l : Nat
  pos : Nat
  /-- a gang's reservation, not yet carved (R329) -/
  reserved : Bool
  deriving DecidableEq, Repr

/-- A cluster. -/
structure Cluster where
  /-- banks 0 to 63; an unlisted bank is in CACHE mode without owner -/
  banks : SMap Bank
  /-- scratchpad bytes by offset -/
  sram : Mem
  /-- granule tag bytes (R212) by granule number -/
  gtags : SMap Byte
  cache : Cache
  tiles : SMap Tile
  forks : List Fork
  /-- places of the fork queue taken by clauses that have begun (R209): core and ray of each -/
  places : List (Nat × Nat)
  stream : Option Stream
  cmds : List TileCmd
  seqFault : DWord
  switches : List Switch
  windows : List Window
  deriving DecidableEq, Repr

/-! ### Beams, entries and launches -/

/-- A barrier (R201). -/
structure Bar where
  e : Nat
  count : Nat
  phase : Nat
  deriving DecidableEq, Repr

/-- What the scheduler has decided for a beam (R352). -/
inductive Choice where
  | drain (since : Nat) | save (r335 : Bool) | flush
  deriving DecidableEq, Repr

/-- A resident beam. -/
structure Beam where
  ctx : Nat
  core : Nat
  cluster : Nat
  /-- resident slots in %rayid order -/
  rays : List Nat
  h : List Word
  /-- for a threshold register: the clock of its last write and the writer's rank, which decides between writes of one clock (R31) -/
  hAt : SMap (Nat × Nat)
  bars : List Bar
  /-- the clock of the last arrival at a barrier and its rank in the order within a clock (R250) -/
  arrAt : Nat × Nat
  allow : Nat
  gangPos : Nat
  winOfs : Nat
  winSize : Nat
  pageIdx : Nat
  retry : Nat
  codeBase : Nat
  /-- streams forked and not ended -/
  streams : Nat
  choice : Option Choice
  /-- the trigger that the decision was taken for (R351, R356) -/
  cause : Option Trigger
  /-- terminated by a fault: 2, aborted: 3 (R387) -/
  result : Nat
  /-- the whole beam has been terminated: it only completes (R387) -/
  halted : Bool
  deriving DecidableEq, Repr

/-- A saved beam: the contents of its save record (R357) as data. -/
structure Saved where
  beam : Beam
  rays : List Ray
  /-- the operations under way, in issue order: the replay entries and those that complete into the record (R358) -/
  ops : List Op
  replay : List Op
  window : List Byte
  /-- the window's tag bytes (R212), kept with its image -/
  gtags : SMap Byte
  trigger : Trigger
  /-- the BWAITs that rays waited on as it was saved (R335) -/
  awaits : List Nat
  /-- the clock at which it became eligible to resume (R347, R356) -/
  eligible : Option Nat
  /-- BWAITs that completed into the record (R335, R359): by resident slot, the awaited position and the result -/
  bwaits : SMap (Nat × Nat)
  /-- made eligible by a lantern (R371) -/
  urgent : Bool
  /-- base of its room in the save area (R355) -/
  room : Nat
  deriving DecidableEq, Repr

/-- Pipeline states (R317). -/
inductive EntryState where
  | taken | translate | sense (k : Nat) | decode (k : Nat) | fetch | decompress
  | transform (i : Nat) | window | landing | landed | running | saved | final
  deriving DecidableEq, Repr

/-- A page list entry under way. -/
structure Entry where
  raw : DWord
  state : EntryState
  channel : Nat
  phys : Nat
  retry : Nat
  /-- channel or prologue buffer -/
  data : List Byte
  /-- holds a channel slot, a prologue buffer of a die -/
  slot : Option Nat
  buffer : Option Nat
  cluster : Nat
  winOfs : Nat
  winSize : Nat
  order : Nat
  /-- the clock at which it LANDED (R331, R347) -/
  landedAt : Nat
  result : Nat
  cause : Nat
  core : Nat
  /-- BWAITs answered from it (R334) -/
  finalClock : Nat
  /-- die where the beam first ran (R356) -/
  die : Nat
  room : Option Nat
  /-- the slots that its beam's rays had retired as the beam completed (R352) -/
  retired : Nat
  deriving DecidableEq, Repr

/-- The kernel header (R311), and each selector's step words (R313). -/
structure RoleRec where
  entry : Nat
  rays : Nat
  vregs : Nat
  deriving DecidableEq, Repr

structure Header where
  roles : List RoleRec
  depth : Nat
  idem : Bool
  gang : Nat
  mode : Word
  expect : Nat
  codeOfs : Nat
  codeSize : Nat
  nsel : Nat
  bindings : List (List DWord)
  deriving DecidableEq, Repr

/-- A valid region binding (R293). -/
structure Region where
  base : Nat
  size : Nat
  obj : Nat
  scope : Nat
  deriving DecidableEq, Repr

/-- A launch: its packet and auxiliary record (R339, R340), and what it has read. -/
structure Launch where
  ctx : Nat
  queue : Nat
  b : Bool
  child : Bool
  takenAt : Nat
  pri : Nat
  begun : Bool
  /-- ended: status CODE written -/
  isOver : Bool
  serial : Nat
  kernel : Nat
  params : DWord
  plist : Nat
  nent : Nat
  compl : Nat
  signal : Nat
  hsrc : Bool
  aux : Nat
  bad : Bool
  pmap : Nat
  thrb : Nat
  report : Nat
  srcBase : Nat
  status : Nat
  header : Header
  regions : List Region
  nextPos : Nat
  entries : SMap Entry
  /-- the launches merged with it (R349) -/
  merge : List Nat
  /-- clusters and cores that have dropped clean copies (R300) -/
  acquired : List Nat
  coresUsed : List Nat
  deriving DecidableEq, Repr

/-! ### Contexts and queues -/

/-- A lantern vector's count and payload (R364). -/
structure Vec where
  count : Nat
  payload : DWord
  /-- a send came whose entry has WAKE set (R371) -/
  wake : Bool
  deriving DecidableEq, Repr

/-- A context (R336) with its lantern state (R363) and marks. -/
structure Ctx where
  fn : Nat
  flCount : Nat
  flBase : Nat
  saveSize : Nat
  save : Nat
  lntab : Nat
  rbt : Nat
  rbtn : Nat
  waitLim : Nat
  frontLim : Nat
  slice : Nat
  maxPri : Nat
  dq : Option Nat
  root : Nat
  faulted : Bool
  /-- its interface has lost trust: nothing more is written to host memory for it (R401) -/
  cut : Bool
  suspended : Bool
  serials : Nat
  lnmask : DWord
  /-- the last write of %lnmask: clock, %coreid and %rayid (R139) -/
  maskAt : Nat × Nat × Nat
  lnpend : DWord
  vecs : SMap Vec
  /-- rooms of the save area in use: base and size (R355) -/
  rooms : List (Nat × Nat)
  deriving DecidableEq, Repr

/-- A taken barrier packet: its 64 bytes, and the values its present evaluation has read so far, SIG0 first (R343). -/
structure BarrierPkt where
  bytes : List Byte
  reads : List Nat
  deriving DecidableEq, Repr

/-- A queue (R337). -/
structure Queue where
  addr : Nat
  base : Nat
  log2n : Nat
  pri : Nat
  dev : Bool
  ctx : Nat
  wr : Nat
  rd : Nat
  halt : Bool
  vector : Nat
  destroyed : Bool
  /-- publications of WR with their clocks, the oldest first (R346) -/
  published : List (Nat × Nat)
  /-- the header of packet RD as last read; TYPE 0x00 where none is written (R338) -/
  header : DWord
  /-- taken barrier packets under evaluation, oldest first (R343) -/
  barriers : List BarrierPkt
  /-- a packet with B = 1 has not completed (R345) -/
  blocked : Bool
  deriving DecidableEq, Repr

/-- Who sends a lantern (R362). -/
inductive Sender where
  | host (fn slot : Nat) | peer (module : Nat) | ray (ctx core rslot : Nat)
  deriving DecidableEq, Repr

/-- A lantern on its way to its unit (R364). -/
structure LnSend where
  sender : Sender
  desc : DWord
  payload : DWord
  deriving DecidableEq, Repr

/-- An arrival on its way to a barrier: the address, and the operation that made it (R202, R232, R198). -/
structure Arrival where
  addr : DWord
  /-- local arrivals of a multicast name the beam itself -/
  target : Option (Nat × Nat)
  op : Option (Nat × Nat)
  /-- the cluster whose MSIG made it -/
  msig : Option Nat
  deriving DecidableEq, Repr

/-! ### The host side and the module -/

/-- TDISP states (R400). -/
inductive Tdisp where
  | unlocked | locked | run | error
  deriving DecidableEq, Repr

/-- One function's interface (R395 to R399). -/
structure Fn where
  /-- BUSY of CMDSTAT -/
  busy : Bool
  status : Nat
  cmdAddr : Nat
  /-- DESTROY_CTX or DESTROY_QUEUE under way (R398): its code and the context or queue -/
  doing : Option (Nat × Nat)
  /-- lantern slots: payload, status of the last send (R396, R397) -/
  slots : SMap (DWord × Nat)
  /-- MSI-X vectors that the host has masked, those pending behind their mask, and the messages sent (R399) -/
  masked : List Nat
  pending : List Nat
  raised : List Nat
  /-- the last measurement answered: its index and block (R400) -/
  measured : Option (Nat × List Byte)
  tdisp : Tdisp
  session : Bool
  everLocked : Bool
  deriving DecidableEq, Repr

/-- Boot state (R396, R410). -/
inductive BootState where
  | rom | trial | confirmed | recovery | failed
  deriving DecidableEq, Repr

/-- A slot image: its bytes' security version and acceptance (R406). -/
structure Image where
  svn : Nat
  kind : Nat
  bytes : List Byte
  deriving DecidableEq, Repr

/-- A flash page as written: physical place and contents (R403). -/
structure FlashPage where
  data : List Byte
  deriving DecidableEq, Repr

/-- The signed records of configuration in module flash (R412): the maker's, then those under the seed's MAC. -/
inductive CfgRecord where
  | sramMap | hbmMap | badBlocks | retryTable | helper | certChain | ownerKey | svn | bootRecord | rangeKeys
  deriving DecidableEq, Repr

/-- The module's own records (R403 to R416). -/
structure Module where
  boot : BootState
  /-- running slot: 0 A, 1 B, 2 shared -/
  slot : Nat
  slots : SMap Image
  /-- the image that runs, as it was accepted: empty where none does (R407, R411) -/
  image : List Byte
  /-- the patch RAM: addresses and replacement words of the control store, and its lock (R405) -/
  patch : List (BitVec 12 × Nat)
  patchLocked : Bool
  /-- the boot record: confirmed slot, trial slot, or the address of a shared image (R410, R411) -/
  confirmedSlot : Option Nat
  trialSlot : Option Nat
  shared : Bool
  sharedAddr : Nat
  sharedFails : Nat
  /-- the clock of a shared boot's retry (R411) -/
  retryAt : Option Nat
  watchdogAt : Option Nat
  /-- configuration records that are missing or fail their check (R412) -/
  absent : List CfgRecord
  svn : Nat
  ownerKey : Option (List Byte)
  nonce : Option (List Byte)
  log : List (BitVec 192)
  seq : Nat
  cap : Nat
  throttled : Bool
  tripped : Bool
  linksDown : List Nat
  /-- the flit that a link last failed to deliver, and how often it has failed (R415) -/
  linkTries : SMap (Nat × Nat)
  /-- flash pages by page index; an unlisted page was never written -/
  flash : SMap FlashPage
  /-- key generation of each assigned range: first, count -/
  ranges : List (Nat × Nat)
  uncorr : Nat
  retried : Nat
  /-- spare blocks used up and blocks retired since manufacture (R404) -/
  spareUsed : Nat
  retiredBlocks : Nat
  /-- by how much the largest and the mean program-erase count have risen since manufacture's figures (R404) -/
  peMax : Nat
  peMean : Nat
  /-- steps of the retry table (R318) -/
  retrySteps : Nat
  flushLo : Nat
  drainHi : Nat
  drainMax : Nat
  seedOk : Bool
  deriving DecidableEq, Repr

/-- Who executes an instruction row. -/
inductive Actor where
  | none
  | ray (core rslot : Nat)
  | stream (cluster : Nat)
  deriving DecidableEq, Repr

/-- The machine. -/
structure State where
  /-- MODEL'S OWN: what moves next, if it has been chosen -/
  turn : Option Turn
  /-- MODEL'S OWN: who executes the instruction row -/
  cur : Actor
  /-- MODEL'S OWN: events of outside agents still to come, the next first -/
  inputs : List Instr
  /-- MODEL'S OWN: the counter the free values are applied to -/
  tick : Nat
  /-- %clock: arithmetic clocks since module reset (R32) -/
  clock : Nat
  cores : SMap Core
  clusters : SMap Cluster
  /-- L2 of each die -/
  l2 : SMap Cache
  /-- misses waiting for the walkers of each die (R273) -/
  walks : SMap (List WalkReq)
  hbm : Mem
  host : Mem
  beams : SMap Beam
  saved : SMap Saved
  launches : SMap Launch
  nextLaunch : Nat
  ctxs : SMap Ctx
  queues : SMap Queue
  fns : SMap Fn
  module : Module
  lnsends : List LnSend
  arrivals : List Arrival
  /-- order in which entries reached LANDED (R331) -/
  landings : Nat
  /-- words whose data is poisoned (R413): 32-byte words of HBM as (0, word), 8-byte words of cluster c's SRAM as (c + 1, word), and
  accumulator tile t of cluster c as (c + 145, t) -/
  poison : List (Nat × Nat)
  deriving DecidableEq, Repr

/-- Why the machine stops for good. -/
inductive Fault where
  /-- An access reached a physical HBM address at or above 384 GiB, which R281 says does not exist; raised by
  memory operations through a page table that maps such an address. Safe: the model stops where no behaviour is given. -/
  | noSuchPhysical
  /-- An instruction row was executed with no ray and no stream executing; no step does that, only a direct call of exec. Safe. -/
  | noActor
  deriving DecidableEq, Repr

/-- Why an instruction has no meaning here. -/
inductive Refusal where
  /-- An instruction whose arm of exec is still rejected by name; raised by exec alone. Safe: nothing is claimed of it. -/
  | notModelled (mnemonic : String)
  deriving DecidableEq, Repr

/-- One outcome of a step. -/
abbrev Out := Host.Outcome State Fault Refusal

/-! ### Reset -/

/-- An empty cache. -/
def Cache.empty : Cache := ⟨[], [], []⟩

/-- A core at reset: no ray is resident, 4,096 registers free (R33). -/
def Core.reset : Core :=
  { rays := [], pipes := [], ops := [], nextOp := 0, l1 := Cache.empty, ro := [], tlb := [], events := [], late := [], recs := [],
    wbWait := [], refused := false, selected := none, xfault := none, charge := [], freeRegs := 4096 }

/-- A bank at reset (R32, R264). -/
def Bank.reset : Bank := ⟨.cache, none, false, false, 0, 0, 0⟩

/-- An accumulator tile at reset (R219). -/
def Tile.reset : Tile := ⟨[], 0, true, none⟩

/-- A cluster at reset. -/
def Cluster.reset : Cluster :=
  { banks := [], sram := [], gtags := [], cache := Cache.empty, tiles := [], forks := [], places := [], stream := none,
    cmds := [], seqFault := 0, switches := [], windows := [] }

/-- A function at reset (R396, R400). -/
def Fn.reset : Fn :=
  { busy := false, status := 0, cmdAddr := 0, doing := none, slots := [], masked := [], pending := [], raised := [], measured := none
    tdisp := .unlocked, session := false, everLocked := false }

/-- The module's records at reset; those in flash are a module's as delivered: unowned, slot A confirmed, holding an
image of which nothing is known. (DESIGN CHOICE, log entry 6) -/
def Module.reset : Module :=
  { boot := .rom, slot := 0, slots := [(0, ⟨0, 1, []⟩)], image := [], patch := [], patchLocked := false, confirmedSlot := some 0
    trialSlot := none, shared := false, sharedAddr := 0, sharedFails := 0, retryAt := none, watchdogAt := none, absent := [], svn := 0
    ownerKey := none, nonce := none, log := [], seq := 0, cap := 3200, throttled := false, tripped := false, linksDown := []
    linkTries := [], flash := [], ranges := [], uncorr := 0, retried := 0, spareUsed := 0, retiredBlocks := 0, peMax := 0, peMean := 0, retrySteps := 15
    flushLo := 64, drainHi := 224, drainMax := 1048576, seedOk := true }

/-- The machine right after module reset, before the boot ROM has run. What the spec gives no reset value is 0, empty or as a
module is delivered; unsafe, since a proof may lean on it. (DESIGN CHOICE, log entries 5 and 6) -/
def State.reset : State :=
  { turn := none, cur := .none, inputs := [], tick := 0, clock := 0, cores := [], clusters := [], l2 := [], walks := [],
    hbm := [], host := [], beams := [], saved := [], launches := [], nextLaunch := 0, ctxs := [], queues := [], fns := [],
    module := Module.reset, lnsends := [], arrivals := [], landings := 0, poison := [] }

end Sys2Proof.Machine
end

