-- ==== Sys2Proof/Machine/Operands.lean ====
section
/-!
DEFINITION. Every operand form: sources of 32 and 64 bits with their marks (R16, R18, R19, R26, R96, R97, R110),
guards and predicates (R21, R74), destinations and the latch an instruction leaves (R19, R26), in rays and in
streams, where m registers stand for the vector codes and behave as scalar registers (R108, R112).
-/
namespace Sys2Proof.Machine

/-! ### Sources -/

/-- A vector register's word in a lane. -/
def Thread.vreg (t : Thread) (r i : Nat) : Word := laneGet (SMap.get t.v [] r) 0 i

/-- A vector register's mark in a lane (R18). -/
def Thread.vmark (t : Thread) (r i : Nat) : Bool := bit (SMap.get t.marks 0 r) i

/-- A latch in a lane; a latch not yet pushed reads 0 (R27). -/
def Thread.latch (t : Thread) (j i : Nat) : DWord :=
  match t.latches[j]? with
  | some l => laneGet l.vals 0 i
  | none => 0

/-- A latch's mark in a lane. -/
def Thread.latchMark (t : Thread) (j i : Nat) : Bool :=
  match t.latches[j]? with
  | some l => bit l.mark i
  | none => false

/-- A 32-bit source in a lane (R19, R96, R110). -/
def Thread.rd32 (t : Thread) (o : Opnd) (i : Nat) : Word :=
  match o with
  | .v n => match t.kind with
    | .ray => t.vreg n i
    | .stream => lo32 (SMap.get t.m 0 n)
  | .s n => lo32 (SMap.get t.s 0 n)
  | .l j => lo32 (t.latch j i)
  | .zero => 0
  | .lit x => x
  | .lane => BitVec.ofNat 32 i
  | .nul => 0

/-- A 64-bit source in a lane; the literal is sign-extended when sx, zero-extended otherwise (R16, R19, R97). -/
def Thread.rd64 (t : Thread) (sx : Bool) (o : Opnd) (i : Nat) : DWord :=
  match o with
  | .v n => match t.kind with
    | .ray => pair64 (t.vreg (n + 1) i) (t.vreg n i)
    | .stream => SMap.get t.m 0 n
  | .s n => SMap.get t.s 0 n
  | .l j => t.latch j i
  | .zero => 0
  | .lit x => if sx then sext64 x else zext64 x
  | .lane => BitVec.ofNat 64 i
  | .nul => 0

/-- Whether an operand is marked in a lane; a 64-bit operand is marked if either half is (R18, R65).
(DEDUCED, log entry 76) -/
def Thread.marked (t : Thread) (w64 : Bool) (o : Opnd) (i : Nat) : Bool :=
  match o with
  | .v n => match t.kind with
    | .ray => t.vmark n i || (w64 && t.vmark (n + 1) i)
    | .stream => false
  | .l j => t.latchMark j i
  | _ => false

/-! ### Predicates and activity -/

/-- The lanes in which a predicate is 1; p7 always is (R21). -/
def Thread.pred (t : Thread) (p : Pred) : Mask := if p.val = 7 then allLanes else SMap.get t.p 0 p.val

/-- The lanes in which a guard holds (R74). -/
def Thread.guardMask (t : Thread) (g : Guard) : Mask := if g.neg then ~~~(t.pred g.p) else t.pred g.p

/-- The lanes that entered the running clause (R89). -/
def Thread.entering (t : Thread) : Mask :=
  match t.clause with
  | some c => c.entering
  | none => 0

/-- The active lanes of an instruction (R21). -/
def Thread.active (t : Thread) (g : Guard) : Mask := t.entering &&& t.live &&& t.guardMask g

/-- Writes a predicate in some lanes; a write to p7 is discarded (R21, R101). -/
def Thread.setPred (t : Thread) (p : Pred) (act val : Mask) : Thread :=
  if p.val = 7 then t
  else { t with p := SMap.put t.p p.val ((t.pred p &&& ~~~act) ||| (val &&& act)) }

/-- Writes PT and then PF with the complement (R101, R123). -/
def Thread.setPreds (t : Thread) (pt pf : Pred) (act val : Mask) : Thread :=
  (t.setPred pt act val).setPred pf act (~~~val)

/-! ### Destinations -/

/-- Writes one vector register in some lanes, value and mark (R18). -/
def Thread.setV (t : Thread) (r : Nat) (act : Mask) (val : Nat → Word) (mk : Nat → Bool) : Thread :=
  { t with
    v := SMap.put t.v r (laneTab fun i => if bit act i then val i else t.vreg r i)
    marks := SMap.put t.marks r ((SMap.get t.marks 0 r &&& ~~~act) ||| (maskOf mk &&& act)) }

/-- Writes a scalar register, unless no lane is active (R19). -/
def Thread.setS (t : Thread) (r : Nat) (act : Mask) (val : Nat → DWord) : Thread :=
  match lowest act with
  | some i => { t with s := SMap.put t.s r (val i) }
  | none => t

/-- Writes a register of a stream, unless no lane is active (R112). -/
def Thread.setM (t : Thread) (r : Nat) (act : Mask) (val : Nat → DWord) : Thread :=
  match lowest act with
  | some i => { t with m := SMap.put t.m r (val i) }
  | none => t

/-- A result narrowed to its width, zero-extended (R19). -/
def fitW (w64 : Bool) (x : DWord) : DWord := if w64 then x else zext64 (lo32 x)

/-- Writes a destination (R16, R18, R19, R96). -/
def Thread.setD (t : Thread) (d : Opnd) (w64 : Bool) (act : Mask) (val : Nat → DWord) (mk : Nat → Bool) : Thread :=
  match d with
  | .v n => match t.kind with
    | .ray =>
      if w64 then (t.setV n act (fun i => lo32 (val i)) mk).setV (n + 1) act (fun i => hi32 (val i)) mk
      else t.setV n act (fun i => lo32 (val i)) mk
    | .stream => t.setM n act (fun i => fitW w64 (val i))
  | .s n => t.setS n act (fun i => fitW w64 (val i))
  | _ => t

/-- Whether a destination is a scalar register, or an m register, which behaves as one (R19, R112). -/
def Thread.scalarD (t : Thread) (d : Opnd) : Bool :=
  match d with
  | .s _ => true
  | .v _ => match t.kind with
    | .ray => false
    | .stream => true
  | _ => false

/-- The latch an instruction that writes d leaves, read from the registers after the write (R26).
(DEDUCED, log entry 23) -/
def Thread.latchOf (t : Thread) (d : Opnd) (w64 : Bool) (act : Mask) (val : Nat → DWord) (mk : Nat → Bool) : Latch :=
  match d with
  | .nul =>
    { vals := laneTab fun i => if bit act i then fitW w64 (val i) else 0
      mark := maskOf mk &&& act }
  | _ =>
    { vals := laneTab fun i => if w64 || t.scalarD d then t.rd64 false d i else zext64 (t.rd32 d i)
      mark := maskOf fun i => t.marked w64 d i }

/-- The latch of an instruction that writes no register (R26). -/
def Latch.zero : Latch := ⟨[], 0⟩

/-- Moves the latches (R26). -/
def Thread.push (t : Thread) (l : Latch) : Thread := { t with latches := (l :: t.latches).take 4 }

/-- Writes a destination and leaves its latch. (DEDUCED, log entry 23) -/
def Thread.deliver (t : Thread) (d : Opnd) (w64 : Bool) (act : Mask) (val : Nat → DWord) (mk : Nat → Bool) : Thread :=
  let t' := t.setD d w64 act val mk
  t'.push (t'.latchOf d w64 act val mk)

/-! ### Program counters -/

/-- A lane's vpc. -/
def Thread.pcOf (t : Thread) (i : Nat) : Word := laneGet t.vpc 0 i

/-- A word as a vpc entry: its bits [1:0] are 0 (R22). -/
def pcWord (w : Word) : Word := w &&& 0xFFFFFFFC#32

/-- Sets vpc in some lanes. -/
def Thread.setPc (t : Thread) (act : Mask) (val : Nat → Word) : Thread :=
  { t with vpc := laneTab fun i => if bit act i then val i else t.pcOf i }

/-- The issue address: the least vpc of the live lanes (R22). -/
def Thread.issue (t : Thread) : Option Nat :=
  (lanesOf t.live).foldl (fun m i =>
    match m with
    | none => some (t.pcOf i).toNat
    | some a => some (min a (t.pcOf i).toNat)) none

/-- The lanes that stand at an address. -/
def Thread.lanesAt (t : Thread) (a : Nat) : Mask := maskOf fun i => bit t.live i && (t.pcOf i).toNat == a

/-- The offset of the running instruction word: the clause header plus the slots passed (R89). -/
def Clause.pc (c : Clause) : Nat := c.hdr + 4 * (c.next + 1)

/-- The offset of the clause header that follows (R88). -/
def Clause.after (c : Clause) : Nat := c.hdr + 4 * (c.slots.length + 1)

/-- Every entering lane passes the instruction: vpc, the clause's next slot and position, %retired (R89, R138). -/
def Thread.advance (t : Thread) (size : Nat) : Thread :=
  match t.clause with
  | none => t
  | some c =>
    { t.setPc c.entering (fun i => t.pcOf i + BitVec.ofNat 32 (4 * size)) with
      clause := some { c with next := c.next + size, pos := c.pos + 1 }
      retired := t.retired + 1 }

end Sys2Proof.Machine
end

