-- ==== Sys2Proof/Machine/Flags.lean ====
section
/-!
DEFINITION. %flags and the flag computations: the bits of R28, when an instruction may set them (R28, R42), and
Sat() of R37 with its SA bit. The flags of floating-point results are computed with Round() in Machine/Round.lean.
-/
namespace Sys2Proof.Machine

/-- The bits of %flags (R28). -/
def flNV : BitVec 6 := 1
def flDZ : BitVec 6 := 2
def flOF : BitVec 6 := 4
def flUF : BitVec 6 := 8
def flNX : BitVec 6 := 16
def flSA : BitVec 6 := 32

/-- A flag if a condition holds. -/
def flagIf (c : Bool) (f : BitVec 6) : BitVec 6 := if c then f else 0

/-- Whether the running slot's QUIET bit is set (R42): slot k has bit 10 + k - 1 of the header. -/
def Thread.quiet (t : Thread) : Bool :=
  match t.clause with
  | some c => bit c.word (10 + c.next)
  | none => false

/-- ORs flags into %flags in the active lanes, unless the slot is quiet (R28, R42, R43). -/
def Thread.raise (t : Thread) (act : Mask) (fl : Nat → BitVec 6) : Thread :=
  if t.quiet then t
  else { t with flags := laneTab fun i => if bit act i then laneGet t.flags 0 i ||| fl i else laneGet t.flags 0 i }

/-- Sat() (R37): the value clamped to a range, and SA if it was outside. -/
def satInt (lo hi v : Int) : Int × BitVec 6 :=
  if hi < v then (hi, flSA) else if v < lo then (lo, flSA) else (v, 0)

/-- Sat() to the signed range of w bits. -/
def satS (w : Nat) (v : Int) : Int × BitVec 6 := satInt (-(2 ^ (w - 1) : Int)) (2 ^ (w - 1) - 1 : Int) v

/-- Sat() to the unsigned range of w bits. -/
def satZ (w : Nat) (v : Int) : Int × BitVec 6 := satInt 0 (2 ^ w - 1 : Int) v

end Sys2Proof.Machine
end

