-- ==== Sys2Proof/Machine/Ops.lean ====
section
/-!
DEFINITION. The named operations over the state that the meanings share: cores, rays, beams and clusters, TAKING A
PRECISE TRAP (R379, R380) and the resume beside it (R385), the end of a slot and of a clause (R89, R31), the
sequencer's fault (R218), and the frame of a register instruction (sources, domain check, result, latch).
-/
namespace Sys2Proof.Machine

/-! ### Finding and changing parts of the state -/

/-- A core; an unlisted core is as at reset. -/
def State.core (s : State) (k : Nat) : Core := SMap.get s.cores Core.reset k
/-- A core changed. -/
def State.setCore (s : State) (k : Nat) (c : Core) : State := { s with cores := SMap.put s.cores k c }
def State.updCore (s : State) (k : Nat) (f : Core → Core) : State := s.setCore k (f (s.core k))
/-- A cluster; an unlisted cluster is as at reset. -/
def State.cluster (s : State) (k : Nat) : Cluster := SMap.get s.clusters Cluster.reset k
def State.setCluster (s : State) (k : Nat) (c : Cluster) : State := { s with clusters := SMap.put s.clusters k c }
def State.updCluster (s : State) (k : Nat) (f : Cluster → Cluster) : State := s.setCluster k (f (s.cluster k))
/-- A resident ray. -/
def State.ray (s : State) (core rslot : Nat) : Option Ray := SMap.get? (s.core core).rays rslot
def State.setRay (s : State) (core rslot : Nat) (r : Ray) : State :=
  s.updCore core fun c => { c with rays := SMap.put c.rays rslot r }
def State.updRay (s : State) (core rslot : Nat) (f : Ray → Ray) : State :=
  match s.ray core rslot with
  | some r => s.setRay core rslot (f r)
  | none => s

/-- The cluster of a core and the die of a cluster (R32, R327). -/
def clusterOf (core : Nat) : Nat := core / 4
def dieOf (cluster : Nat) : Nat := cluster / 36

/-- The key of the beam at a position of a launch. -/
def beamKey (l pos : Nat) : Nat := l * 2 ^ 32 + pos
/-- A resident beam. -/
def State.beam (s : State) (l pos : Nat) : Option Beam := SMap.get? s.beams (beamKey l pos)
def State.updBeam (s : State) (l pos : Nat) (f : Beam → Beam) : State :=
  { s with beams := SMap.upd s.beams (beamKey l pos) f }
def State.launch (s : State) (l : Nat) : Option Launch := SMap.get? s.launches l
def State.updLaunch (s : State) (l : Nat) (f : Launch → Launch) : State := { s with launches := SMap.upd s.launches l f }
def State.updCtx (s : State) (k : Nat) (f : Ctx → Ctx) : State := { s with ctxs := SMap.upd s.ctxs k f }

/-- The bank a scratchpad offset lies in (R260). -/
def Cluster.bank (c : Cluster) (b : Nat) : Bank := SMap.get c.banks Bank.reset b
def Cluster.setBank (c : Cluster) (b : Nat) (x : Bank) : Cluster := { c with banks := SMap.put c.banks b x }
def Cluster.tile (c : Cluster) (t : Nat) : Tile := SMap.get c.tiles Tile.reset t
def Cluster.setTile (c : Cluster) (t : Nat) (x : Tile) : Cluster := { c with tiles := SMap.put c.tiles t x }

/-- The ray that executes. -/
def State.curRay (s : State) : Option (Nat × Nat × Ray) :=
  match s.cur with
  | .ray core rslot => (s.ray core rslot).map fun r => (core, rslot, r)
  | _ => none

/-- The registers of the ray or stream that executes. -/
def State.curThread (s : State) : Option Thread :=
  match s.cur with
  | .none => none
  | .ray core rslot => (s.ray core rslot).map (·.th)
  | .stream cl => ((s.cluster cl).stream).map (·.th)

/-- The state with other registers of the ray or stream that executes. -/
def State.putThread (s : State) (t : Thread) : State :=
  match s.cur with
  | .none => s
  | .ray core rslot => s.updRay core rslot fun r => { r with th := t }
  | .stream cl => s.updCluster cl fun c => { c with stream := c.stream.map fun x => { x with th := t } }

/-- The state with another ray in the place of the one that executes. -/
def State.putRay (s : State) (r : Ray) : State :=
  match s.cur with
  | .ray core rslot => s.setRay core rslot r
  | _ => s

/-- The state with a fresh number for a free value. (DESIGN CHOICE, log entry 7) -/
def State.bump (s : State) : State := { s with tick := s.tick + 1 }

/-- Changes the operation with a number. -/
def Core.updOp (c : Core) (id : Nat) (f : Op → Op) : Core :=
  { c with ops := c.ops.map fun o => if o.id = id then f o else o }
def Core.op (c : Core) (id : Nat) : Option Op := c.ops.find? fun o => o.id == id
def State.updOp (s : State) (core id : Nat) (f : Op → Op) : State := s.updCore core fun c => c.updOp id f

/-! ### Functions, vectors and the log (R399, R414) -/

/-- A function; an unlisted one is as at reset. -/
def State.fnOf (s : State) (k : Nat) : Fn := SMap.get s.fns Fn.reset k
def State.updFn (s : State) (k : Nat) (f : Fn → Fn) : State := { s with fns := SMap.put s.fns k (f (s.fnOf k)) }

/-- A function of the port takes a request to its BAR0: there are 16 of them, 0 to 15 (R395), and one whose interface has lost
trust completes it with Unsupported Request (R401). -/
def State.answers (s : State) (fn : Nat) : Bool := decide (fn ≤ 15) && (s.fnOf fn).tdisp != .error

/-- A function raises a vector: a message, or the pending bit of a masked vector, in which several raises meet (R399).
(DEDUCED, log entry 94) -/
def Fn.raise (f : Fn) (vec : Nat) : Fn :=
  if f.masked.contains vec then { f with pending := if f.pending.contains vec then f.pending else f.pending ++ [vec] }
  else { f with raised := f.raised ++ [vec] }

/-- Raises an MSI-X vector of a function (R399). -/
def State.raiseMsi (s : State) (fn vec : Nat) : State := s.updFn fn fun x => x.raise vec

/-- The functions of the port: physical function 0 and 15 virtual ones (R395). -/
def fnList : List Nat := List.range 16

/-- The host masks a vector, or unmasks it, which sends its message if it is pending (R399). (DEDUCED, log entry 94) -/
def Fn.mask (f : Fn) (vec : Nat) (on : Bool) : Fn :=
  if on then { f with masked := if f.masked.contains vec then f.masked else f.masked ++ [vec] }
  else
    { f with
      masked := f.masked.filter (· != vec)
      pending := f.pending.filter (· != vec)
      raised := if f.pending.contains vec then f.raised ++ [vec] else f.raised }

/-- Raises a vector at every function. -/
def State.raiseAll (s : State) (vec : Nat) : State := fnList.foldl (fun s f => s.raiseMsi f vec) s

/-- A log record (R414); the latest 65,536 are kept, and vector 1 is raised. -/
def State.log (s : State) (addr src event where_ : Nat) : State :=
  let r : BitVec 192 := BitVec.ofNat 192 (where_ % 1024 + event % 256 * 2 ^ 16 + src % 256 * 2 ^ 24 + s.module.seq % 2 ^ 32 * 2 ^ 32
    + addr % 2 ^ 64 * 2 ^ 64 + s.clock % 2 ^ 64 * 2 ^ 128)
  let l := s.module.log ++ [r]
  { s with module := { s.module with log := l.drop (l.length - 65536), seq := s.module.seq + 1 } }.raiseAll 1

/-! ### Event records (R380) -/

/-- The 32-byte event record. -/
def eventRec (ctx rslot rayId role : Nat) (ended : Bool) (kind slot cause info pc : Nat) (lanes : Mask)
    (detail : Nat) : BitVec 256 :=
  BitVec.ofNat 256
    (info % 2 ^ 16 + cause % 2 ^ 8 * 2 ^ 16 + slot % 2 ^ 4 * 2 ^ 24 + kind % 2 ^ 4 * 2 ^ 28 + b2n ended * 2 ^ 40
      + role % 4 * 2 ^ 41 + rayId % 32 * 2 ^ 43 + rslot % 64 * 2 ^ 48 + ctx % 1024 * 2 ^ 54 + pc % 2 ^ 32 * 2 ^ 64
      + lanes.toNat * 2 ^ 96 + detail % 2 ^ 128 * 2 ^ 128)

/-- The sources of an event (R380): the translation fault or the sequencer, each record slot whose ray has ended, or a ray. -/
def eventSources (e : BitVec 256) : List (Nat × Nat) :=
  let kind := bits e 31 28
  if kind = 5 ∨ kind = 6 then [(kind, 0)]
  else if bit e 40 && (kind == 2 || kind == 3) then ((List.range 16).filter fun k => bit e k).map fun k => (1, k)
  else [(0, bits e 53 48)]

/-- Two events have a source in common. -/
def sameSource (a b : BitVec 256) : Bool := (eventSources a).any fun x => (eventSources b).contains x

/-- A core's event queue takes an event; where the event's source has one undelivered, it is raised once that is discarded
(R380). (DEDUCED, log entry 102) -/
def Core.raise (c : Core) (e : BitVec 256) : Core :=
  if c.events.any (fun x => sameSource x e) then { c with late := c.late ++ [e] } else { c with events := c.events ++ [e] }

/-- The oldest event is discarded, and the oldest late one whose source now has none undelivered is raised. -/
def Core.popEvent (c : Core) : Core :=
  let es := c.events.drop 1
  match c.late.find? fun e => es.all fun x => !sameSource x e with
  | some e => { c with events := es ++ [e], late := c.late.erase e }
  | none => { c with events := es }

/-- A fault record that takes a record slot of a core, its ray in a resident slot there: INFO and RSLOT say so (R380, R381). -/
def recordAt (r : BitVec 256) (rslot slot : Nat) : BitVec 256 :=
  (r &&& ~~~BitVec.ofNat 256 (2 ^ 16 - 1 + 63 * 2 ^ 48)) ||| BitVec.ofNat 256 (2 ^ slot + rslot % 64 * 2 ^ 48)

/-- Queues an event on a core. -/
def State.queueEvent (s : State) (core : Nat) (e : BitVec 256) : State := s.updCore core fun c => c.raise e

/-- The context of the launch a ray belongs to. -/
def State.ctxOf (s : State) (l : Nat) : Nat := match s.launch l with | some x => x.ctx | none => 0

/-- The quarter pipes after a ray's clause lets go of its own (R248). -/
def Core.freePipeOf (c : Core) (pipe rslot : Nat) : SMap Nat :=
  if SMap.get? c.pipes pipe = some rslot then SMap.del c.pipes pipe else c.pipes

/-! ### Taking a precise trap (R379, R380) -/

/-- What a trap records. -/
structure TrapInfo where
  cause : Nat
  slot : Nat
  pc : Nat
  lanes : Mask
  detail : Nat
  info : Nat
  deriving DecidableEq, Repr

/-- A ray has no place left of those its clause took in its cluster's fork queue (R209). -/
def State.dropPlaces (s : State) (core : Nat) (ks : List Nat) : State :=
  s.updCluster (clusterOf core) fun c => { c with places := c.places.filter fun p => !(p.1 == core && ks.contains p.2) }

/-- Parks a ray at the trapping point, loses its reservations (R185), frees its quarter pipe and its clause's places in the fork
queue (R209), and queues the event of KIND 0x1. Nothing else that the instruction would have changed is changed: vpc, the clause it holds and its
latches stay (R27, R91, R379). -/
def State.takeTrap (s : State) (core rslot : Nat) (why : ParkReason) (t : TrapInfo) : State :=
  match s.ray core rslot with
  | none => s
  | some r =>
    let r' := { r with parked := some why, resv := [], stall := none, unresolved := [] }
    let s := s.updCore core fun c =>
      { c with rays := SMap.put c.rays rslot r', pipes := c.freePipeOf r.pipe rslot }
    (s.dropPlaces core [rslot]).queueEvent core
      (eventRec (s.ctxOf r.l) rslot r.rayId r.role false 1 t.slot t.cause t.info t.pc t.lanes t.detail)

/-- The loupe's counts of a ray as it is resumed: 0 if the loupe had parked it, else as they stood (R258, R379). -/
def Ray.recount (r : Ray) : Ray := if r.parked = some .loupe then { r with frontier := 0, waiting := none } else r

/-- Unparks a ray, which goes on at its vpc or at its held point (R385). -/
def State.unpark (s : State) (core rslot : Nat) : State :=
  s.updRay core rslot fun r => { r.recount with parked := none, awaiting := false, readySince := none, starved := false }

/-- The sequencer's fault (R218): the stream issues nothing further; its STATUS and the offset are kept.
(DEDUCED, log entry 36) -/
def State.streamFault (s : State) (cl status pc : Nat) : State :=
  s.updCluster cl fun c =>
    { c with stream := c.stream.map fun x => { x with state := .ended, status := status, failPc := pc } }

/-- The STATUS a stream ends with where a ray would trap with a cause (R216, R218). -/
def statusOf (cause : Nat) : Nat := if cause = 0x20 ∨ cause = 0x21 then 0x43 else cause

/-- A run-time trap of the thread that executes: the precise trap of a ray, the fault of a stream. -/
def State.trapCur (s : State) (cause : Nat) (lanes : Mask) (detail info : Nat) : State :=
  match s.cur with
  | .none => s
  | .ray core rslot =>
    match s.ray core rslot with
    | none => s
    | some r =>
      let pc := match r.th.clause with | some c => c.pc | none => 0
      let slot := match r.th.clause with | some c => c.next + 1 | none => 0
      s.takeTrap core rslot .runTrap ⟨cause, slot, pc, lanes, detail, info⟩
  | .stream cl =>
    match (s.cluster cl).stream with
    | none => s
    | some x => s.streamFault cl (statusOf cause) (match x.th.clause with | some c => c.pc | none => 0)

/-! ### Boundaries (R390) -/

/-- The loupe limits of a ray's context (R257). -/
def State.loupeLims (s : State) (l : Nat) : Nat × Nat :=
  match SMap.get? s.ctxs (s.ctxOf l) with
  | some c => (c.frontLim, c.waitLim)
  | none => (20, 31)

/-- The frontier count has reached its limit (R257, R258). -/
def State.frontierDue (s : State) (r : Ray) : Bool :=
  let f := (s.loupeLims r.l).1
  f != 63 && decide (2 ^ f ≤ r.frontier)

/-- The wait count has reached its limit (R256 to R258). -/
def State.waitDue (s : State) (r : Ray) : Bool :=
  match r.waiting with
  | some x => let w := (s.loupeLims r.l).2
    w != 63 && decide (2 ^ w ≤ x.count + (if r.parked.isSome then 0 else s.clock - x.seen))
  | none => false

/-- A store-fault or write-back report is due (R382, R383). -/
def Ray.reportDue (r : Ray) : Bool := !r.dueStore.isEmpty || !r.dueWb.isEmpty

/-! ### The end of a slot and of a clause -/

/-- The number of quarters of the lane map that hold entering lanes (R245). -/
def Ray.quarters (r : Ray) (entering : Mask) : Nat :=
  ((List.range 4).filter fun q => (List.range 8).any fun k => bit entering (r.laneMap.getD (8 * q + k) 0)).length

/-- The contexts that a core's quarter pipes charge for each clock that passes (R350): the context of an outstanding translation
fault four times (R388), or that of each ray whose clause holds a pipe. -/
def State.pipeCharges (s : State) (c : Core) : List (Nat × Nat) :=
  match c.xfault with
  | some q => [(q.ctx, 4)]
  | none => c.pipes.filterMap fun (_, k) => (SMap.get? c.rays k).map fun r => (s.ctxOf r.l, 1)

/-- Some clocks pass. -/
def State.pass (s : State) (n : Nat) : State :=
  { s with
    clock := s.clock + n
    cores := SMap.mapVals (fun _ (c : Core) =>
      { c with charge := (s.pipeCharges c).foldl (fun m (ctx, k) => SMap.put m ctx (SMap.get m 0 ctx + k * n)) c.charge }) s.cores }

/-- A write of threshold register i at a clock by a writer of a rank: %rayid, or 32 for MTHR. Of the writes of one clock the one of
the highest rank stands (R31). -/
def Beam.setH (b : Beam) (clock rank i : Nat) (x : Word) : Beam :=
  match SMap.get? b.hAt i with
  | some (t, q) => if t = clock ∧ rank < q then b else { b with h := setAt b.h i x, hAt := SMap.put b.hAt i (clock, rank) }
  | none => { b with h := setAt b.h i x, hAt := SMap.put b.hAt i (clock, rank) }

/-- Writes of a ray to threshold registers take effect (R31). -/
def State.putH (s : State) (r : Ray) (hs : List (Nat × Word)) : State :=
  if hs.isEmpty then s else s.updBeam r.l r.pos fun b => hs.foldl (fun b (i, x) => b.setH s.clock r.rayId i x) b

/-- The writes to threshold registers that wait for the end of a ray's clause. -/
def Ray.hset (r : Ray) : List (Nat × Word) := match r.th.clause with | some c => c.hset | none => []

/-- A ray that holds its clause no more has ended it. -/
def State.leftClause (s : State) (r r' : Ray) : State := if r'.th.clause.isNone then s.putH r r.hset else s

/-- A clause ends: its writes to threshold registers take effect (R31), it is dropped, and its quarter pipe is free (R248). -/
def State.endClause (s : State) (core rslot : Nat) : State :=
  match s.ray core rslot with
  | none => s
  | some r =>
    let s := s.setRay core rslot { r with th := { r.th with clause := none } }
    let s := s.updCore core fun c => { c with pipes := c.freePipeOf r.pipe rslot }
    s.putH r r.hset

/-- Whether a thread has run its clause's last slot. -/
def Thread.clauseOver (t : Thread) : Bool :=
  match t.clause with
  | some c => decide (c.slots.length ≤ c.next)
  | none => true

/-- The slot of the executing thread is over: its registers are t, already advanced past the instruction. A lane that has stopped
being live sets the frontier count to 0 (R256), unless it has reached its limit and awaits its report (R258). The next slot takes a clock for each quarter of entering lanes (R245); after
the last slot the clause ends. -/
def State.finishSlot (s : State) (t : Thread) : State :=
  match s.cur with
  | .none => s
  | .ray core rslot =>
    match s.ray core rslot with
    | none => s
    | some r =>
      let s := s.setRay core rslot { r with
        th := t, stall := none, unresolved := [], frontier := if r.th.live &&& ~~~t.live = 0 ∨ s.frontierDue r then r.frontier else 0
        slotEnd := s.clock + r.quarters t.entering }
      if t.clauseOver then s.endClause core rslot else s
  | .stream cl =>
    s.updCluster cl fun c =>
      { c with stream := c.stream.map fun x => { x with th := if t.clauseOver then { t with clause := none } else t } }

/-- The slot cannot go on yet (R248). -/
def State.stallSlot (s : State) (why : Stall) : State :=
  match s.cur with
  | .ray core rslot => s.updRay core rslot fun r => { r with stall := some why }
  | _ => s

/-! ### The frame of a register instruction -/

/-- One lane's result. -/
structure LaneRes where
  val : DWord
  mark : Bool
  flags : BitVec 6
  deriving DecidableEq, Repr

/-- A result without mark and flags. -/
def LaneRes.pure (x : DWord) : LaneRes := ⟨x, false, 0⟩

/-- The causes of R66, R116 and R165 raised by register instructions. -/
def causeDomain : Nat := 0x19
def causeDivide : Nat := 0x28
def causeDiverge : Nat := 0x18

/-- A scalar register among a list of operands, sources and destination, is a pending token (R20). -/
def Ray.pendingAmong (r : Ray) (os : List Opnd) : Option Nat :=
  os.findSome? fun o => match o with
    | .s n => if r.pend.contains n.val then some n.val else none
    | _ => none

/-- The pending token that an instruction of the executing ray reads or writes. -/
def State.tokenWait (s : State) (i : Instr) : Option Nat :=
  match s.curRay with
  | some (_, _, r) => r.pendingAmong (i.uses.map (·.op))
  | none => none

/-- The lanes of a mask in which a condition holds. -/
def lanesWhere (act : Mask) (f : Nat → Bool) : Mask := act &&& maskOf f

/-- A register instruction: it stalls on a pending token; the lanes that read a marked operand where none may be
raise the domain trap (R66); the lanes that fail its own check raise that check's cause; otherwise every active
lane's result is written with its mark, flags are raised, and the latch is left. (DEDUCED, log entry 8; DEDUCED, log entry 14) -/
def regOp (i : Instr) (d : Opnd) (w64 : Bool) (dom : Thread → Nat → Bool) (cause : Nat) (chk : Thread → Nat → Bool)
    (res : Thread → Mask → Nat → LaneRes) (s : State) : Out :=
  match s.curThread with
  | none => .fault .noActor
  | some t =>
    match s.tokenWait i with
    | some r => .next (s.stallSlot (.token r))
    | none =>
      let act := t.active i.guard
      if lanesWhere act (dom t) ≠ 0 then .next (s.trapCur causeDomain act 0 0)
      else if lanesWhere act (chk t) ≠ 0 then .next (s.trapCur cause act 0 0)
      else
        let t1 := (t.raise act fun k => (res t act k).flags).deliver d w64 act
          (fun k => (res t act k).val) (fun k => (res t act k).mark)
        .next (s.finishSlot (t1.advance i.size))

/-- A register instruction with no check of its own. -/
def vecOp (i : Instr) (d : Opnd) (w64 : Bool) (dom : Thread → Nat → Bool) (res : Thread → Nat → LaneRes) (s : State) : Out :=
  regOp i d w64 dom 0 (fun _ _ => false) (fun t _ k => res t k) s

/-- Any of some 32-bit operands is marked in a lane: what a non-linear instruction may not read (R65).
(DEDUCED, log entry 76) -/
def anyMarked (os : List Opnd) (t : Thread) (k : Nat) : Bool := os.any fun o => t.marked false o k

/-- A non-linear instruction on 32-bit operands (R111): no mark is read, none is written. -/
def nonLinear2 (i : Instr) (d a b : Opnd) (f : Word → Word → Word) (s : State) : Out :=
  vecOp i d false (anyMarked [a, b]) (fun t k => .pure (zext64 (f (t.rd32 a k) (t.rd32 b k)))) s

/-- A non-linear instruction on one 32-bit operand. -/
def nonLinear1 (i : Instr) (d a : Opnd) (f : Word → Word) (s : State) : Out :=
  vecOp i d false (anyMarked [a]) (fun t k => .pure (zext64 (f (t.rd32 a k)))) s

/-- A non-linear instruction that also reads the old destination (R110). -/
def nonLinear3 (i : Instr) (d a b : Opnd) (f : Word → Word → Word → Word) (s : State) : Out :=
  vecOp i d false (anyMarked [d, a, b]) (fun t k => .pure (zext64 (f (t.rd32 d k) (t.rd32 a k) (t.rd32 b k)))) s

/-- An instruction that writes two predicates and no register; its latch is 0 (R26, R101). -/
def predOp (i : Instr) (pt pf : Pred) (dom : Thread → Nat → Bool) (flags : Thread → Nat → BitVec 6)
    (f : Thread → Mask → Nat → Bool) (s : State) : Out :=
  match s.curThread with
  | none => .fault .noActor
  | some t =>
    match s.tokenWait i with
    | some r => .next (s.stallSlot (.token r))
    | none =>
      let act := t.active i.guard
      if lanesWhere act (dom t) ≠ 0 then .next (s.trapCur causeDomain act 0 0)
      else
        let t1 := ((t.raise act (flags t)).setPreds pt pf act (maskOf (f t act))).push Latch.zero
        .next (s.finishSlot (t1.advance i.size))

end Sys2Proof.Machine
end

