-- ==== Sys2Proof/Machine/Bits.lean ====
section
/-!
DEFINITION. The bit operations of R117 to R120: logic, shifts, counts, reversal and bit fields, all non-linear (R111).
-/
namespace Sys2Proof.Machine

/-- A non-linear instruction on 64-bit operands (R117): the literal is zero-extended (R97). -/
def nonLinear64 (i : Instr) (d a b : Opnd) (f : DWord → DWord → DWord) (s : State) : Out :=
  vecOp i d true (fun t k => t.marked true a k || t.marked true b k)
    (fun t k => .pure (f (t.rd64 false a k) (t.rd64 false b k))) s

/-- A shift of 64 bits by a 32-bit count (R118). -/
def shift64 (i : Instr) (d a b : Opnd) (sx : Bool) (f : DWord → Nat → DWord) (s : State) : Out :=
  vecOp i d true (fun t k => t.marked true a k || t.marked false b k)
    (fun t k => .pure (f (t.rd64 sx a k) (t.rd32 b k).toNat)) s

/-- AND.Z32 (R117). -/
def execAndZ32 (g : Guard) (d a b : Opnd) (s : State) : Out :=
  nonLinear2 (.andZ32 g d a b) d a b (fun x y => x &&& y) s

/-- OR.Z32 (R117). -/
def execOrZ32 (g : Guard) (d a b : Opnd) (s : State) : Out :=
  nonLinear2 (.orZ32 g d a b) d a b (fun x y => x ||| y) s

/-- XOR.Z32 (R117). -/
def execXorZ32 (g : Guard) (d a b : Opnd) (s : State) : Out :=
  nonLinear2 (.xorZ32 g d a b) d a b (fun x y => x ^^^ y) s

/-- ANDN.Z32 (R117): a AND NOT b. -/
def execAndnZ32 (g : Guard) (d a b : Opnd) (s : State) : Out :=
  nonLinear2 (.andnZ32 g d a b) d a b (fun x y => x &&& ~~~y) s

/-- AND.Z64 (R117). -/
def execAndZ64 (g : Guard) (d a b : Opnd) (s : State) : Out :=
  nonLinear64 (.andZ64 g d a b) d a b (fun x y => x &&& y) s

/-- OR.Z64 (R117). -/
def execOrZ64 (g : Guard) (d a b : Opnd) (s : State) : Out :=
  nonLinear64 (.orZ64 g d a b) d a b (fun x y => x ||| y) s

/-- XOR.Z64 (R117). -/
def execXorZ64 (g : Guard) (d a b : Opnd) (s : State) : Out :=
  nonLinear64 (.xorZ64 g d a b) d a b (fun x y => x ^^^ y) s

/-- A shift left by n; 0 for n of the width or more (R118). -/
def shlW {w : Nat} (x : BitVec w) (n : Nat) : BitVec w := if w ≤ n then 0 else x <<< n
/-- A shift right by n with zero fill; 0 for n of the width or more (R118). -/
def shrW {w : Nat} (x : BitVec w) (n : Nat) : BitVec w := if w ≤ n then 0 else x >>> n
/-- A shift right by n with sign fill, by w - 1 for n of the width or more (R118). -/
def sarW {w : Nat} (x : BitVec w) (n : Nat) : BitVec w := BitVec.ofInt w (x.toInt / 2 ^ (if w ≤ n then w - 1 else n))
/-- A rotation left by n mod 32 (R118). -/
def rotW (x : Word) (n : Nat) : Word :=
  BitVec.ofNat 32 (x.toNat * 2 ^ (n % 32) + x.toNat / 2 ^ (32 - n % 32))

/-- SHL.Z32 (R118). -/
def execShlZ32 (g : Guard) (d a b : Opnd) (s : State) : Out :=
  nonLinear2 (.shlZ32 g d a b) d a b (fun x y => shlW x y.toNat) s

/-- SHR.Z32 (R118). -/
def execShrZ32 (g : Guard) (d a b : Opnd) (s : State) : Out :=
  nonLinear2 (.shrZ32 g d a b) d a b (fun x y => shrW x y.toNat) s

/-- SHR.S32 (R118). -/
def execShrS32 (g : Guard) (d a b : Opnd) (s : State) : Out :=
  nonLinear2 (.shrS32 g d a b) d a b (fun x y => sarW x y.toNat) s

/-- ROT.Z32 (R118). -/
def execRotZ32 (g : Guard) (d a b : Opnd) (s : State) : Out :=
  nonLinear2 (.rotZ32 g d a b) d a b (fun x y => rotW x y.toNat) s

/-- SHL.Z64 (R118). -/
def execShlZ64 (g : Guard) (d a b : Opnd) (s : State) : Out :=
  shift64 (.shlZ64 g d a b) d a b false shlW s

/-- SHR.Z64 (R118). -/
def execShrZ64 (g : Guard) (d a b : Opnd) (s : State) : Out :=
  shift64 (.shrZ64 g d a b) d a b false shrW s

/-- SHR.S64 (R118). -/
def execShrS64 (g : Guard) (d a b : Opnd) (s : State) : Out :=
  shift64 (.shrS64 g d a b) d a b true sarW s

/-- Number of 1 bits (R119). -/
def popCount {w : Nat} (x : BitVec w) : Nat := ((List.range w).filter fun i => bit x i).length
/-- Leading zeros from the top bit; w for 0 (R119). -/
def leadZeros {w : Nat} (x : BitVec w) : Nat := if x = 0 then w else w - 1 - Nat.log2 x.toNat
/-- Bit i of the result is bit 31 - i (R119). -/
def revBits (x : Word) : Word := maskOf fun i => bit x (31 - i)

/-- POPC.Z32 (R119). -/
def execPopcZ32 (g : Guard) (d a : Opnd) (s : State) : Out :=
  nonLinear1 (.popcZ32 g d a) d a (fun x => BitVec.ofNat 32 (popCount x)) s

/-- CLZ.Z32 (R119). -/
def execClzZ32 (g : Guard) (d a : Opnd) (s : State) : Out :=
  nonLinear1 (.clzZ32 g d a) d a (fun x => BitVec.ofNat 32 (leadZeros x)) s

/-- BREV.Z32 (R119). -/
def execBrevZ32 (g : Guard) (d a : Opnd) (s : State) : Out :=
  nonLinear1 (.brevZ32 g d a) d a revBits s

/-- A count over a 64-bit operand with a 32-bit result (R119). -/
def count64 (i : Instr) (d a : Opnd) (f : DWord → Nat) (s : State) : Out :=
  vecOp i d false (fun t k => t.marked true a k) (fun t k => .pure (BitVec.ofNat 64 (f (t.rd64 false a k)))) s

/-- POPC.Z64 (R119). -/
def execPopcZ64 (g : Guard) (d a : Opnd) (s : State) : Out := count64 (.popcZ64 g d a) d a popCount s

/-- CLZ.Z64 (R119). -/
def execClzZ64 (g : Guard) (d a : Opnd) (s : State) : Out := count64 (.clzZ64 g d a) d a leadZeros s

/-- The position and the effective length of a bit field, from its control word (R120). -/
def fieldOf (ctl : Word) : Nat × Nat :=
  let p := bits ctl 4 0
  (p, min (bits ctl 13 8) (32 - p))

/-- BFE.Z32's result (R120). -/
def bfeZ (x ctl : Word) : Word := BitVec.ofNat 32 (x.toNat / 2 ^ (fieldOf ctl).1 % 2 ^ (fieldOf ctl).2)
/-- BFE.S32's result: the field sign-extended from its top bit; 0 if empty (R120). -/
def bfeS (x ctl : Word) : Word :=
  let n := (fieldOf ctl).2
  let f := x.toNat / 2 ^ (fieldOf ctl).1 % 2 ^ n
  if n = 0 then 0 else if 2 ^ (n - 1) ≤ f then BitVec.ofInt 32 ((f : Int) - 2 ^ n) else BitVec.ofNat 32 f
/-- BFI.Z32's result: the old d with its field replaced by the low bits of a (R120). -/
def bfi (old x ctl : Word) : Word :=
  let p := (fieldOf ctl).1
  let n := (fieldOf ctl).2
  BitVec.ofNat 32 (old.toNat % 2 ^ p + x.toNat % 2 ^ n * 2 ^ p + old.toNat / 2 ^ (p + n) * 2 ^ (p + n))

/-- BFE.Z32 (R120). -/
def execBfeZ32 (g : Guard) (d a b : Opnd) (s : State) : Out :=
  nonLinear2 (.bfeZ32 g d a b) d a b bfeZ s

/-- BFE.S32 (R120). -/
def execBfeS32 (g : Guard) (d a b : Opnd) (s : State) : Out :=
  nonLinear2 (.bfeS32 g d a b) d a b bfeS s

/-- BFI.Z32 (R120). -/
def execBfiZ32 (g : Guard) (d a b : Opnd) (s : State) : Out :=
  nonLinear3 (.bfiZ32 g d a b) d a b bfi s

end Sys2Proof.Machine
end

