-- ==== Sys2Proof/Decode.lean ====
section
/-!
DEFINITION. The decoder, total on any words, and after it the encoder, both written from the encoding tables
of R99 to R107 and of each instruction's own description. The decoder keeps every field that has a place in
Instr as it stands; a fixed or reserved bit that breaks the format is refused by name (R98, R100, R103).
-/
namespace Sys2Proof

/-- Why words are no instruction, with the causes of R109. -/
inductive DecodeError where
  /-- An XOP that the map of R107 leaves unassigned: cause 0x03. -/
  | unassignedXop
  /-- A fixed or reserved field holds another value (R98, R100, R103): cause 0x04. -/
  | reservedField
  /-- The extension word or the literal lies beyond the words given (R103): cause 0x06. -/
  | noRoom
  deriving DecidableEq, Repr

/-- The cause of R109 for a decode error. -/
def DecodeError.cause : DecodeError → Nat
  | .unassignedXop => 0x03
  | .reservedField => 0x04
  | .noRoom => 0x06

/-- A field of a word as a bit vector. -/
def fld {n : Nat} (w : Word) (hi lo : Nat) : BitVec n := BitVec.ofNat n (bits w hi lo)

/-- The D, A and B fields of R99 as operand codes. -/
def ccD (w : Word) : Nat := bits w 20 14
def ccA (w : Word) : Nat := bits w 13 7
def ccB (w : Word) : Nat := bits w 6 0

/-- The operand a 7-bit code names (R96); lit is the instruction's literal. -/
def opndOf (lit : Word) (c : Nat) : Opnd :=
  if h : c < 96 then .v ⟨c, h⟩
  else if h : c - 96 < 24 then .s ⟨c - 96, h⟩
  else if h : c - 120 < 4 then .l ⟨c - 120, h⟩
  else if c = 0x7C then .zero
  else if c = 0x7D then .lit lit
  else if c = 0x7E then .lane
  else .nul

/-- The predicate a 3-bit field names. -/
def predOf (n : Nat) : Pred := Fin.ofNat 8 n

/-- The guard in bits [24:21] (R74, R99). -/
def gOf (w : Word) : Guard := ⟨bit w 24, predOf (bits w 23 21)⟩

/-- The offset of the memory format (R100). -/
def ofsOf (lit : Word) (w : Word) : MemOfs :=
  if h : bits w 3 0 < 15 then .scaled ⟨bits w 3 0, h⟩ else .lit lit

/-- An instruction if its fixed bits hold, the refusal otherwise. -/
def fixedIf (c : Bool) (i : Instr) : Except DecodeError Instr :=
  if c then .ok i else .error .reservedField

/-- The primary opcodes 0x00 to 0x3F (R105). -/
def decodePrimaryLow (w lit : Word) : Except DecodeError Instr :=
  match (fld w 31 25 : BitVec 7) with
  | 0x00#7 => .ok (.iaddS32 (gOf w) (opndOf lit (ccD w)) (opndOf lit (ccA w)) (opndOf lit (ccB w)))
  | 0x01#7 => .ok (.isubS32 (gOf w) (opndOf lit (ccD w)) (opndOf lit (ccA w)) (opndOf lit (ccB w)))
  | 0x02#7 => .ok (.iaddS64 (gOf w) (opndOf lit (ccD w)) (opndOf lit (ccA w)) (opndOf lit (ccB w)))
  | 0x03#7 => .ok (.isubS64 (gOf w) (opndOf lit (ccD w)) (opndOf lit (ccA w)) (opndOf lit (ccB w)))
  | 0x04#7 => .ok (.imulS32 (gOf w) (opndOf lit (ccD w)) (opndOf lit (ccA w)) (opndOf lit (ccB w)))
  | 0x05#7 => .ok (.imulhiS32 (gOf w) (opndOf lit (ccD w)) (opndOf lit (ccA w)) (opndOf lit (ccB w)))
  | 0x06#7 => .ok (.imulhiZ32 (gOf w) (opndOf lit (ccD w)) (opndOf lit (ccA w)) (opndOf lit (ccB w)))
  | 0x07#7 => .ok (.imadS32 (gOf w) (opndOf lit (ccD w)) (opndOf lit (ccA w)) (opndOf lit (ccB w)))
  | 0x08#7 => .ok (.iminS32 (gOf w) (opndOf lit (ccD w)) (opndOf lit (ccA w)) (opndOf lit (ccB w)))
  | 0x09#7 => .ok (.iminZ32 (gOf w) (opndOf lit (ccD w)) (opndOf lit (ccA w)) (opndOf lit (ccB w)))
  | 0x0A#7 => .ok (.imaxS32 (gOf w) (opndOf lit (ccD w)) (opndOf lit (ccA w)) (opndOf lit (ccB w)))
  | 0x0B#7 => .ok (.imaxZ32 (gOf w) (opndOf lit (ccD w)) (opndOf lit (ccA w)) (opndOf lit (ccB w)))
  | 0x0C#7 => fixedIf (ccB w == 0x7C) (.iabsS32 (gOf w) (opndOf lit (ccD w)) (opndOf lit (ccA w)))
  | 0x0D#7 => .ok (.imulwS32 (gOf w) (opndOf lit (ccD w)) (opndOf lit (ccA w)) (opndOf lit (ccB w)))
  | 0x0E#7 => .ok (.imulwZ32 (gOf w) (opndOf lit (ccD w)) (opndOf lit (ccA w)) (opndOf lit (ccB w)))
  | 0x0F#7 => .ok (.leaS64 (gOf w) (opndOf lit (ccD w)) (opndOf lit (ccA w)) (opndOf lit (ccB w)))
  | 0x10#7 => .ok (.andZ32 (gOf w) (opndOf lit (ccD w)) (opndOf lit (ccA w)) (opndOf lit (ccB w)))
  | 0x11#7 => .ok (.orZ32 (gOf w) (opndOf lit (ccD w)) (opndOf lit (ccA w)) (opndOf lit (ccB w)))
  | 0x12#7 => .ok (.xorZ32 (gOf w) (opndOf lit (ccD w)) (opndOf lit (ccA w)) (opndOf lit (ccB w)))
  | 0x13#7 => .ok (.andnZ32 (gOf w) (opndOf lit (ccD w)) (opndOf lit (ccA w)) (opndOf lit (ccB w)))
  | 0x14#7 => .ok (.shlZ32 (gOf w) (opndOf lit (ccD w)) (opndOf lit (ccA w)) (opndOf lit (ccB w)))
  | 0x15#7 => .ok (.shrZ32 (gOf w) (opndOf lit (ccD w)) (opndOf lit (ccA w)) (opndOf lit (ccB w)))
  | 0x16#7 => .ok (.shrS32 (gOf w) (opndOf lit (ccD w)) (opndOf lit (ccA w)) (opndOf lit (ccB w)))
  | 0x17#7 => .ok (.rotZ32 (gOf w) (opndOf lit (ccD w)) (opndOf lit (ccA w)) (opndOf lit (ccB w)))
  | 0x18#7 => fixedIf (ccB w == 0x7C) (.popcZ32 (gOf w) (opndOf lit (ccD w)) (opndOf lit (ccA w)))
  | 0x19#7 => fixedIf (ccB w == 0x7C) (.clzZ32 (gOf w) (opndOf lit (ccD w)) (opndOf lit (ccA w)))
  | 0x1A#7 => fixedIf (ccB w == 0x7C) (.brevZ32 (gOf w) (opndOf lit (ccD w)) (opndOf lit (ccA w)))
  | 0x1B#7 => .ok (.bfeZ32 (gOf w) (opndOf lit (ccD w)) (opndOf lit (ccA w)) (opndOf lit (ccB w)))
  | 0x1C#7 => .ok (.bfeS32 (gOf w) (opndOf lit (ccD w)) (opndOf lit (ccA w)) (opndOf lit (ccB w)))
  | 0x1D#7 => .ok (.bfiZ32 (gOf w) (opndOf lit (ccD w)) (opndOf lit (ccA w)) (opndOf lit (ccB w)))
  | 0x1E#7 => fixedIf (ccB w == 0x7C) (.movZ32 (gOf w) (opndOf lit (ccD w)) (opndOf lit (ccA w)))
  | 0x1F#7 => fixedIf (ccB w == 0x7C) (.movZ64 (gOf w) (opndOf lit (ccD w)) (opndOf lit (ccA w)))
  | 0x20#7 => fixedIf (!bit w 14) (.icmpEqZ32 (gOf w) (predOf (bits w 20 18)) (predOf (bits w 17 15)) (opndOf lit (ccA w)) (opndOf lit (ccB w)))
  | 0x21#7 => fixedIf (!bit w 14) (.icmpLtS32 (gOf w) (predOf (bits w 20 18)) (predOf (bits w 17 15)) (opndOf lit (ccA w)) (opndOf lit (ccB w)))
  | 0x22#7 => fixedIf (!bit w 14) (.icmpLeS32 (gOf w) (predOf (bits w 20 18)) (predOf (bits w 17 15)) (opndOf lit (ccA w)) (opndOf lit (ccB w)))
  | 0x23#7 => fixedIf (!bit w 14) (.icmpLtZ32 (gOf w) (predOf (bits w 20 18)) (predOf (bits w 17 15)) (opndOf lit (ccA w)) (opndOf lit (ccB w)))
  | 0x24#7 => fixedIf (!bit w 14) (.icmpLeZ32 (gOf w) (predOf (bits w 20 18)) (predOf (bits w 17 15)) (opndOf lit (ccA w)) (opndOf lit (ccB w)))
  | 0x25#7 => fixedIf (!bit w 14 && bits w 7 4 == 0) (.plop (gOf w) (predOf (bits w 20 18)) (predOf (bits w 17 15)) (predOf (bits w 13 11)) (predOf (bits w 10 8)) (fld w 3 0))
  | 0x26#7 => fixedIf (!bit w 14 && bits w 9 0 == 0x7C) (.voteAny (gOf w) (predOf (bits w 20 18)) (predOf (bits w 17 15)) (predOf (bits w 13 11)) (bit w 10))
  | 0x27#7 => fixedIf (!bit w 14 && bits w 9 0 == 0x7C) (.voteAll (gOf w) (predOf (bits w 20 18)) (predOf (bits w 17 15)) (predOf (bits w 13 11)) (bit w 10))
  | 0x28#7 => fixedIf (bits w 9 0 == 0x7C) (.ballot (gOf w) (opndOf lit (ccD w)) (predOf (bits w 13 11)) (bit w 10))
  | 0x29#7 => .ok (.shflIdx (gOf w) (opndOf lit (ccD w)) (opndOf lit (ccA w)) (opndOf lit (ccB w)))
  | 0x2A#7 => .ok (.shflUp (gOf w) (opndOf lit (ccD w)) (opndOf lit (ccA w)) (opndOf lit (ccB w)))
  | 0x2B#7 => .ok (.shflDn (gOf w) (opndOf lit (ccD w)) (opndOf lit (ccA w)) (opndOf lit (ccB w)))
  | 0x2C#7 => .ok (.shflXor (gOf w) (opndOf lit (ccD w)) (opndOf lit (ccA w)) (opndOf lit (ccB w)))
  | 0x2D#7 => fixedIf (ccB w == 0x7C) (.iredaddS32 (gOf w) (opndOf lit (ccD w)) (opndOf lit (ccA w)))
  | 0x2E#7 => fixedIf (ccB w == 0x7C) (.iredminS32 (gOf w) (opndOf lit (ccD w)) (opndOf lit (ccA w)))
  | 0x2F#7 => fixedIf (ccB w == 0x7C) (.iredmaxS32 (gOf w) (opndOf lit (ccD w)) (opndOf lit (ccA w)))
  | 0x30#7 => .ok (.faddF32 (gOf w) (opndOf lit (ccD w)) (opndOf lit (ccA w)) (opndOf lit (ccB w)))
  | 0x31#7 => .ok (.fsubF32 (gOf w) (opndOf lit (ccD w)) (opndOf lit (ccA w)) (opndOf lit (ccB w)))
  | 0x32#7 => .ok (.fmulF32 (gOf w) (opndOf lit (ccD w)) (opndOf lit (ccA w)) (opndOf lit (ccB w)))
  | 0x33#7 => .ok (.ffmaF32 (gOf w) (opndOf lit (ccD w)) (opndOf lit (ccA w)) (opndOf lit (ccB w)))
  | 0x34#7 => .ok (.fminF32 (gOf w) (opndOf lit (ccD w)) (opndOf lit (ccA w)) (opndOf lit (ccB w)))
  | 0x35#7 => .ok (.fmaxF32 (gOf w) (opndOf lit (ccD w)) (opndOf lit (ccA w)) (opndOf lit (ccB w)))
  | 0x36#7 => fixedIf (ccB w == 0x7C) (.fabsF32 (gOf w) (opndOf lit (ccD w)) (opndOf lit (ccA w)))
  | 0x37#7 => fixedIf (ccB w == 0x7C) (.fnegF32 (gOf w) (opndOf lit (ccD w)) (opndOf lit (ccA w)))
  | 0x38#7 => .ok (.faddF16x2 (gOf w) (opndOf lit (ccD w)) (opndOf lit (ccA w)) (opndOf lit (ccB w)))
  | 0x39#7 => .ok (.fsubF16x2 (gOf w) (opndOf lit (ccD w)) (opndOf lit (ccA w)) (opndOf lit (ccB w)))
  | 0x3A#7 => .ok (.fmulF16x2 (gOf w) (opndOf lit (ccD w)) (opndOf lit (ccA w)) (opndOf lit (ccB w)))
  | 0x3B#7 => .ok (.ffmaF16x2 (gOf w) (opndOf lit (ccD w)) (opndOf lit (ccA w)) (opndOf lit (ccB w)))
  | 0x3C#7 => .ok (.faddBf16x2 (gOf w) (opndOf lit (ccD w)) (opndOf lit (ccA w)) (opndOf lit (ccB w)))
  | 0x3D#7 => .ok (.fsubBf16x2 (gOf w) (opndOf lit (ccD w)) (opndOf lit (ccA w)) (opndOf lit (ccB w)))
  | 0x3E#7 => .ok (.fmulBf16x2 (gOf w) (opndOf lit (ccD w)) (opndOf lit (ccA w)) (opndOf lit (ccB w)))
  | 0x3F#7 => .ok (.ffmaBf16x2 (gOf w) (opndOf lit (ccD w)) (opndOf lit (ccA w)) (opndOf lit (ccB w)))
  | _ => .error .unassignedXop

/-- The primary opcodes 0x40 to 0x7E (R105). -/
def decodePrimaryHigh (w lit : Word) : Except DecodeError Instr :=
  match (fld w 31 25 : BitVec 7) with
  | 0x40#7 => fixedIf (!bit w 14) (.fcmpEqF32 (gOf w) (predOf (bits w 20 18)) (predOf (bits w 17 15)) (opndOf lit (ccA w)) (opndOf lit (ccB w)))
  | 0x41#7 => fixedIf (!bit w 14) (.fcmpLtF32 (gOf w) (predOf (bits w 20 18)) (predOf (bits w 17 15)) (opndOf lit (ccA w)) (opndOf lit (ccB w)))
  | 0x42#7 => fixedIf (!bit w 14) (.fcmpLeF32 (gOf w) (predOf (bits w 20 18)) (predOf (bits w 17 15)) (opndOf lit (ccA w)) (opndOf lit (ccB w)))
  | 0x43#7 => fixedIf (!bit w 14) (.fcmpUnF32 (gOf w) (predOf (bits w 20 18)) (predOf (bits w 17 15)) (opndOf lit (ccA w)) (opndOf lit (ccB w)))
  | 0x44#7 => fixedIf (ccB w == 0x7C) (.fredaddF32 (gOf w) (opndOf lit (ccD w)) (opndOf lit (ccA w)))
  | 0x45#7 => fixedIf (ccB w == 0x7C) (.fredminF32 (gOf w) (opndOf lit (ccD w)) (opndOf lit (ccA w)))
  | 0x46#7 => fixedIf (ccB w == 0x7C) (.fredmaxF32 (gOf w) (opndOf lit (ccD w)) (opndOf lit (ccA w)))
  | 0x47#7 => .ok (.fdivF32 (gOf w) (opndOf lit (ccD w)) (opndOf lit (ccA w)) (opndOf lit (ccB w)))
  | 0x48#7 => .ok (.iaddS16x2 (gOf w) (opndOf lit (ccD w)) (opndOf lit (ccA w)) (opndOf lit (ccB w)))
  | 0x49#7 => .ok (.isubS16x2 (gOf w) (opndOf lit (ccD w)) (opndOf lit (ccA w)) (opndOf lit (ccB w)))
  | 0x4A#7 => .ok (.iaddsS16x2 (gOf w) (opndOf lit (ccD w)) (opndOf lit (ccA w)) (opndOf lit (ccB w)))
  | 0x4B#7 => .ok (.isubsS16x2 (gOf w) (opndOf lit (ccD w)) (opndOf lit (ccA w)) (opndOf lit (ccB w)))
  | 0x4C#7 => .ok (.iaddsZ16x2 (gOf w) (opndOf lit (ccD w)) (opndOf lit (ccA w)) (opndOf lit (ccB w)))
  | 0x4D#7 => .ok (.isubsZ16x2 (gOf w) (opndOf lit (ccD w)) (opndOf lit (ccA w)) (opndOf lit (ccB w)))
  | 0x4E#7 => .ok (.imulS16x2 (gOf w) (opndOf lit (ccD w)) (opndOf lit (ccA w)) (opndOf lit (ccB w)))
  | 0x4F#7 => .ok (.imadS16x2 (gOf w) (opndOf lit (ccD w)) (opndOf lit (ccA w)) (opndOf lit (ccB w)))
  | 0x50#7 => .ok (.iminS16x2 (gOf w) (opndOf lit (ccD w)) (opndOf lit (ccA w)) (opndOf lit (ccB w)))
  | 0x51#7 => .ok (.imaxS16x2 (gOf w) (opndOf lit (ccD w)) (opndOf lit (ccA w)) (opndOf lit (ccB w)))
  | 0x52#7 => .ok (.iminZ16x2 (gOf w) (opndOf lit (ccD w)) (opndOf lit (ccA w)) (opndOf lit (ccB w)))
  | 0x53#7 => .ok (.imaxZ16x2 (gOf w) (opndOf lit (ccD w)) (opndOf lit (ccA w)) (opndOf lit (ccB w)))
  | 0x54#7 => fixedIf (ccB w == 0x7C) (.iabsS16x2 (gOf w) (opndOf lit (ccD w)) (opndOf lit (ccA w)))
  | 0x55#7 => .ok (.sadZ8x4 (gOf w) (opndOf lit (ccD w)) (opndOf lit (ccA w)) (opndOf lit (ccB w)))
  | 0x56#7 => .ok (.sadZ16x2 (gOf w) (opndOf lit (ccD w)) (opndOf lit (ccA w)) (opndOf lit (ccB w)))
  | 0x57#7 => .ok (.dotS16x2 (gOf w) (opndOf lit (ccD w)) (opndOf lit (ccA w)) (opndOf lit (ccB w)))
  | 0x58#7 => fixedIf (ccB w == 0x7C) (.frcpF32 (gOf w) (opndOf lit (ccD w)) (opndOf lit (ccA w)))
  | 0x59#7 => fixedIf (ccB w == 0x7C) (.frsqF32 (gOf w) (opndOf lit (ccD w)) (opndOf lit (ccA w)))
  | 0x5A#7 => fixedIf (ccB w == 0x7C) (.fsqrtF32 (gOf w) (opndOf lit (ccD w)) (opndOf lit (ccA w)))
  | 0x5B#7 => fixedIf (ccB w == 0x7C) (.fexp2F32 (gOf w) (opndOf lit (ccD w)) (opndOf lit (ccA w)))
  | 0x5C#7 => fixedIf (ccB w == 0x7C) (.flog2F32 (gOf w) (opndOf lit (ccD w)) (opndOf lit (ccA w)))
  | 0x5D#7 => fixedIf (ccB w == 0x7C) (.fsinF32 (gOf w) (opndOf lit (ccD w)) (opndOf lit (ccA w)))
  | 0x5E#7 => fixedIf (ccB w == 0x7C) (.fcosF32 (gOf w) (opndOf lit (ccD w)) (opndOf lit (ccA w)))
  | 0x5F#7 => fixedIf (ccB w == 0x7C) (.ftanhF32 (gOf w) (opndOf lit (ccD w)) (opndOf lit (ccA w)))
  | 0x60#7 => .ok (.cvt (gOf w) (opndOf lit (ccD w)) (opndOf lit (ccA w)) (fld w 6 0))
  | 0x61#7 => .ok (.quant (gOf w) (opndOf lit (ccD w)) (opndOf lit (ccA w)) (opndOf lit (ccB w)))
  | 0x62#7 => .ok (.deq (gOf w) (opndOf lit (ccD w)) (opndOf lit (ccA w)) (opndOf lit (ccB w)))
  | 0x63#7 => .ok (.pxunpack (gOf w) (opndOf lit (ccD w)) (opndOf lit (ccA w)) (opndOf lit (ccB w)))
  | 0x64#7 => .ok (.pxpack (gOf w) (opndOf lit (ccD w)) (opndOf lit (ccA w)) (opndOf lit (ccB w)))
  | 0x65#7 => fixedIf (ccB w == 0x7C) (.fgeluF32 (gOf w) (opndOf lit (ccD w)) (opndOf lit (ccA w)))
  | 0x66#7 => fixedIf (ccB w == 0x7C) (.fsigmF32 (gOf w) (opndOf lit (ccD w)) (opndOf lit (ccA w)))
  | 0x67#7 => fixedIf (ccB w == 0x7C) (.fexp2F16x2 (gOf w) (opndOf lit (ccD w)) (opndOf lit (ccA w)))
  | 0x68#7 => .ok (.bra (gOf w) (fld w 20 0))
  | 0x69#7 => .ok (.call (gOf w) (fld w 20 0))
  | 0x6A#7 => fixedIf (bits w 20 0 == 0x1FFE7C) (.ret (gOf w))
  | 0x6B#7 => fixedIf (bits w 20 0 == 0x1FFE7C) (.exit (gOf w))
  | 0x6C#7 => fixedIf (bits w 20 0 == 0x1FFE7C) (.yield (gOf w))
  | 0x6D#7 => fixedIf (ccD w == 0x7F && ccB w == 0x7C) (.brx (gOf w) (opndOf lit (ccA w)))
  | 0x6E#7 => fixedIf (ccD w == 0x7F && ccB w == 0x7C) (.callx (gOf w) (opndOf lit (ccA w)))
  | 0x6F#7 => fixedIf (bits w 20 0 == 0x1FFE7C) (.lnret (gOf w))
  | 0x70#7 => .ok (.ldZ32 (gOf w) (opndOf lit (ccD w)) (opndOf lit (ccA w)) (fld w 6 4) (ofsOf lit w))
  | 0x71#7 => .ok (.ldZ64 (gOf w) (opndOf lit (ccD w)) (opndOf lit (ccA w)) (fld w 6 4) (ofsOf lit w))
  | 0x72#7 => .ok (.stZ32 (gOf w) (opndOf lit (ccD w)) (opndOf lit (ccA w)) (fld w 6 4) (ofsOf lit w))
  | 0x73#7 => .ok (.stZ64 (gOf w) (opndOf lit (ccD w)) (opndOf lit (ccA w)) (fld w 6 4) (ofsOf lit w))
  | 0x74#7 => .ok (.ldroZ32 (gOf w) (opndOf lit (ccD w)) (opndOf lit (ccA w)) (fld w 6 4) (ofsOf lit w))
  | 0x75#7 => .ok (.ldroZ64 (gOf w) (opndOf lit (ccD w)) (opndOf lit (ccA w)) (fld w 6 4) (ofsOf lit w))
  | 0x76#7 => .ok (.stntZ32 (gOf w) (opndOf lit (ccD w)) (opndOf lit (ccA w)) (fld w 6 4) (ofsOf lit w))
  | 0x77#7 => .ok (.stntZ64 (gOf w) (opndOf lit (ccD w)) (opndOf lit (ccA w)) (fld w 6 4) (ofsOf lit w))
  | 0x78#7 => fixedIf (bits w 3 0 == 0) (.ldt (gOf w) (opndOf lit (ccD w)) (opndOf lit (ccA w)) (fld w 6 4))
  | 0x79#7 => fixedIf (bits w 3 0 == 0) (.ldtC (gOf w) (opndOf lit (ccD w)) (opndOf lit (ccA w)) (fld w 6 4))
  | 0x7A#7 => fixedIf (bits w 3 0 == 0) (.sth (gOf w) (opndOf lit (ccD w)) (opndOf lit (ccA w)) (fld w 6 4))
  | 0x7B#7 => .ok (.acq (gOf w) (opndOf lit (ccD w)) (opndOf lit (ccA w)) (fld w 6 4) (ofsOf lit w))
  | 0x7C#7 => .ok (.rel (gOf w) (opndOf lit (ccD w)) (opndOf lit (ccA w)) (fld w 6 4) (ofsOf lit w))
  | 0x7D#7 => fixedIf (ccB w == 0x7C) (.mfs (gOf w) (opndOf lit (ccD w)) (fld w 13 7))
  | 0x7E#7 => fixedIf (ccD w == 0x7F) (.mts (gOf w) (fld w 13 7) (opndOf lit (ccB w)))
  | _ => .error .unassignedXop

/-- A word whose opcode is primary, with its literal (R105). -/
def decodePrimary (w lit : Word) : Except DecodeError Instr :=
  if bit w 31 then decodePrimaryHigh w lit else decodePrimaryLow w lit

/-- The wide form: the first word, the extension word and the literal (R103, R107). -/
def decodeWide (w x lit : Word) : Except DecodeError Instr :=
  match (fld x 31 24 : BitVec 8) with
  | 0x00#8 => fixedIf (bits x 23 17 == 0x7C && bits x 16 0 == 0) (.idivS32 (gOf w) (opndOf lit (ccD w)) (opndOf lit (ccA w)) (opndOf lit (ccB w)))
  | 0x01#8 => fixedIf (bits x 23 17 == 0x7C && bits x 16 0 == 0) (.idivZ32 (gOf w) (opndOf lit (ccD w)) (opndOf lit (ccA w)) (opndOf lit (ccB w)))
  | 0x02#8 => fixedIf (bits x 23 17 == 0x7C && bits x 16 0 == 0) (.iremS32 (gOf w) (opndOf lit (ccD w)) (opndOf lit (ccA w)) (opndOf lit (ccB w)))
  | 0x03#8 => fixedIf (bits x 23 17 == 0x7C && bits x 16 0 == 0) (.iremZ32 (gOf w) (opndOf lit (ccD w)) (opndOf lit (ccA w)) (opndOf lit (ccB w)))
  | 0x04#8 => fixedIf (bits x 23 17 == 0x7C && bits x 16 5 == 0) (.sel (gOf w) (opndOf lit (ccD w)) (opndOf lit (ccA w)) (opndOf lit (ccB w)) (bit x 4) (bit x 3) (predOf (bits x 2 0)))
  | 0x05#8 => fixedIf (!bit w 14 && bits x 23 17 == 0x7C && bits x 16 2 == 0) (.icmpS64 (gOf w) (predOf (bits w 20 18)) (predOf (bits w 17 15)) (opndOf lit (ccA w)) (opndOf lit (ccB w)) (fld x 1 0))
  | 0x06#8 => fixedIf (!bit w 14 && bits x 23 17 == 0x7C && bits x 16 2 == 0) (.icmpZ64 (gOf w) (predOf (bits w 20 18)) (predOf (bits w 17 15)) (opndOf lit (ccA w)) (opndOf lit (ccB w)) (fld x 1 0))
  | 0x07#8 => fixedIf (bits x 16 0 == 0) (.iadd3S32 (gOf w) (opndOf lit (ccD w)) (opndOf lit (ccA w)) (opndOf lit (ccB w)) (opndOf lit (bits x 23 17)))
  | 0x08#8 => fixedIf (bits x 23 17 == 0x7C && bits x 16 0 == 0) (.shlZ64 (gOf w) (opndOf lit (ccD w)) (opndOf lit (ccA w)) (opndOf lit (ccB w)))
  | 0x09#8 => fixedIf (bits x 23 17 == 0x7C && bits x 16 0 == 0) (.shrZ64 (gOf w) (opndOf lit (ccD w)) (opndOf lit (ccA w)) (opndOf lit (ccB w)))
  | 0x0A#8 => fixedIf (bits x 23 17 == 0x7C && bits x 16 0 == 0) (.shrS64 (gOf w) (opndOf lit (ccD w)) (opndOf lit (ccA w)) (opndOf lit (ccB w)))
  | 0x0B#8 => fixedIf (bits x 23 17 == 0x7C && bits x 16 0 == 0) (.andZ64 (gOf w) (opndOf lit (ccD w)) (opndOf lit (ccA w)) (opndOf lit (ccB w)))
  | 0x0C#8 => fixedIf (bits x 23 17 == 0x7C && bits x 16 0 == 0) (.orZ64 (gOf w) (opndOf lit (ccD w)) (opndOf lit (ccA w)) (opndOf lit (ccB w)))
  | 0x0D#8 => fixedIf (bits x 23 17 == 0x7C && bits x 16 0 == 0) (.xorZ64 (gOf w) (opndOf lit (ccD w)) (opndOf lit (ccA w)) (opndOf lit (ccB w)))
  | 0x0E#8 => fixedIf (ccB w == 0x7C && bits x 23 17 == 0x7C && bits x 16 0 == 0) (.popcZ64 (gOf w) (opndOf lit (ccD w)) (opndOf lit (ccA w)))
  | 0x0F#8 => fixedIf (ccB w == 0x7C && bits x 23 17 == 0x7C && bits x 16 0 == 0) (.clzZ64 (gOf w) (opndOf lit (ccD w)) (opndOf lit (ccA w)))
  | 0x10#8 => fixedIf (bits x 16 0 == 0) (.ffma3F32 (gOf w) (opndOf lit (ccD w)) (opndOf lit (ccA w)) (opndOf lit (ccB w)) (opndOf lit (bits x 23 17)))
  | 0x11#8 => fixedIf (bits x 16 0 == 0) (.ffma3F16x2 (gOf w) (opndOf lit (ccD w)) (opndOf lit (ccA w)) (opndOf lit (ccB w)) (opndOf lit (bits x 23 17)))
  | 0x12#8 => fixedIf (bits x 16 0 == 0) (.ffma3Bf16x2 (gOf w) (opndOf lit (ccD w)) (opndOf lit (ccA w)) (opndOf lit (ccB w)) (opndOf lit (bits x 23 17)))
  | 0x13#8 => fixedIf (bits x 23 17 == 0x7C && bits x 16 2 == 0) (.faddF32Rm (gOf w) (opndOf lit (ccD w)) (opndOf lit (ccA w)) (opndOf lit (ccB w)) (fld x 1 0))
  | 0x14#8 => fixedIf (bits x 23 17 == 0x7C && bits x 16 2 == 0) (.fmulF32Rm (gOf w) (opndOf lit (ccD w)) (opndOf lit (ccA w)) (opndOf lit (ccB w)) (fld x 1 0))
  | 0x15#8 => fixedIf (bits x 16 0 == 0) (.dotsS16x2 (gOf w) (opndOf lit (ccD w)) (opndOf lit (ccA w)) (opndOf lit (ccB w)) (opndOf lit (bits x 23 17)))
  | 0x16#8 => fixedIf (!bit w 14 && bits x 23 17 == 0x7C && bits x 16 3 == 0) (.fcmpF16 (gOf w) (predOf (bits w 20 18)) (predOf (bits w 17 15)) (opndOf lit (ccA w)) (opndOf lit (ccB w)) (bit x 2) (fld x 1 0))
  | 0x17#8 => fixedIf (!bit w 14 && bits x 23 17 == 0x7C && bits x 16 3 == 0) (.fcmpBf16 (gOf w) (predOf (bits w 20 18)) (predOf (bits w 17 15)) (opndOf lit (ccA w)) (opndOf lit (ccB w)) (bit x 2) (fld x 1 0))
  | 0x18#8 => fixedIf (ccB w == 0x7C && bits x 23 17 == 0x7C) (.cvtWide (gOf w) (opndOf lit (ccD w)) (opndOf lit (ccA w)) (fld x 16 13) (fld x 12 9) (fld x 8 6) (fld x 5 4) (fld x 3 2) (fld x 1 0))
  | 0x20#8 => fixedIf (bits x 23 17 == 0x7C && bits x 16 5 == 0) (.ldType (gOf w) (opndOf lit (ccD w)) (opndOf lit (ccA w)) (fld w 6 4) (ofsOf lit w) (fld x 4 3) (fld x 2 0))
  | 0x21#8 => fixedIf (bits x 23 17 == 0x7C && bits x 16 5 == 0) (.stType (gOf w) (opndOf lit (ccD w)) (opndOf lit (ccA w)) (fld w 6 4) (ofsOf lit w) (fld x 4 3) (fld x 2 0))
  | 0x22#8 => fixedIf (bits x 16 10 == 0) (.atom (gOf w) (opndOf lit (ccD w)) (opndOf lit (ccA w)) (fld w 6 4) (ofsOf lit w) (opndOf lit (bits x 23 17)) (fld x 9 7) (fld x 6 4) (fld x 3 0))
  | 0x23#8 => fixedIf (bits x 23 17 == 0x7C && bits x 16 1 == 0) (.ldres (gOf w) (opndOf lit (ccD w)) (opndOf lit (ccA w)) (fld w 6 4) (ofsOf lit w) (bit x 0))
  | 0x24#8 => fixedIf (bits x 16 1 == 0) (.stcon (gOf w) (opndOf lit (ccD w)) (opndOf lit (ccA w)) (fld w 6 4) (ofsOf lit w) (opndOf lit (bits x 23 17)) (bit x 0))
  | 0x25#8 => fixedIf (bits w 20 7 == 0x3FFC && bits w 3 0 == 0 && bits x 23 17 == 0x7C && bits x 16 3 == 0) (.fence (gOf w) (fld w 6 4) (fld x 2 0))
  | 0x26#8 => fixedIf (bits w 20 0 == 0x1FFE7C && bits x 23 17 == 0x7C && bits x 16 0 == 0) (.drainnt (gOf w))
  | 0x27#8 => fixedIf (bits w 20 0 == 0x1FFE7C && bits x 23 17 == 0x7C && bits x 16 0 == 0) (.drainst (gOf w))
  | 0x28#8 =>
    if bits x 8 8 == 0 then fixedIf (bits w 3 0 == 0 && bits x 16 11 == 0 && bits x 4 0 == 0) (.xcopyIn (gOf w) (opndOf lit (ccD w)) (opndOf lit (ccA w)) (fld w 6 4) (opndOf lit (bits x 23 17)) (bit x 9) (bit x 10) (fld x 7 5))
    else if bits x 8 8 == 1 then fixedIf (bits w 3 0 == 0 && bits x 16 10 == 0) (.xcopyOut (gOf w) (opndOf lit (ccD w)) (opndOf lit (ccA w)) (fld w 6 4) (opndOf lit (bits x 23 17)) (bit x 9) (fld x 7 5) (fld x 4 0))
    else .error .reservedField
  | 0x29#8 => fixedIf (bits w 3 0 == 0 && bits x 16 11 == 0 && bits x 8 8 == 0 && bits x 4 3 == 0) (.xmcast (gOf w) (opndOf lit (ccD w)) (opndOf lit (ccA w)) (fld w 6 4) (opndOf lit (bits x 23 17)) (bit x 9) (bit x 10) (fld x 7 5) (fld x 2 0))
  | 0x2A#8 => fixedIf (bits w 3 0 == 0 && bits x 16 4 == 0) (.fread (gOf w) (opndOf lit (ccD w)) (opndOf lit (ccA w)) (fld w 6 4) (opndOf lit (bits x 23 17)) (bit x 3) (fld x 2 0))
  | 0x2B#8 => fixedIf (bits w 3 0 == 0 && bits x 16 5 == 0) (.fwrite (gOf w) (opndOf lit (ccD w)) (opndOf lit (ccA w)) (fld w 6 4) (opndOf lit (bits x 23 17)) (fld x 4 0))
  | 0x2C#8 => fixedIf (bits x 23 17 == 0x7C && bits x 16 1 == 0) (.waitc (gOf w) (opndOf lit (ccD w)) (opndOf lit (ccA w)) (opndOf lit (ccB w)) (bit x 0))
  | 0x2D#8 => fixedIf (bits w 3 0 == 0 && bits x 16 0 == 0) (.fork (gOf w) (opndOf lit (ccD w)) (opndOf lit (ccA w)) (fld w 6 4) (opndOf lit (bits x 23 17)))
  | 0x2E#8 => fixedIf (bits w 3 0 == 0 && bits x 23 17 == 0x7C && bits x 16 0 == 0) (.join (gOf w) (opndOf lit (ccD w)) (opndOf lit (ccA w)) (fld w 6 4))
  | 0x2F#8 => fixedIf (bits w 3 0 == 0 && bits x 16 0 == 0) (.feed (gOf w) (opndOf lit (ccD w)) (opndOf lit (ccA w)) (fld w 6 4) (opndOf lit (bits x 23 17)))
  | 0x30#8 => fixedIf (bits w 13 0 == 0x3E7C && bits x 23 17 == 0x7C) (.take (gOf w) (opndOf lit (ccD w)) (fld x 3 0) (fld x 5 4) (fld x 12 6) (fld x 16 13))
  | 0x31#8 =>
    if bits x 2 0 == 0 then fixedIf (ccD w == 0x7F && ccB w == 0x7C && bits x 23 17 == 0x7C && bits x 16 6 == 0) (.barInit (gOf w) (opndOf lit (ccA w)) (fld x 5 3))
    else if bits x 2 0 == 1 then fixedIf (bits w 20 0 == 0x1FFE7C && bits x 23 17 == 0x7C && bits x 16 6 == 0) (.barArv (gOf w) (fld x 5 3))
    else if bits x 2 0 == 2 then fixedIf (bits w 13 0 == 0x3E7C && bits x 23 17 == 0x7C && bits x 16 6 == 0) (.barAddr (gOf w) (opndOf lit (ccD w)) (fld x 5 3))
    else .error .reservedField
  | 0x32#8 => fixedIf (ccD w == 0x7F && bits w 3 0 == 0 && bits x 23 17 == 0x7C && bits x 16 0 == 0) (.arrive (gOf w) (opndOf lit (ccA w)) (fld w 6 4))
  | 0x33#8 => fixedIf (bits w 3 0 == 0 && bits x 23 17 == 0x7C && bits x 16 0 == 0) (.bwait (gOf w) (opndOf lit (ccD w)) (opndOf lit (ccA w)) (fld w 6 4))
  | 0x34#8 =>
    if bits x 0 0 == 0 then fixedIf (ccD w == 0x7F && ccB w == 0x7C && bits x 23 17 == 0x7C && bits x 16 1 == 0) (.caladv (gOf w) (opndOf lit (ccA w)))
    else if bits x 0 0 == 1 then fixedIf (ccD w == 0x7F && ccB w == 0x7C && bits x 23 17 == 0x7C && bits x 16 1 == 0) (.caladvAllow (gOf w) (opndOf lit (ccA w)))
    else .error .reservedField
  | 0x35#8 => fixedIf (bits w 3 0 == 0 && bits x 23 17 == 0x7C && bits x 16 0 == 0) (.spawn (gOf w) (opndOf lit (ccD w)) (opndOf lit (ccA w)) (fld w 6 4))
  | 0x38#8 => fixedIf (bits x 23 17 == 0x7C && bits x 16 0 == 0) (.lnsend (gOf w) (opndOf lit (ccD w)) (opndOf lit (ccA w)) (opndOf lit (ccB w)))
  | 0x39#8 => fixedIf (ccB w == 0x7C && bits x 23 17 == 0x7C && bits x 16 0 == 0) (.lnclr (gOf w) (opndOf lit (ccD w)) (opndOf lit (ccA w)))
  | 0x40#8 => fixedIf (bits w 20 0 == 0x1FFE7C && bits x 23 17 == 0x7C && bits x 16 16 == 0) (.bkpt (gOf w) (fld x 15 0))
  | 0x41#8 => fixedIf (bits w 20 0 == 0x1FFE7C && bits x 23 17 == 0x7C && bits x 16 16 == 0) (.svcall (gOf w) (fld x 15 0))
  | 0x42#8 => fixedIf (bits w 20 0 == 0x1FFE7C && bits x 23 17 == 0x7C && bits x 16 0 == 0) (.tret (gOf w))
  | 0x43#8 =>
    if bits x 0 0 == 0 then fixedIf (bits w 20 0 == 0x1FFE7C && bits x 23 17 == 0x7C && bits x 16 1 == 0) (.termRay (gOf w))
    else if bits x 0 0 == 1 then fixedIf (bits w 20 0 == 0x1FFE7C && bits x 23 17 == 0x7C && bits x 16 1 == 0) (.termBeam (gOf w))
    else .error .reservedField
  | 0x60#8 => fixedIf (ccD w == 0x7F && bits x 23 17 == 0x7C) (.mma (gOf w) (opndOf lit (ccA w)) (opndOf lit (ccB w)) (fld x 16 14) (bit x 13) (bit x 12) (fld x 11 8) (fld x 7 4) (fld x 3 0))
  | 0x61#8 => fixedIf (ccD w == 0x7F && bits x 23 17 == 0x7C) (.mmaz (gOf w) (opndOf lit (ccA w)) (opndOf lit (ccB w)) (fld x 16 14) (bit x 13) (bit x 12) (fld x 11 8) (fld x 7 4) (fld x 3 0))
  | 0x62#8 => fixedIf (bits w 20 0 == 0x1FFE7C && bits x 23 17 == 0x7C && bits x 16 4 == 0) (.mzero (gOf w) (fld x 3 0))
  | 0x63#8 => fixedIf (ccD w == 0x7F && bits x 23 17 == 0x7C && bits x 12 4 == 0) (.mhaar (gOf w) (opndOf lit (ccA w)) (opndOf lit (ccB w)) (fld x 16 14) (bit x 13) (fld x 3 0))
  | 0x64#8 =>
    if bits x 4 4 == 1 then fixedIf (bits w 20 0 == 0x1FFE7C && bits x 23 17 == 0x7C && bits x 12 5 == 0) (.mihaarTile (gOf w) (fld x 16 14) (bit x 13) (fld x 3 0))
    else if bits x 4 4 == 0 && bits x 3 0 == 0 then fixedIf (ccD w == 0x7F && bits x 23 17 == 0x7C && bits x 12 5 == 0) (.mihaar (gOf w) (opndOf lit (ccA w)) (opndOf lit (ccB w)) (fld x 16 14) (bit x 13))
    else .error .reservedField
  | 0x65#8 =>
    if bits x 4 4 == 0 then fixedIf (ccD w == 0x7F && ccB w == 0x7C && bits x 23 17 == 0x7C && bits x 16 5 == 0) (.mthrSet (gOf w) (opndOf lit (ccA w)) (fld x 3 0))
    else if bits x 4 4 == 1 then fixedIf (ccD w == 0x7F && ccB w == 0x7C && bits x 23 17 == 0x7C && bits x 12 5 == 0 && bits x 3 0 == 0) (.mthrTile (gOf w) (opndOf lit (ccA w)) (fld x 16 14) (bit x 13))
    else .error .reservedField
  | 0x66#8 => fixedIf (ccD w == 0x7F && ccB w == 0x7C && bits x 23 17 == 0x7C && bits x 16 0 == 0) (.msig (gOf w) (opndOf lit (ccA w)))
  | 0x67#8 => fixedIf (ccD w == 0x7F && bits x 23 17 == 0x7C && bits x 16 1 == 0) (.mwait (gOf w) (opndOf lit (ccA w)) (opndOf lit (ccB w)) (bit x 0))
  | 0x68#8 => fixedIf (ccD w == 0x7F && bits x 23 17 == 0x7C && bits x 16 4 == 0) (.mdesc (gOf w) (opndOf lit (ccA w)) (opndOf lit (ccB w)) (fld x 3 0))
  | 0x69#8 => fixedIf (bits w 20 0 == 0x1FFE7C && bits x 23 17 == 0x7C && bits x 16 0 == 0) (.mend (gOf w))
  | _ => .error .unassignedXop

/-- Whether the first word opens the wide form (R103). -/
def isWideWord (w : Word) : Bool := bits w 31 25 == 0x7F

/-- Decode the instruction at the head of a list of slots, with the number of slots it takes (R88): the word,
its extension word if wide, and its literal if it names code 0x7D. (DEDUCED, log entry 11) -/
def decode : List Word → Except DecodeError (Instr × Nat)
  | [] => .error .noRoom
  | w :: t =>
    if isWideWord w then
      match t with
      | [] => .error .noRoom
      | x :: t' =>
        match decodeWide w x (t'.headD 0) with
        | .error e => .error e
        | .ok i => if i.usesLit && t'.isEmpty then .error .noRoom else .ok (i, 2 + b2n i.usesLit)
    else
      match decodePrimary w (t.headD 0) with
      | .error e => .error e
      | .ok i => if i.usesLit && t.isEmpty then .error .noRoom else .ok (i, 1 + b2n i.usesLit)

/-! ### The encoder -/

/-- The 7-bit code of an operand (R96). -/
def Opnd.code : Opnd → Nat
  | .v n => n
  | .s n => 96 + n
  | .l j => 120 + j
  | .zero => 0x7C
  | .lit _ => 0x7D
  | .lane => 0x7E
  | .nul => 0x7F

/-- The first 11 bits of every format: opcode and guard (R99). -/
def packHead (opc : Nat) (g : Guard) : Nat := (opc * 2 + b2n g.neg) * 8 + g.p

/-- Basic format (R99), from operand codes. -/
def packBasic (opc : Nat) (g : Guard) (d a b : Nat) : Word :=
  BitVec.ofNat 32 (((packHead opc g * 128 + d) * 128 + a) * 128 + b)

/-- Memory format (R100). -/
def packMem (opc : Nat) (g : Guard) (d a dc ofs : Nat) : Word :=
  BitVec.ofNat 32 ((((packHead opc g * 128 + d) * 128 + a) * 8 + dc) * 16 + ofs)

/-- Compare format (R101). -/
def packCmp (opc : Nat) (g : Guard) (pt pf a b : Nat) : Word :=
  BitVec.ofNat 32 ((((packHead opc g * 8 + pt) * 8 + pf) * 256 + a) * 128 + b)

/-- Jump format (R102). -/
def packJump (opc : Nat) (g : Guard) (disp : Nat) : Word :=
  BitVec.ofNat 32 (packHead opc g * 2097152 + disp)

/-- Extension word (R103). -/
def packExt (xop c x : Nat) : Word := BitVec.ofNat 32 ((xop * 128 + c) * 131072 + x)

/-- The OFS field of a memory offset (R100). -/
def MemOfs.code : MemOfs → Nat
  | .scaled n => n
  | .lit _ => 15

/-- The instruction word and, for a wide form, its extension word; nothing for an event. -/
def Instr.head : Instr → List Word
  | .iaddS32 g d a b => [packBasic 0x00 g d.code a.code b.code]
  | .isubS32 g d a b => [packBasic 0x01 g d.code a.code b.code]
  | .iaddS64 g d a b => [packBasic 0x02 g d.code a.code b.code]
  | .isubS64 g d a b => [packBasic 0x03 g d.code a.code b.code]
  | .imulS32 g d a b => [packBasic 0x04 g d.code a.code b.code]
  | .imulhiS32 g d a b => [packBasic 0x05 g d.code a.code b.code]
  | .imulhiZ32 g d a b => [packBasic 0x06 g d.code a.code b.code]
  | .imadS32 g d a b => [packBasic 0x07 g d.code a.code b.code]
  | .iminS32 g d a b => [packBasic 0x08 g d.code a.code b.code]
  | .iminZ32 g d a b => [packBasic 0x09 g d.code a.code b.code]
  | .imaxS32 g d a b => [packBasic 0x0A g d.code a.code b.code]
  | .imaxZ32 g d a b => [packBasic 0x0B g d.code a.code b.code]
  | .iabsS32 g d a => [packBasic 0x0C g d.code a.code 0x7C]
  | .imulwS32 g d a b => [packBasic 0x0D g d.code a.code b.code]
  | .imulwZ32 g d a b => [packBasic 0x0E g d.code a.code b.code]
  | .leaS64 g d a b => [packBasic 0x0F g d.code a.code b.code]
  | .andZ32 g d a b => [packBasic 0x10 g d.code a.code b.code]
  | .orZ32 g d a b => [packBasic 0x11 g d.code a.code b.code]
  | .xorZ32 g d a b => [packBasic 0x12 g d.code a.code b.code]
  | .andnZ32 g d a b => [packBasic 0x13 g d.code a.code b.code]
  | .shlZ32 g d a b => [packBasic 0x14 g d.code a.code b.code]
  | .shrZ32 g d a b => [packBasic 0x15 g d.code a.code b.code]
  | .shrS32 g d a b => [packBasic 0x16 g d.code a.code b.code]
  | .rotZ32 g d a b => [packBasic 0x17 g d.code a.code b.code]
  | .popcZ32 g d a => [packBasic 0x18 g d.code a.code 0x7C]
  | .clzZ32 g d a => [packBasic 0x19 g d.code a.code 0x7C]
  | .brevZ32 g d a => [packBasic 0x1A g d.code a.code 0x7C]
  | .bfeZ32 g d a b => [packBasic 0x1B g d.code a.code b.code]
  | .bfeS32 g d a b => [packBasic 0x1C g d.code a.code b.code]
  | .bfiZ32 g d a b => [packBasic 0x1D g d.code a.code b.code]
  | .movZ32 g d a => [packBasic 0x1E g d.code a.code 0x7C]
  | .movZ64 g d a => [packBasic 0x1F g d.code a.code 0x7C]
  | .icmpEqZ32 g pt pf a b => [packCmp 0x20 g pt.val pf.val a.code b.code]
  | .icmpLtS32 g pt pf a b => [packCmp 0x21 g pt.val pf.val a.code b.code]
  | .icmpLeS32 g pt pf a b => [packCmp 0x22 g pt.val pf.val a.code b.code]
  | .icmpLtZ32 g pt pf a b => [packCmp 0x23 g pt.val pf.val a.code b.code]
  | .icmpLeZ32 g pt pf a b => [packCmp 0x24 g pt.val pf.val a.code b.code]
  | .plop g pt pf pa pb table => [packCmp 0x25 g pt.val pf.val (pa.val * 16 + pb.val * 2) table.toNat]
  | .voteAny g pt pf pa n => [packCmp 0x26 g pt.val pf.val (pa.val * 16 + (b2n n) * 8) 0x7C]
  | .voteAll g pt pf pa n => [packCmp 0x27 g pt.val pf.val (pa.val * 16 + (b2n n) * 8) 0x7C]
  | .ballot g d pa n => [packBasic 0x28 g d.code (pa.val * 16 + (b2n n) * 8) 0x7C]
  | .shflIdx g d a b => [packBasic 0x29 g d.code a.code b.code]
  | .shflUp g d a b => [packBasic 0x2A g d.code a.code b.code]
  | .shflDn g d a b => [packBasic 0x2B g d.code a.code b.code]
  | .shflXor g d a b => [packBasic 0x2C g d.code a.code b.code]
  | .iredaddS32 g d a => [packBasic 0x2D g d.code a.code 0x7C]
  | .iredminS32 g d a => [packBasic 0x2E g d.code a.code 0x7C]
  | .iredmaxS32 g d a => [packBasic 0x2F g d.code a.code 0x7C]
  | .faddF32 g d a b => [packBasic 0x30 g d.code a.code b.code]
  | .fsubF32 g d a b => [packBasic 0x31 g d.code a.code b.code]
  | .fmulF32 g d a b => [packBasic 0x32 g d.code a.code b.code]
  | .ffmaF32 g d a b => [packBasic 0x33 g d.code a.code b.code]
  | .fminF32 g d a b => [packBasic 0x34 g d.code a.code b.code]
  | .fmaxF32 g d a b => [packBasic 0x35 g d.code a.code b.code]
  | .fabsF32 g d a => [packBasic 0x36 g d.code a.code 0x7C]
  | .fnegF32 g d a => [packBasic 0x37 g d.code a.code 0x7C]
  | .faddF16x2 g d a b => [packBasic 0x38 g d.code a.code b.code]
  | .fsubF16x2 g d a b => [packBasic 0x39 g d.code a.code b.code]
  | .fmulF16x2 g d a b => [packBasic 0x3A g d.code a.code b.code]
  | .ffmaF16x2 g d a b => [packBasic 0x3B g d.code a.code b.code]
  | .faddBf16x2 g d a b => [packBasic 0x3C g d.code a.code b.code]
  | .fsubBf16x2 g d a b => [packBasic 0x3D g d.code a.code b.code]
  | .fmulBf16x2 g d a b => [packBasic 0x3E g d.code a.code b.code]
  | .ffmaBf16x2 g d a b => [packBasic 0x3F g d.code a.code b.code]
  | .fcmpEqF32 g pt pf a b => [packCmp 0x40 g pt.val pf.val a.code b.code]
  | .fcmpLtF32 g pt pf a b => [packCmp 0x41 g pt.val pf.val a.code b.code]
  | .fcmpLeF32 g pt pf a b => [packCmp 0x42 g pt.val pf.val a.code b.code]
  | .fcmpUnF32 g pt pf a b => [packCmp 0x43 g pt.val pf.val a.code b.code]
  | .fredaddF32 g d a => [packBasic 0x44 g d.code a.code 0x7C]
  | .fredminF32 g d a => [packBasic 0x45 g d.code a.code 0x7C]
  | .fredmaxF32 g d a => [packBasic 0x46 g d.code a.code 0x7C]
  | .fdivF32 g d a b => [packBasic 0x47 g d.code a.code b.code]
  | .iaddS16x2 g d a b => [packBasic 0x48 g d.code a.code b.code]
  | .isubS16x2 g d a b => [packBasic 0x49 g d.code a.code b.code]
  | .iaddsS16x2 g d a b => [packBasic 0x4A g d.code a.code b.code]
  | .isubsS16x2 g d a b => [packBasic 0x4B g d.code a.code b.code]
  | .iaddsZ16x2 g d a b => [packBasic 0x4C g d.code a.code b.code]
  | .isubsZ16x2 g d a b => [packBasic 0x4D g d.code a.code b.code]
  | .imulS16x2 g d a b => [packBasic 0x4E g d.code a.code b.code]
  | .imadS16x2 g d a b => [packBasic 0x4F g d.code a.code b.code]
  | .iminS16x2 g d a b => [packBasic 0x50 g d.code a.code b.code]
  | .imaxS16x2 g d a b => [packBasic 0x51 g d.code a.code b.code]
  | .iminZ16x2 g d a b => [packBasic 0x52 g d.code a.code b.code]
  | .imaxZ16x2 g d a b => [packBasic 0x53 g d.code a.code b.code]
  | .iabsS16x2 g d a => [packBasic 0x54 g d.code a.code 0x7C]
  | .sadZ8x4 g d a b => [packBasic 0x55 g d.code a.code b.code]
  | .sadZ16x2 g d a b => [packBasic 0x56 g d.code a.code b.code]
  | .dotS16x2 g d a b => [packBasic 0x57 g d.code a.code b.code]
  | .frcpF32 g d a => [packBasic 0x58 g d.code a.code 0x7C]
  | .frsqF32 g d a => [packBasic 0x59 g d.code a.code 0x7C]
  | .fsqrtF32 g d a => [packBasic 0x5A g d.code a.code 0x7C]
  | .fexp2F32 g d a => [packBasic 0x5B g d.code a.code 0x7C]
  | .flog2F32 g d a => [packBasic 0x5C g d.code a.code 0x7C]
  | .fsinF32 g d a => [packBasic 0x5D g d.code a.code 0x7C]
  | .fcosF32 g d a => [packBasic 0x5E g d.code a.code 0x7C]
  | .ftanhF32 g d a => [packBasic 0x5F g d.code a.code 0x7C]
  | .cvt g d a k => [packBasic 0x60 g d.code a.code k.toNat]
  | .quant g d a b => [packBasic 0x61 g d.code a.code b.code]
  | .deq g d a b => [packBasic 0x62 g d.code a.code b.code]
  | .pxunpack g d a b => [packBasic 0x63 g d.code a.code b.code]
  | .pxpack g d a b => [packBasic 0x64 g d.code a.code b.code]
  | .fgeluF32 g d a => [packBasic 0x65 g d.code a.code 0x7C]
  | .fsigmF32 g d a => [packBasic 0x66 g d.code a.code 0x7C]
  | .fexp2F16x2 g d a => [packBasic 0x67 g d.code a.code 0x7C]
  | .bra g disp => [packJump 0x68 g disp.toNat]
  | .call g disp => [packJump 0x69 g disp.toNat]
  | .ret g => [packBasic 0x6A g 0x7F 0x7C 0x7C]
  | .exit g => [packBasic 0x6B g 0x7F 0x7C 0x7C]
  | .yield g => [packBasic 0x6C g 0x7F 0x7C 0x7C]
  | .brx g a => [packBasic 0x6D g 0x7F a.code 0x7C]
  | .callx g a => [packBasic 0x6E g 0x7F a.code 0x7C]
  | .lnret g => [packBasic 0x6F g 0x7F 0x7C 0x7C]
  | .ldZ32 g d a dc ofs => [packMem 0x70 g d.code a.code dc.toNat ofs.code]
  | .ldZ64 g d a dc ofs => [packMem 0x71 g d.code a.code dc.toNat ofs.code]
  | .stZ32 g d a dc ofs => [packMem 0x72 g d.code a.code dc.toNat ofs.code]
  | .stZ64 g d a dc ofs => [packMem 0x73 g d.code a.code dc.toNat ofs.code]
  | .ldroZ32 g d a dc ofs => [packMem 0x74 g d.code a.code dc.toNat ofs.code]
  | .ldroZ64 g d a dc ofs => [packMem 0x75 g d.code a.code dc.toNat ofs.code]
  | .stntZ32 g d a dc ofs => [packMem 0x76 g d.code a.code dc.toNat ofs.code]
  | .stntZ64 g d a dc ofs => [packMem 0x77 g d.code a.code dc.toNat ofs.code]
  | .ldt g d a dc => [packMem 0x78 g d.code a.code dc.toNat 0]
  | .ldtC g d a dc => [packMem 0x79 g d.code a.code dc.toNat 0]
  | .sth g d a dc => [packMem 0x7A g d.code a.code dc.toNat 0]
  | .acq g d a dc ofs => [packMem 0x7B g d.code a.code dc.toNat ofs.code]
  | .rel g d a dc ofs => [packMem 0x7C g d.code a.code dc.toNat ofs.code]
  | .mfs g d nr => [packBasic 0x7D g d.code nr.toNat 0x7C]
  | .mts g nr b => [packBasic 0x7E g 0x7F nr.toNat b.code]
  | .idivS32 g d a b => [packBasic 0x7F g d.code a.code b.code, packExt 0x00 0x7C 0]
  | .idivZ32 g d a b => [packBasic 0x7F g d.code a.code b.code, packExt 0x01 0x7C 0]
  | .iremS32 g d a b => [packBasic 0x7F g d.code a.code b.code, packExt 0x02 0x7C 0]
  | .iremZ32 g d a b => [packBasic 0x7F g d.code a.code b.code, packExt 0x03 0x7C 0]
  | .sel g d a b w n p => [packBasic 0x7F g d.code a.code b.code, packExt 0x04 0x7C ((b2n w) * 16 + (b2n n) * 8 + p.val)]
  | .icmpS64 g pt pf a b cond => [packCmp 0x7F g pt.val pf.val a.code b.code, packExt 0x05 0x7C (cond.toNat)]
  | .icmpZ64 g pt pf a b cond => [packCmp 0x7F g pt.val pf.val a.code b.code, packExt 0x06 0x7C (cond.toNat)]
  | .iadd3S32 g d a b c => [packBasic 0x7F g d.code a.code b.code, packExt 0x07 c.code 0]
  | .shlZ64 g d a b => [packBasic 0x7F g d.code a.code b.code, packExt 0x08 0x7C 0]
  | .shrZ64 g d a b => [packBasic 0x7F g d.code a.code b.code, packExt 0x09 0x7C 0]
  | .shrS64 g d a b => [packBasic 0x7F g d.code a.code b.code, packExt 0x0A 0x7C 0]
  | .andZ64 g d a b => [packBasic 0x7F g d.code a.code b.code, packExt 0x0B 0x7C 0]
  | .orZ64 g d a b => [packBasic 0x7F g d.code a.code b.code, packExt 0x0C 0x7C 0]
  | .xorZ64 g d a b => [packBasic 0x7F g d.code a.code b.code, packExt 0x0D 0x7C 0]
  | .popcZ64 g d a => [packBasic 0x7F g d.code a.code 0x7C, packExt 0x0E 0x7C 0]
  | .clzZ64 g d a => [packBasic 0x7F g d.code a.code 0x7C, packExt 0x0F 0x7C 0]
  | .ffma3F32 g d a b c => [packBasic 0x7F g d.code a.code b.code, packExt 0x10 c.code 0]
  | .ffma3F16x2 g d a b c => [packBasic 0x7F g d.code a.code b.code, packExt 0x11 c.code 0]
  | .ffma3Bf16x2 g d a b c => [packBasic 0x7F g d.code a.code b.code, packExt 0x12 c.code 0]
  | .faddF32Rm g d a b rm => [packBasic 0x7F g d.code a.code b.code, packExt 0x13 0x7C (rm.toNat)]
  | .fmulF32Rm g d a b rm => [packBasic 0x7F g d.code a.code b.code, packExt 0x14 0x7C (rm.toNat)]
  | .dotsS16x2 g d a b c => [packBasic 0x7F g d.code a.code b.code, packExt 0x15 c.code 0]
  | .fcmpF16 g pt pf a b h cc => [packCmp 0x7F g pt.val pf.val a.code b.code, packExt 0x16 0x7C ((b2n h) * 4 + cc.toNat)]
  | .fcmpBf16 g pt pf a b h cc => [packCmp 0x7F g pt.val pf.val a.code b.code, packExt 0x17 0x7C ((b2n h) * 4 + cc.toNat)]
  | .cvtWide g d a dst src rm sat spos dpos => [packBasic 0x7F g d.code a.code 0x7C, packExt 0x18 0x7C (dst.toNat * 8192 + src.toNat * 512 + rm.toNat * 64 + sat.toNat * 16 + spos.toNat * 4 + dpos.toNat)]
  | .ldType g d a dc ofs cp ty => [packMem 0x7F g d.code a.code dc.toNat ofs.code, packExt 0x20 0x7C (cp.toNat * 8 + ty.toNat)]
  | .stType g d a dc ofs cp ty => [packMem 0x7F g d.code a.code dc.toNat ofs.code, packExt 0x21 0x7C (cp.toNat * 8 + ty.toNat)]
  | .atom g d a dc ofs c scope ty op => [packMem 0x7F g d.code a.code dc.toNat ofs.code, packExt 0x22 c.code (scope.toNat * 128 + ty.toNat * 16 + op.toNat)]
  | .ldres g d a dc ofs w => [packMem 0x7F g d.code a.code dc.toNat ofs.code, packExt 0x23 0x7C ((b2n w))]
  | .stcon g d a dc ofs c w => [packMem 0x7F g d.code a.code dc.toNat ofs.code, packExt 0x24 c.code ((b2n w))]
  | .fence g dc scope => [packMem 0x7F g 0x7F 0x7C dc.toNat 0, packExt 0x25 0x7C (scope.toNat)]
  | .drainnt g => [packBasic 0x7F g 0x7F 0x7C 0x7C, packExt 0x26 0x7C 0]
  | .drainst g => [packBasic 0x7F g 0x7F 0x7C 0x7C, packExt 0x27 0x7C 0]
  | .xcopyIn g d a dc c aq rl scope => [packMem 0x7F g d.code a.code dc.toNat 0, packExt 0x28 c.code ((b2n rl) * 1024 + (b2n aq) * 512 + scope.toNat * 32)]
  | .xcopyOut g d a dc c aq scope t2 => [packMem 0x7F g d.code a.code dc.toNat 0, packExt 0x28 c.code ((b2n aq) * 512 + scope.toNat * 32 + t2.toNat + 256)]
  | .xmcast g d a dc c aq rl scope rb => [packMem 0x7F g d.code a.code dc.toNat 0, packExt 0x29 c.code ((b2n rl) * 1024 + (b2n aq) * 512 + scope.toNat * 32 + rb.toNat)]
  | .fread g d a dc c rl scope => [packMem 0x7F g d.code a.code dc.toNat 0, packExt 0x2A c.code ((b2n rl) * 8 + scope.toNat)]
  | .fwrite g d a dc c t2 => [packMem 0x7F g d.code a.code dc.toNat 0, packExt 0x2B c.code (t2.toNat)]
  | .waitc g d a b w => [packBasic 0x7F g d.code a.code b.code, packExt 0x2C 0x7C ((b2n w))]
  | .fork g d a dc c => [packMem 0x7F g d.code a.code dc.toNat 0, packExt 0x2D c.code 0]
  | .join g d a dc => [packMem 0x7F g d.code a.code dc.toNat 0, packExt 0x2E 0x7C 0]
  | .feed g d a dc c => [packMem 0x7F g d.code a.code dc.toNat 0, packExt 0x2F c.code 0]
  | .take g d t q c n => [packBasic 0x7F g d.code 0x7C 0x7C, packExt 0x30 0x7C (n.toNat * 8192 + c.toNat * 64 + q.toNat * 16 + t.toNat)]
  | .barInit g a k => [packBasic 0x7F g 0x7F a.code 0x7C, packExt 0x31 0x7C (k.toNat * 8)]
  | .barArv g k => [packBasic 0x7F g 0x7F 0x7C 0x7C, packExt 0x31 0x7C (k.toNat * 8 + 1)]
  | .barAddr g d k => [packBasic 0x7F g d.code 0x7C 0x7C, packExt 0x31 0x7C (k.toNat * 8 + 2)]
  | .arrive g a dc => [packMem 0x7F g 0x7F a.code dc.toNat 0, packExt 0x32 0x7C 0]
  | .bwait g d a dc => [packMem 0x7F g d.code a.code dc.toNat 0, packExt 0x33 0x7C 0]
  | .caladv g a => [packBasic 0x7F g 0x7F a.code 0x7C, packExt 0x34 0x7C 0]
  | .caladvAllow g a => [packBasic 0x7F g 0x7F a.code 0x7C, packExt 0x34 0x7C (1)]
  | .spawn g d a dc => [packMem 0x7F g d.code a.code dc.toNat 0, packExt 0x35 0x7C 0]
  | .lnsend g d a b => [packBasic 0x7F g d.code a.code b.code, packExt 0x38 0x7C 0]
  | .lnclr g d a => [packBasic 0x7F g d.code a.code 0x7C, packExt 0x39 0x7C 0]
  | .bkpt g n => [packBasic 0x7F g 0x7F 0x7C 0x7C, packExt 0x40 0x7C (n.toNat)]
  | .svcall g n => [packBasic 0x7F g 0x7F 0x7C 0x7C, packExt 0x41 0x7C (n.toNat)]
  | .tret g => [packBasic 0x7F g 0x7F 0x7C 0x7C, packExt 0x42 0x7C 0]
  | .termRay g => [packBasic 0x7F g 0x7F 0x7C 0x7C, packExt 0x43 0x7C 0]
  | .termBeam g => [packBasic 0x7F g 0x7F 0x7C 0x7C, packExt 0x43 0x7C (1)]
  | .mma g a b scope rl aq db da t => [packBasic 0x7F g 0x7F a.code b.code, packExt 0x60 0x7C (scope.toNat * 16384 + (b2n rl) * 8192 + (b2n aq) * 4096 + db.toNat * 256 + da.toNat * 16 + t.toNat)]
  | .mmaz g a b scope rl aq db da t => [packBasic 0x7F g 0x7F a.code b.code, packExt 0x61 0x7C (scope.toNat * 16384 + (b2n rl) * 8192 + (b2n aq) * 4096 + db.toNat * 256 + da.toNat * 16 + t.toNat)]
  | .mzero g t => [packBasic 0x7F g 0x7F 0x7C 0x7C, packExt 0x62 0x7C (t.toNat)]
  | .mhaar g a b scope rl t => [packBasic 0x7F g 0x7F a.code b.code, packExt 0x63 0x7C (scope.toNat * 16384 + (b2n rl) * 8192 + t.toNat)]
  | .mihaarTile g scope rl t => [packBasic 0x7F g 0x7F 0x7C 0x7C, packExt 0x64 0x7C (scope.toNat * 16384 + (b2n rl) * 8192 + t.toNat + 16)]
  | .mihaar g a b scope rl => [packBasic 0x7F g 0x7F a.code b.code, packExt 0x64 0x7C (scope.toNat * 16384 + (b2n rl) * 8192)]
  | .mthrSet g a i => [packBasic 0x7F g 0x7F a.code 0x7C, packExt 0x65 0x7C (i.toNat)]
  | .mthrTile g a scope rl => [packBasic 0x7F g 0x7F a.code 0x7C, packExt 0x65 0x7C (scope.toNat * 16384 + (b2n rl) * 8192 + 16)]
  | .msig g a => [packBasic 0x7F g 0x7F a.code 0x7C, packExt 0x66 0x7C 0]
  | .mwait g a b e => [packBasic 0x7F g 0x7F a.code b.code, packExt 0x67 0x7C ((b2n e))]
  | .mdesc g a b j => [packBasic 0x7F g 0x7F a.code b.code, packExt 0x68 0x7C (j.toNat)]
  | .mend g => [packBasic 0x7F g 0x7F 0x7C 0x7C, packExt 0x69 0x7C 0]
  | .bankmodeSelect _ => []
  | .bankmodeSwitch _ => []
  | .bankSwitchStep _ _ => []
  | .clauseEntry _ _ => []
  | .issueStarvation _ _ => []
  | .yieldTimeout _ _ => []
  | .slotStallEnd _ _ => []
  | .pageWalk _ => []
  | .loadComplete _ _ => []
  | .storeCheck _ _ => []
  | .storeFaultRecord _ _ => []
  | .storeFaultReport _ _ => []
  | .atomicComplete _ _ => []
  | .fifoOperationComplete _ _ => []
  | .acqComplete _ _ => []
  | .relComplete _ _ => []
  | .fenceComplete _ _ => []
  | .dirtyWriteBack _ _ _ => []
  | .copyAccept _ _ => []
  | .copyChunkComplete _ _ _ _ => []
  | .flashProgramComplete _ _ => []
  | .ldtComplete _ _ => []
  | .sthComplete _ _ => []
  | .feedComplete _ _ => []
  | .barrierArrival _ => []
  | .bwaitComplete _ _ => []
  | .spawnComplete _ _ => []
  | .streamBegin _ => []
  | .tileCommandExecute _ => []
  | .mwaitRelease _ => []
  | .streamEnd _ => []
  | .loupeFrontierReport _ _ => []
  | .loupeWaitReport _ _ => []
  | .qdoor _ _ _ => []
  | .queueHeaderPoll _ => []
  | .packetTake _ => []
  | .launchBegin _ => []
  | .barrierPacketEvaluate _ => []
  | .aggregatorMerge _ => []
  | .pageEntryTake _ _ => []
  | .pageTranslate _ _ => []
  | .flashSense _ _ => []
  | .ldpcDecode _ _ => []
  | .pageFetch _ _ => []
  | .pageDecompress _ _ => []
  | .pageTransform _ _ => []
  | .windowCarve _ _ => []
  | .pageLanding _ _ => []
  | .dispatcherBankTake _ _ => []
  | .beamPlace _ _ => []
  | .gangPlace _ _ => []
  | .beamComplete _ _ => []
  | .launchComplete _ => []
  | .sliceExpiry _ _ => []
  | .preemptDecision _ _ _ => []
  | .drainTimeout _ _ => []
  | .beamSave _ _ => []
  | .beamFlush _ _ => []
  | .replyIntoSaveRecord _ _ _ => []
  | .beamResume _ _ => []
  | .lanternRecord _ => []
  | .lanternDeliver _ _ => []
  | .evpop _ => []
  | .sffree _ _ => []
  | .raycmdSelect _ _ => []
  | .raycmdResume _ _ => []
  | .raycmdResumeSkip _ _ => []
  | .raycmdPark _ _ => []
  | .raycmdTermRay _ _ => []
  | .raycmdTermBeam _ _ => []
  | .raycmdTermCtx _ _ => []
  | .xlate _ _ => []
  | .tlbinvPage _ _ _ => []
  | .tlbinvContext _ _ => []
  | .tlbinvAll _ => []
  | .raywin _ _ _ _ => []
  | .createCtx _ _ => []
  | .destroyCtx _ _ => []
  | .createQueue _ _ => []
  | .destroyQueue _ _ => []
  | .clearHalt _ _ => []
  | .suspend _ _ => []
  | .resume _ _ => []
  | .confirmBoot _ _ => []
  | .stageImage _ _ => []
  | .setPowerCap _ _ => []
  | .readLog _ _ => []
  | .flashStatus _ _ => []
  | .assignFlash _ _ => []
  | .eraseFlash _ _ => []
  | .nonce _ _ => []
  | .releaseOwner _ _ => []
  | .claimOwner _ _ => []
  | .lnpay _ _ _ => []
  | .lndoor _ _ _ => []
  | .registerWriteOther _ _ _ => []
  | .trustLoss _ => []
  | .moduleReset  => []
  | .watchdogExpiry  => []
  | .imageBlockFill _ => []
  | .sharedBootRetry  => []
  | .patrolScrub _ _ => []
  | .flitCrcFail _ => []
  | .thermalThrottle _ => []
  | .thermalTrip  => []
  | .spdmRequest _ _ => []
  | .peerRequest _ _ => []

/-- The words of an instruction: its word, its extension word, its literal (R88). (DEDUCED, log entry 11) -/
def encode (i : Instr) : List Word := i.head ++ (if i.usesLit then [i.litVal] else [])

/-! ### The host's reading of the opcode table's words -/

/-- The instruction the decoder reads from nbits bits numbered as the table numbers them: bit 0 is the least
significant bit of the first slot, and a later slot's bits count on from it. The bits above nbits are 0, up to
the three slots of the longest instruction. -/
def tableSlots (nbits w : Nat) : List Word :=
  let v := w % 2 ^ nbits
  [BitVec.ofNat 32 v, BitVec.ofNat 32 (v / 2 ^ 32), BitVec.ofNat 32 (v / 2 ^ 64)]

/-- The decoder on a table word. -/
def decodeTableWord (nbits w : Nat) : Option Instr :=
  match decode (tableSlots nbits w) with
  | .ok (i, _) => some i
  | .error _ => none

end Sys2Proof
end

