-- ==== Sys2Proof/Config.lean ====
section
/-!
DEFINITION. What the spec leaves open, as constants without a body: nothing can be proved of their values, so what
is proved holds for every value. Those that take a number take the counter State.tick, a fresh number each time;
the others are functions of the operands, because one instruction gives the same result every time (R52).
DESIGN CHOICE, safe: log entry 7 lists them.
-/
namespace Sys2Proof.Config

/-- What comes next (R417): a slot or an event of the device; none where it is an outside agent's turn. -/
opaque turn : Nat → Option Turn
/-- Which of several places the firmware takes (R329). -/
opaque pick : Nat → Nat
/-- How many clocks pass before it (R417). -/
opaque clocks : Nat → Nat
/-- Where a transcendental's result lies within its error bound (R151): instruction, operand; 0 to 2^20. -/
opaque within : Nat → BitVec 32 → Nat
/-- What a write-back meets (R189, R273): an odd value an uncorrectable error; otherwise 0 modulo 4 where a translation still
held in a TLB stands for the changed table. -/
opaque writeBack : Nat → Nat
/-- An access meets an uncorrectable memory error, or one that is corrected (R413). -/
opaque eccError : Nat → Bool
opaque eccCorrected : Nat → Bool
/-- The bank among those in CACHE mode that holds a line of the cluster cache (R280), a hash that the spec does not give. -/
opaque lineHash : Nat → Nat
/-- An LDPC decode corrects its codeword (R317). -/
opaque corrects : Nat → Bool
/-- Channel and physical page of a flash page index (R317, R403): firmware policy. -/
opaque flashChannel : Nat → Nat
opaque flashPhysical : Nat → Nat
/-- A programming of a flash page fails (R192). -/
opaque programFails : Nat → Bool
/-- A byte of a copy chunk that was not set when the copy failed (R192), and any other unspecified byte. -/
opaque byte : Nat → BitVec 8
/-- The value a store leaves in GEN of a bound object (R187). -/
opaque gen : Nat → BitVec 64
/-- Random bytes of the device's random source (R398, R403). (DESIGN CHOICE, log entry 66) -/
opaque random : Nat → Nat → BitVec 8
/-- Whether a signature over a message verifies under a key (R407, R409): key, message, signature; and SHAKE256, 32 bytes
(R406, R407, R411). (DESIGN CHOICE, log entry 66) -/
opaque verifies : List (BitVec 8) → List (BitVec 8) → List (BitVec 8) → Bool
opaque shake256 : List (BitVec 8) → List (BitVec 8)
/-- The two maker key digests in mask ROM (R407). -/
opaque romDigest : Nat → List (BitVec 8)
/-- The patch entries of a patch section (R405) and the value of a policy parameter in a policy section (R353), whose
layouts the spec does not give: 0 FLUSHLO, 1 DRAINHI, 2 DRAINMAX. -/
opaque patchEntries : List (BitVec 8) → List (BitVec 12 × Nat)
opaque policy : List (BitVec 8) → Nat → Nat
/-- The SPDM measurement block over what an index measures (R400), and what the microcode ROM holds, and the
configuration records as bytes: a function of what they say, as numbers, and of the owner key. -/
opaque measure : Nat → List (BitVec 8) → List (BitVec 8)
opaque microcode : List (BitVec 8)
opaque configBytes : List Nat → List (BitVec 8) → List (BitVec 8)
/-- The module's serial number and part revision in IDENT (R396). -/
opaque serial : BitVec 32
opaque revision : BitVec 16
/-- A peer module's link is up and its route allowed, and the status its lantern unit answers (R365). -/
opaque remoteStatus : Nat → Nat
/-- The Silarn link that a route to a module takes (R415): link modulo 18. -/
opaque route : Nat → Nat
/-- The wear figures of FLASH_STATUS (R404): field number; 0 is the initial spare. And whether the firmware retires a block as a
page is programmed. -/
opaque wear : Nat → Nat
opaque retires : Nat → Bool
/-- By how much a programming or an erase raises a program-erase count of FLASH_STATUS (R404). -/
opaque wearUp : Nat → Nat
/-- The SRC code of an error in the control store (R413, R414), for which the spec lists none. -/
opaque controlStoreSrc : Nat
/-- The value a read of racing or unspecified data returns (R68, R282). -/
opaque word : Nat → BitVec 32
/-- A retrain of a link succeeds (R415). -/
opaque retrains : Nat → Bool
/-- A visit of the patrol scrub finds nothing (0), a corrected error (1) or an uncorrectable one (2) (R413). -/
opaque scrub : Nat → Nat

end Sys2Proof.Config
end

