-- ==== Sys2Proof/Machine/Memory.lean ====
section
/-!
DEFINITION. Memory below the instructions: translation (R273 to R275), the caches with their written-byte masks and
write-backs (R276 to R281), reads and writes of bytes at each point of coherence (R289), scratchpad with its
granule tags (R212, R260) and FIFO banks (R270), reservations lost (R185), reach (R163).
-/
namespace Sys2Proof.Machine

/-! ### Physical memory and its homes (R281) -/

/-- The end of the HBM addresses: 384 GiB (R281). -/
def hbmEnd : Nat := 384 * 2 ^ 30
/-- The stack that the log names for an HBM address (R2, R281, R414). (DESIGN CHOICE, log entry 106) -/
def stackOf (addr : Nat) : Nat := addr / (48 * 2 ^ 30)
/-- The die whose L2 is the home of a physical address; host memory has die 0 (R281). -/
def homeDie (host : Bool) (addr : Nat) : Nat := if host then 0 else addr / (96 * 2 ^ 30)
/-- The key of a physical byte in the caches: host addresses stand above all HBM addresses. -/
def physKey (host : Bool) (addr : Nat) : Nat := if host then 2 ^ 56 + addr else addr
def keyHost (k : Nat) : Bool := decide (2 ^ 56 ≤ k)
def keyAddr (k : Nat) : Nat := if 2 ^ 56 ≤ k then k - 2 ^ 56 else k
/-- A byte of memory proper. -/
def State.memByte (s : State) (k : Nat) : Byte := if keyHost k then s.host.read (keyAddr k) else s.hbm.read (keyAddr k)
def State.setMemByte (s : State) (k : Nat) (b : Byte) : State :=
  if keyHost k then { s with host := s.host.write (keyAddr k) b } else { s with hbm := s.hbm.write (keyAddr k) b }
/-- The L2 of a die. -/
def State.l2Of (s : State) (die : Nat) : Cache := SMap.get s.l2 Cache.empty die
def State.setL2 (s : State) (die : Nat) (c : Cache) : State := { s with l2 := SMap.put s.l2 die c }
def keyDie (k : Nat) : Nat := homeDie (keyHost k) (keyAddr k)
/-- A byte as its home L2 gives it. -/
def State.homeByte (s : State) (k : Nat) : Byte :=
  match SMap.get? (s.l2Of (keyDie k)).bytes k with
  | some (b, _) => b
  | none => s.memByte k
/-- The aligned 8 bytes that a byte lies in, which an access reads or writes whole (R288). -/
def unitKeys (k : Nat) : List Nat := (List.range 8).map (k / 8 * 8 + ·)
/-- A byte that a cache gives: one written in it, or a clean one of an 8-byte unit that it holds whole. Of a unit that it holds in
part, as a store without a fill or an atomic leaves it, the clean bytes are taken from below, beneath the written ones, so that an
access of the unit does not mix them with a later write of the whole (R276, R288). (DESIGN CHOICE, log entry 18) -/
def Cache.gives (c : Cache) (k : Nat) : Option Byte :=
  match SMap.get? c.bytes k with
  | some (b, w) => if w || (unitKeys k).all (SMap.has c.bytes) then some b else none
  | none => none
/-- A byte as a cluster's cache gives it (R280). (DESIGN CHOICE, log entry 18) -/
def State.clusterByte (s : State) (cl k : Nat) : Byte := ((s.cluster cl).cache.gives k).getD (s.homeByte k)
/-- A byte as a core's L1 gives it (R276). (DESIGN CHOICE, log entry 18) -/
def State.l1Byte (s : State) (core k : Nat) : Byte := ((s.core core).l1.gives k).getD (s.clusterByte (clusterOf core) k)
/-- A number read at the homes, little-endian. -/
def State.homeN (s : State) (k n : Nat) : Nat := leNat ((List.range n).map fun i => s.homeByte (k + i))

/-! ### Reservations (R185) -/

/-- Lanes other than the writer lose a reservation of a granule, on the cores that a condition names.
(DEDUCED, log entry 21) -/
def State.loseResv (s : State) (g : Granule) (cores : Nat → Bool) (writer : Option (Nat × Nat × Nat)) : State :=
  { s with cores := SMap.mapVals (fun k c => if cores k then
      { c with rays := SMap.mapVals (fun rs r =>
          { r with resv := r.resv.zipIdx.map fun (x, i) =>
              if x = some g ∧ writer ≠ some (k, rs, i) then none else x }) c.rays } else c) s.cores }

/-- The granule of a physical byte. -/
def physGranule (k : Nat) : Granule := ⟨false, keyHost k, keyAddr k / 64⟩

/-! ### Translation (R273 to R275) -/

/-- A table entry that a walk refuses: V = 0 or a reserved bit set. -/
def pteBad (e : Nat) : Bool := nbits e 0 0 == 0 || nbits e 63 52 != 0 || nbits e 7 6 != 0 || nbits e 3 3 != 0

/-- A leaf entry as a translation of a page of a size; none where its ADDR has bits below the page size. -/
def pteLeaf (ctx va size e : Nat) (w : Bool) : Option TlbEntry :=
  let pa := nbits e 51 8 * 256
  if pa % size ≠ 0 then none
  else some ⟨ctx, va / size * size, size, pa, nbits e 5 5 == 1, nbits e 4 4 == 1, w && nbits e 2 2 == 1⟩

/-- One level of the walk: the entry's number at a table, then what follows it. A table beyond HBM reads as 0, which has V = 0; the index
is added to a table's address that is not aligned to its size. (DESIGN CHOICE, log entry 9) -/
def State.walkLevel (s : State) (ctx va table lo count : Nat) (leafSize : Option Nat)
    (next : Nat → Bool → Option TlbEntry) (w : Bool) : Option TlbEntry :=
  let e := s.homeN (table + 8 * (va / 2 ^ lo % count)) 8
  if pteBad e then none
  else if nbits e 1 1 == 1 then
    match leafSize with
    | some size => pteLeaf ctx va size e w
    | none => none
  else next (nbits e 51 8 * 256) (w && nbits e 2 2 == 1)

/-- The four-level walk (R274, R275): the translation, or none for a translation fault. -/
def State.walk (s : State) (ctx va : Nat) : Option TlbEntry :=
  match SMap.get? s.ctxs ctx with
  | none => none
  | some c =>
    if 2 ^ 56 ≤ va then none
    else
      s.walkLevel ctx va c.root 39 131072 none (fun t1 w1 =>
        s.walkLevel ctx va t1 30 512 (some (2 ^ 30)) (fun t2 w2 =>
          s.walkLevel ctx va t2 21 512 (some (2 ^ 21)) (fun t3 w3 =>
            s.walkLevel ctx va t3 16 32 (some (2 ^ 16)) (fun _ _ => none) w3) w2) w1) true

/-- The core's TLB entry that holds a page of a context. -/
def Core.tlbFind (c : Core) (ctx va : Nat) : Option TlbEntry :=
  c.tlb.find? fun e => e.ctx == ctx && decide (e.va ≤ va) && decide (va < e.va + e.size)

/-- A filled entry; with 256 held the oldest is evicted (R273). -/
def Core.tlbAdd (c : Core) (e : TlbEntry) : Core := { c with tlb := (e :: c.tlb).take 256 }

/-- A translation of a device engine, which has no TLB entry to miss: through the core's TLB or the tables (R283, R327). -/
def State.translate (s : State) (core : Option Nat) (ctx va : Nat) : Option TlbEntry :=
  match core with
  | some k => match (s.core k).tlbFind ctx va with
    | some e => some e
    | none => s.walk ctx va
  | none => s.walk ctx va

/-- The physical key of a virtual address in a page. -/
def TlbEntry.key (e : TlbEntry) (va : Nat) : Nat := physKey e.host (e.pa + (va - e.va))

/-- The physical key of a global address for the device's own reads of a context's structures; none if unmapped. -/
def State.keyOf (s : State) (ctx va : Nat) : Option Nat := (s.walk ctx va).map (·.key va)

/-! ### Caches -/

/-- A sector (R276) as the first key of its 256 bytes. -/
def sectorOf (k : Nat) : Nat := k / 256
/-- The keys of a sector. -/
def sectorKeys (sec : Nat) : List Nat := (List.range 256).map fun i => sec * 256 + i

/-- Fills the bytes of a sector that a cache does not give from the level below (R276). -/
def Cache.fill (c : Cache) (sec : Nat) (below : Nat → Byte) : Cache :=
  { c with bytes := (sectorKeys sec).foldl (fun m k => if (c.gives k).isSome then m else SMap.put m k (below k, false)) c.bytes }
/-- Writes a byte under its mask (R276). -/
def Cache.write (c : Cache) (k : Nat) (b : Byte) (tag : Option StoreTag) : Cache :=
  { c with bytes := SMap.put c.bytes k (b, true),
           tags := match tag with | some t => SMap.put c.tags (sectorOf k) t | none => c.tags }
/-- Drops a byte. -/
def Cache.dropByte (c : Cache) (k : Nat) : Cache := { c with bytes := SMap.del c.bytes k }
/-- The written bytes of a sector (R278). -/
def Cache.dirty (c : Cache) (sec : Nat) : List (Nat × Byte) :=
  (sectorKeys sec).filterMap fun k => match SMap.get? c.bytes k with | some (b, true) => some (k, b) | _ => none
/-- A sector written back stays, clean. -/
def Cache.clean (c : Cache) (sec : Nat) : Cache :=
  { c with bytes := c.bytes.map fun (k, (b, w)) => (k, (b, w && sectorOf k != sec)), tags := SMap.del c.tags sec }
/-- Drops the clean bytes that a condition names (R296, R300). A line all of whose bytes are dropped keeps its way.
(DESIGN CHOICE, log entry 19) -/
def Cache.dropClean (c : Cache) (f : Nat → Bool) : Cache :=
  { c with bytes := c.bytes.filter fun (k, (_, w)) => w || !f k }
/-- The sectors that hold written bytes. -/
def Cache.dirtySectors (c : Cache) : List Nat := (c.bytes.filterMap fun (k, (_, w)) => if w then some (sectorOf k) else none).eraseDups

/-- The record of a write-back fault (R383): KIND 0x3. -/
def wbRecord (t : StoreTag) (cause k : Nat) : BitVec 256 :=
  eventRec t.ctx t.rslot t.rayId t.role false 3 0 cause 0 t.pc 0 (keyAddr k)

/-- What a write-back of a sector ends with: a fault writes nothing and is recorded against the last store (R189, R383). -/
def State.wbFault (s : State) (tag : Option StoreTag) (cause k : Nat) : State :=
  match tag with
  | some t => s.updCore t.core fun c => { c with wbWait := c.wbWait ++ [(wbRecord t cause k, t)] }
  | none => s

/-- The interface of a context has lost trust (R401): nothing more is written to host memory for it. -/
def State.cutOff (s : State) (ctx : Nat) : Bool := match SMap.get? s.ctxs ctx with | some c => c.cut | none => true
/-- A write to a physical byte that a loss of trust holds back. -/
def State.cutAt (s : State) (tag : Option StoreTag) (k : Nat) : Bool :=
  keyHost k && (match tag with | some t => s.cutOff t.ctx | none => false)

/-! ### Errors of memory (R413) -/

/-- The words whose poison n bytes of HBM or of a cluster's SRAM meet. -/
def hbmWords (k n : Nat) : List (Nat × Nat) := if keyHost k then [] else (List.range (n / 32 + 2)).filterMap fun j =>
  if k / 32 + j ≤ (k + n - 1) / 32 then some (0, k / 32 + j) else none
def sramWords (cl ofs n : Nat) : List (Nat × Nat) := (List.range (n / 8 + 2)).filterMap fun j =>
  if ofs / 8 + j ≤ (ofs + n - 1) / 8 then some (cl + 1, ofs / 8 + j) else none
/-- Some of the words are poisoned. -/
def State.poisoned (s : State) (ws : List (Nat × Nat)) : Bool := !s.poison.isEmpty && ws.any fun w => s.poison.contains w

/-- An access meets the errors of the words it reads: data already poisoned is uncorrectable; an error met now is logged, and
an uncorrectable one poisons one of the words, which one being open. Answers whether the access meets an uncorrectable one. src and at_ are the
log's SRC and WHERE. (DESIGN CHOICE, log entry 95) -/
def State.meetError (s : State) (ws : List (Nat × Nat)) (src addr at_ : Nat) : State × Bool :=
  let bad := Config.eccError s.tick
  let fixed := Config.eccCorrected s.tick
  if s.poisoned ws then (s.bump, true)
  else if bad then ({ s.bump with poison := (ws.drop (Config.pick s.tick % max 1 ws.length)).take 1 ++ s.poison }.log addr src 2 at_, true)
  else if fixed then (s.bump.log addr src 1 at_, false)
  else (s.bump, false)

/-- A read of n bytes at a key meets their errors: SRC 0x05 and the stack of an HBM address; host memory has none of the module's
(R413, R414). -/
def State.meetHbm (s : State) (k n : Nat) : State × Bool :=
  if keyHost k then (s, false) else s.meetError (hbmWords k n) 0x05 (keyAddr k) (stackOf (keyAddr k))

/-! ### Write-backs (R189, R278, R383) -/

/-- The page by which a store reached a sector is still writable: the tables map it there with W, or a translation held in
the writer's TLB does and is still in use (R273). -/
def State.stillWritable (s : State) (t : StoreTag) (sec : Nat) (old : Bool) : Bool :=
  let same (e : TlbEntry) : Bool := e.w && sectorOf (e.key t.va) == sec
  (match s.walk t.ctx t.va with | some e => same e | none => false) ||
    (old && (match (s.core t.core).tlbFind t.ctx t.va with | some e => same e | none => false))

/-- What the write-back of a sector meets (R189): nothing (0), a page no longer writable (1), or an uncorrectable error (2),
which is logged. (DESIGN CHOICE, log entry 20) -/
def State.wbMeets (s : State) (tag : Option StoreTag) (sec src at_ : Nat) : State × Nat :=
  let n := Config.writeBack s.tick
  if n % 2 = 1 then (s.bump.log (keyAddr (sec * 256)) src 2 at_, 2)
  else if s.poisoned (hbmWords (sec * 256) 256) then (s.bump, 2)
  else match tag with
    | some t => if s.stillWritable t sec (n % 4 == 0) then (s.bump, 0) else (s.bump, 1)
    | none => (s.bump, 0)

/-- A write-back's cause (R383). -/
def wbCause (out : Nat) : Nat := if out = 1 then 0x73 else 0x74

/-- A sector of an L2 is written back to memory: not to the host for a context that has lost its trust (R401). -/
def State.wbL2 (s : State) (die sec : Nat) : State × Nat :=
  let c := s.l2Of die
  match c.dirty sec with
  | [] => (s, 0)
  | ds =>
    let tag := SMap.get? c.tags sec
    let (s, out) := s.wbMeets tag sec 0x04 (stackOf (keyAddr (sec * 256)))
    let s := s.setL2 die (c.clean sec)
    if out = 0 then (if s.cutAt tag (sec * 256) then s else ds.foldl (fun s (k, b) => s.setMemByte k b) s, 0)
    else (s.wbFault tag (wbCause out) (sec * 256), out)

/-- A cache without a line. -/
def Cache.dropLine (c : Cache) (line : Nat) : Cache :=
  { c with lines := c.lines.filter (· != line), bytes := c.bytes.filter fun (k, _) => k / 1024 != line }
/-- The lines of a cache when one of them is used, made most recently used. -/
def Cache.using (c : Cache) (line : Nat) : List Nat := line :: c.lines.filter (· != line)

/-- A line of a die's L2 is used: 16 ways of 12,288 sets of 1024-byte lines, 192 MiB (R2, R281). A line of a set that holds
more is evicted: written back and dropped. (DESIGN CHOICE, log entry 19) -/
def State.touchL2 (s : State) (die k : Nat) : State :=
  let line := k / 1024
  let lines := (s.l2Of die).using line
  let s1 := s.setL2 die { s.l2Of die with lines := lines }
  if lines.length ≤ 16 then s1
  else
    let others := (lines.drop 1).filter fun x => x % 12288 == line % 12288
    if others.length < 16 then s1
    else
      let victim := others.getD (Config.pick s.tick % 16) line
      let s2 := (List.range 4).foldl (fun s q => (s.wbL2 die (victim * 4 + q)).1) s1.bump
      s2.setL2 die ((s2.l2Of die).dropLine victim)

/-- Writes bytes at the home: into its L2, marked written. -/
def State.writeHome (s : State) (k : Nat) (b : Byte) (tag : Option StoreTag) (writer : Option (Nat × Nat × Nat)) : State :=
  let s := (s.setL2 (keyDie k) ((s.l2Of (keyDie k)).write k b tag)).touchL2 (keyDie k) k
  s.loseResv (physGranule k) (fun _ => true) writer

/-- A sector of a cluster cache is written back to the home L2: the writes are then performed for the other clusters.
(DESIGN CHOICE, log entry 20) -/
def State.wbCluster (s : State) (cl sec : Nat) : State × Nat :=
  let c := (s.cluster cl).cache
  match c.dirty sec with
  | [] => (s, 0)
  | ds =>
    let tag := SMap.get? c.tags sec
    let (s, out) := s.wbMeets tag sec 0x03 cl
    let s := s.updCluster cl fun x => { x with cache := x.cache.clean sec }
    if out = 0 then
      ((ds.foldl (fun s (k, b) =>
        (s.setL2 (keyDie k) ((s.l2Of (keyDie k)).write k b tag)).loseResv (physGranule k) (fun q => clusterOf q != cl) none) s).touchL2
          (keyDie (sec * 256)) (sec * 256), 0)
    else (s.wbFault tag (wbCause out) (sec * 256), out)

/-- The number of a cluster's banks in CACHE mode. -/
def Cluster.cacheBanks (c : Cluster) : Nat :=
  64 - (c.banks.filter fun (b, k) => decide (b < 64) && k.mode != .cache).length

/-- A line of a cluster's cache is used: each bank in CACHE mode holds 128 lines, and a hash chooses a line's bank (R280). A
line of a bank that holds more is evicted. (DESIGN CHOICE, log entry 19) -/
def State.touchCluster (s : State) (cl k : Nat) : State :=
  let line := k / 1024
  let lines := (s.cluster cl).cache.using line
  let s1 := s.updCluster cl fun c => { c with cache := { c.cache with lines := lines } }
  if lines.length ≤ 128 then s1
  else
    let bank (x : Nat) : Nat := Config.lineHash x % (s.cluster cl).cacheBanks
    let others := (lines.drop 1).filter fun x => bank x == bank line
    if others.length < 128 then s1
    else
      let victim := others.getD (Config.pick s.tick % 128) line
      let s2 := (List.range 4).foldl (fun s q => (s.wbCluster cl (victim * 4 + q)).1) s1.bump
      s2.updCluster cl fun c => { c with cache := c.cache.dropLine victim }

/-- A sector of an L1 is written back to the cluster cache with its byte mask (R278). Answers the status of R189.
(DESIGN CHOICE, log entry 19; DESIGN CHOICE, log entry 20) -/
def State.wbL1 (s : State) (core sec : Nat) : State × Nat :=
  let c := (s.core core).l1
  match c.dirty sec with
  | [] => (s, 0)
  | ds =>
    let tag := SMap.get? c.tags sec
    let (s, out) := s.wbMeets tag sec 0x02 (clusterOf core)
    let s := s.updCore core fun x => { x with l1 := x.l1.clean sec }
    if out = 0 then
      ((ds.foldl (fun s (k, b) =>
        (s.updCluster (clusterOf core) fun x => { x with cache := x.cache.write k b tag }).loseResv (physGranule k)
          (fun q => clusterOf q == clusterOf core && q != core) none) s).touchCluster (clusterOf core) (sec * 256), 0)
    else (s.wbFault tag (wbCause out) (sec * 256), out)

/-- The status of two write-backs together. -/
def worse (a b : Nat) : Nat := if a = 0 then b else a

/-- Writes back sectors of an L1, then of its cluster's cache, as deep as a scope asks (R189, R289, R296): beam none,
cluster to the cluster cache, die and package to the home, system host lines to the host. -/
def State.publish (s : State) (core scope : Nat) (secs : List Nat) : State × Nat :=
  secs.foldl (fun (s, st) sec =>
    if scope ≤ 1 then (s, st)
    else
      let (s, a) := s.wbL1 core sec
      if scope = 2 then (s, worse st a)
      else
        let (s, b) := s.wbCluster (clusterOf core) sec
        if scope ≤ 4 || !keyHost (sec * 256) then (s, worse (worse st a) b)
        else
          let (s, c) := s.wbL2 0 sec
          (s, worse (worse (worse st a) b) c)) (s, 0)

/-- The set of the L1 that a line lies in: 128 sets of 1024-byte lines (R276). (DESIGN CHOICE, log entry 19) -/
def l1Set (line : Nat) : Nat := line % 128

/-- A line of the L1 is used: made most recently used, or least recently used for streaming (R276, R279). The least
recently used line of a set with more than 8 is evicted: written back and dropped. (DESIGN CHOICE, log entry 19) -/
def State.touchL1 (s : State) (core k : Nat) (stream : Bool) : State :=
  let line := k / 1024
  let c := (s.core core).l1
  let rest := c.lines.filter (· != line)
  let lines := if stream then rest ++ [line] else line :: rest
  let set := lines.filter fun x => l1Set x == l1Set line
  if set.length ≤ 8 then s.updCore core fun x => { x with l1 := { x.l1 with lines := lines } }
  else
    let victim := (set.filter (· != line)).getLastD line
    let s := (List.range 4).foldl (fun s q => (s.wbL1 core (victim * 4 + q)).1) s
    s.updCore core fun x => { x with l1 := { x.l1 with lines := lines }.dropLine victim }

/-- A sector some of whose bytes a load needs: an L1 that holds them is hit; otherwise it is brought into the home L2, the
cluster cache and, if it may be, the L1, each only where it lacks what the level above asks for (R276, R279, R280). -/
def State.fillSector (s : State) (core sec : Nat) (need : List Nat) (inL1 stream : Bool) : State :=
  let die := keyDie (sec * 256)
  let cl := clusterOf core
  if need.all (fun k => ((s.core core).l1.gives k).isSome) then (if inL1 then s.touchL1 core (sec * 256) stream else s)
  else
    let want := if inL1 then sectorKeys sec else need
    let s :=
      if want.all (fun k => ((s.cluster cl).cache.gives k).isSome) then s
      else
        let s := (if want.all (SMap.has (s.l2Of die).bytes) then s else s.setL2 die ((s.l2Of die).fill sec s.memByte)).touchL2 die (sec * 256)
        s.updCluster cl fun c => { c with cache := c.cache.fill sec s.homeByte }
    let s := s.touchCluster cl (sec * 256)
    if inL1 then (s.updCore core fun c => { c with l1 := c.l1.fill sec (s.clusterByte cl) }).touchL1 core (sec * 256) stream else s

/-- The sectors of n bytes from a key. -/
def sectorsOf (k n : Nat) : List Nat := [sectorOf k, sectorOf (k + n - 1)].eraseDups

/-- Reads n bytes through a core's L1 under a cache policy (R279): the value and the caches after it. -/
def State.loadBytes (s : State) (core : Nat) (host : Bool) (addr n cp : Nat) (nc : Bool) : State × Nat :=
  let k := physKey host addr
  let ks := (List.range n).map (k + ·)
  let v := leNat (ks.map (s.l1Byte core))
  ((sectorsOf k n).foldl (fun s sec =>
    s.fillSector core sec (ks.filter fun q => sectorOf q == sec) (!(cp == 2 || nc)) (cp == 1)) s, v)

/-- Writes bytes through a core's L1 under a cache policy (R276, R279). (DEDUCED, log entry 21) -/
def State.storeBytes (s : State) (core : Nat) (host : Bool) (addr cp : Nat) (nc : Bool) (tag : StoreTag) (lane : Nat)
    (bs : List Byte) : State :=
  let k := physKey host addr
  let s := bs.zipIdx.foldl (fun s (b, i) =>
    let q := k + i
    let s := if cp == 2 || nc then
        (s.updCore core fun c => { c with l1 := c.l1.dropByte q }).updCluster (clusterOf core) fun c =>
          { c with cache := c.cache.write q b (some tag) }
      else s.updCore core fun c => { c with l1 := c.l1.write q b (some tag) }
    s.loseResv (physGranule q) (fun x => if cp == 2 || nc then clusterOf x == clusterOf core else x == core)
      (some (core, tag.rslot, lane))) s
  if cp == 2 || nc then s.touchCluster (clusterOf core) k else s.touchL1 core k (cp == 1)

/-- Writes bytes around the caches at their home (R176): the writer's own copies are dropped. -/
def State.storeNt (s : State) (core : Nat) (host : Bool) (addr : Nat) (tag : StoreTag) (lane : Nat) (bs : List Byte) : State :=
  let k := physKey host addr
  if s.cutAt (some tag) k then s
  else bs.zipIdx.foldl (fun s (b, i) =>
    let q := k + i
    let s := s.updCore core fun c => { c with l1 := c.l1.dropByte q }
    let s := s.updCluster (clusterOf core) fun c => { c with cache := c.cache.dropByte q }
    let s := s.setL2 (keyDie q) ((s.l2Of (keyDie q)).dropByte q)
    (s.setMemByte q b).loseResv (physGranule q) (fun _ => true) (some (core, tag.rslot, lane))) s

/-- Writes bytes at the home by a party without an L1 (R290). -/
def State.storeHome (s : State) (k : Nat) (bs : List Byte) : State :=
  bs.zipIdx.foldl (fun s (b, i) => s.writeHome (k + i) b none none) s

/-- A byte written at the host, for whom reservations other than the writer's are lost. -/
def State.writeHostByte (s : State) (q : Nat) (b : Byte) (writer : Option (Nat × Nat × Nat)) : State :=
  ((s.setL2 0 ((s.l2Of 0).dropByte q)).setMemByte q b).loseResv (physGranule q) (fun _ => true) writer

/-- Writes bytes at system scope: at the home for HBM, in host memory for the host (R289). -/
def State.storeSystem (s : State) (k : Nat) (bs : List Byte) : State :=
  bs.zipIdx.foldl (fun s (b, i) =>
    let q := k + i
    if keyHost q then s.writeHostByte q b none else s.writeHome q b none none) s

/-- Reads bytes at system scope. -/
def State.readSystem (s : State) (k n : Nat) : List Byte :=
  (List.range n).map fun i => if keyHost (k + i) then s.memByte (k + i) else s.homeByte (k + i)

/-! ### Reads and writes of the device itself -/

/-- Reads n bytes of a context's global memory at system scope; none if a byte is unmapped. -/
def State.readVirt (s : State) (ctx va n : Nat) : Option (List Byte) :=
  (List.range n).mapM fun i => (s.keyOf ctx (va + i)).bind fun k => (s.readSystem k 1).head?

/-- Writes bytes of a context's global memory at system scope; unmapped or read-only bytes are not written. -/
def State.writeVirt (s : State) (ctx va : Nat) (bs : List Byte) : State :=
  bs.zipIdx.foldl (fun s (b, i) =>
    match s.walk ctx (va + i) with
    | some e => if e.w then s.storeSystem (e.key (va + i)) [b] else s
    | none => s) s

/-! ### Points of coherence (R289) -/

/-- Writes back and drops the copies of some bytes that stand above a point of coherence on a core's way to it. -/
def State.toPoint (s : State) (core level k n : Nat) : State :=
  let secs := [sectorOf k, sectorOf (k + n - 1)].eraseDups
  secs.foldl (fun s sec =>
    let keys := (List.range n).map (k + ·)
    let s := if level ≤ 1 then s else
      let s := (s.wbL1 core sec).1
      s.updCore core fun c => { c with l1 := keys.foldl Cache.dropByte c.l1 }
    let s := if level ≤ 2 then s else
      let s := (s.wbCluster (clusterOf core) sec).1
      s.updCluster (clusterOf core) fun c => { c with cache := keys.foldl Cache.dropByte c.cache }
    if level ≤ 4 || !keyHost k then s
    else
      let s := (s.wbL2 0 sec).1
      s.setL2 0 (keys.foldl Cache.dropByte (s.l2Of 0))) s

/-- Reads a number at a scope's point of coherence: level 1 the L1, 2 the cluster cache, 3 and 4 the home, 5 the
home, or the host for host memory. -/
def State.pointRead (s : State) (core level k n : Nat) : Nat :=
  leNat ((List.range n).map fun i =>
    if level ≤ 1 then s.l1Byte core (k + i)
    else if level = 2 then s.clusterByte (clusterOf core) (k + i)
    else if level ≤ 4 then s.homeByte (k + i)
    else if keyHost k then s.memByte (k + i) else s.homeByte (k + i))

/-- Writes bytes at a scope's point of coherence, by a lane or by another party. At system scope nothing reaches the host for
a context that has lost its trust (R401). -/
def State.pointWrite (s : State) (core level k : Nat) (tag : Option StoreTag) (writer : Option (Nat × Nat × Nat)) (bs : List Byte) : State :=
  bs.zipIdx.foldl (fun s (b, i) =>
    let q := k + i
    if level ≤ 1 then
      ((s.updCore core fun c => { c with l1 := c.l1.write q b tag }).loseResv (physGranule q) (· == core) writer).touchL1 core q false
    else if level = 2 then
      ((s.updCluster (clusterOf core) fun c => { c with cache := c.cache.write q b tag }).loseResv (physGranule q)
        (fun x => clusterOf x == clusterOf core) writer).touchCluster (clusterOf core) q
    else if level ≤ 4 || !keyHost q then s.writeHome q b tag writer
    else if s.cutAt tag q then s
    else s.writeHostByte q b writer) s

/-! ### Scratchpad, granule tags and FIFO banks -/

/-- The end of a cluster's scratchpad offsets: 8 MiB (R260). -/
def sramEnd : Nat := 0x800000

/-- Writes bytes of scratchpad; each granule's tag byte becomes 0x00 (R212), and reservations of others are lost. -/
def State.writeScratch (s : State) (cl ofs : Nat) (writer : Option (Nat × Nat × Nat)) (bs : List Byte) : State :=
  let s := s.updCluster cl fun c =>
    { c with sram := c.sram.writeBytes ofs bs,
             gtags := c.gtags.filter fun (g, _) => !(decide (ofs / 512 ≤ g) && decide (g ≤ (ofs + bs.length - 1) / 512)) }
  let s := { s with poison := s.poison.filter fun (u, w) => !(u == cl + 1 && decide (ofs ≤ 8 * w) && decide (8 * w + 8 ≤ ofs + bs.length)) }
  ((List.range (bs.length / 64 + 2)).map fun j => ofs / 64 + j).foldl (fun s g =>
    if bs.length = 0 ∨ (ofs + bs.length - 1) / 64 < g then s
    else s.loseResv ⟨true, false, g + cl * 2 ^ 32⟩ (fun _ => true) writer) s

/-- Reads a number of n bytes of scratchpad. -/
def State.scratchN (s : State) (cl ofs n : Nat) : Nat := (s.cluster cl).sram.readN ofs n

/-- The element at an index of a FIFO bank (R270). -/
def fifoAddr (b idx : Nat) : Nat := b * 0x20000 + 4 * idx

/-- Pops n elements of a FIFO bank, the oldest first (R174, R270). -/
def Cluster.pop (c : Cluster) (b n : Nat) : Cluster × List Word :=
  let k := c.bank b
  (c.setBank b { k with head := (k.head + n) % 32768, count := k.count - n },
   (List.range n).map fun i => BitVec.ofNat 32 (c.sram.readN (fifoAddr b ((k.head + i) % 32768)) 4))

/-- Pushes elements into a FIFO bank (R174, R270). -/
def Cluster.pushes (c : Cluster) (b : Nat) (ws : List Word) : Cluster :=
  let k := c.bank b
  let sram := ws.zipIdx.foldl (fun m (w, i) => m.writeBytes (fifoAddr b ((k.tail + i) % 32768)) (leBytes 4 w.toNat)) c.sram
  { c with sram := sram }.setBank b { k with tail := (k.tail + ws.length) % 32768, count := k.count + ws.length }

/-! ### Reach (R163) -/

/-- A scratchpad byte is in reach of a beam: in its own window, in the window of a beam of its gang, or in a SCRATCH
bank of its context that no window holds and that is not being switched, but for what was accepted before the switch (R163, R266). -/
def State.byteReach (s : State) (accepted : Bool) (l pos ofs : Nat) : Bool :=
  match s.beam l pos with
  | none => false
  | some b =>
    let c := s.cluster b.cluster
    let gang := match s.launch l with | some x => x.header.gang | none => 1
    decide (ofs < sramEnd) &&
      (match c.windows.find? fun w => !w.reserved && decide (w.ofs ≤ ofs) && decide (ofs < w.ofs + w.size) with
       | some w => w.l == l && (w.pos == pos || (decide (1 < gang) && w.pos / gang == pos / gang))
       | none =>
         let k := c.bank (ofs / 0x20000)
         k.mode == .scratch && k.owner == some b.ctx && (accepted || !k.sw) && !k.win)

/-- A scratchpad byte is in reach of an access that issues now (R163). -/
def State.byteInReach (s : State) (l pos ofs : Nat) : Bool := s.byteReach false l pos ofs

/-- Every byte of a scratchpad access is in reach (R163). Reach is constant over 32 KiB blocks, so the access's ends
and the blocks between decide. -/
def State.rangeReach (s : State) (accepted : Bool) (l pos ofs n : Nat) : Bool :=
  n == 0 || ((List.range (n / 0x8000 + 2)).all fun j =>
    s.byteReach accepted l pos (min (ofs + n - 1) (if j = 0 then ofs else (ofs / 0x8000 + j) * 0x8000)))

/-- Every byte of an access that issues now is in reach (R163). -/
def State.inReach (s : State) (l pos ofs n : Nat) : Bool := s.rangeReach false l pos ofs n

end Sys2Proof.Machine
end

