-- ==== Sys2Proof/Machine/Issue.lean ====
section
/-!
DEFINITION. Issue: fetching and checking a clause (R88 to R95, R109), when a ray is ready (R24, R25, R95, R204, R209,
R213, R248, R382), the choice of a quarter pipe (R248, R249), lane packing (R245, R246), YIELD (R135), boundaries
(R390) and the loupe's counts (R256).
-/
namespace Sys2Proof.Machine

/-! ### The header of a clause (R93) -/

def hdrCount (w : Word) : Nat := bits w 31 28
def hdrClass (w : Word) : Nat := bits w 27 25
def hdrQuiet (w : Word) : Nat := bits w 24 10
def hdrWait (w : Word) : Nat := bits w 9 4
def hdrThresh (w : Word) : Nat := bits w 3 1
def hdrBw (w : Word) : Bool := bit w 0

/-! ### Checking a clause (R109) -/

/-- The class of an assigned opcode, from its words (R105, R107). -/
def wordClass (w x : Word) : Option Nat :=
  let o := bits w 31 25
  if o < 0x58 then some 0 else if o < 0x68 then some 2 else if o < 0x70 then some 3 else if o < 0x7D then some 1
  else if o < 0x7F then some 6
  else
    let e := bits x 31 24
    if e < 0x18 then some 0 else if e = 0x18 then some 2 else if 0x20 ≤ e ∧ e < 0x28 then some 1
    else if 0x28 ≤ e ∧ e < 0x36 then some 4 else if e = 0x38 ∨ e = 0x39 then some 6
    else if 0x40 ≤ e ∧ e < 0x44 then some 6 else if 0x60 ≤ e ∧ e < 0x6A then some 5 else none

/-- The opcode of a word is one a stream may run (R108). -/
def wordSeqOk (w x : Word) : Bool :=
  let o := bits w 31 25
  let e := bits x 31 24
  if o < 0x7F then decide (o < 0x28) || o == 0x68 || o == 0x69 || o == 0x6A || o == 0x6D
  else decide (e < 0x10) || (decide (0x60 ≤ e) && decide (e < 0x6A))

/-- What the checks of a clause need to know. -/
structure ClauseEnv where
  seq : Bool
  allot : Nat
  span : Nat
  hdr : Nat
  word : Word
  deriving DecidableEq, Repr

/-- The causes that a decoded instruction raises at a slot (R109): left is what follows it in the clause.
(DEDUCED, log entry 10; DEDUCED, log entry 70) -/
def instrCauses (e : ClauseEnv) (k pos left : Nat) (i : Instr) : List Nat :=
  (match i.cls with
    | some c => if c.code ≠ hdrClass e.word ∨ (e.seq && !i.seqOk) ∨ (!e.seq && c.code == 5) then [0x02] else []
    | none => [0x04]) ++
  (if i.fieldsOk then [] else [0x04]) ++
  (if bit e.word (10 + k) && !i.raisesFlags then [0x05] else []) ++
  (if i.lastOnly && decide (0 < left) then [0x06] else []) ++
  (match i.jumpDisp with
    | some n => let t : Int := e.hdr + 4 * n; if t < 0 ∨ (e.span : Int) ≤ t then [0x07] else []
    | none => []) ++
  i.operandCauses ⟨e.seq, e.allot, pos⟩

/-- The causes of the slots from index k on, with the slot they name, until the first that fails.
(DEDUCED, log entry 70) -/
def slotFail (e : ClauseEnv) : (fuel k pos : Nat) → List Word → Option (Nat × List Nat)
  | 0, _, _, _ => none
  | _ + 1, _, _, [] => none
  | fuel + 1, k, pos, w :: t =>
    match decode (w :: t) with
    | .error .noRoom =>
      if isWideWord w && t.isEmpty then some (k + 1, [0x06])
      else match decode (w :: t ++ [0]) with
        | .ok (i, _) => some (k + 1, 0x06 :: instrCauses e k pos 0 i)
        | .error er => some (k + 1, [0x06, er.cause])
    | .error er =>
      some (k + 1, er.cause :: (match wordClass w (t.headD 0) with
        | some c => if er = .reservedField && (c != hdrClass e.word || (e.seq && !wordSeqOk w (t.headD 0)) || (!e.seq && c == 5)) then [0x02] else []
        | none => []))
    | .ok (i, n) =>
      match instrCauses e k pos (t.length + 1 - n) i with
      | [] =>
        -- a QUIET bit over the extension word or the literal (R42)
        match (List.range (n - 1)).find? fun j => bit e.word (10 + k + 1 + j) with
        | some j => some (k + 2 + j, [0x05])
        | none => slotFail e fuel (k + n) (pos + 1) (t.drop (n - 1))
      | cs => some (k + 1, cs)

/-- The causes of the header itself. (DEDUCED, log entry 10) -/
def headerCauses (e : ClauseEnv) : List Nat :=
  let w := e.word
  (if hdrCount w = 0 ∨ hdrClass w = 7 ∨ (hdrThresh w ≠ 0 ∧ hdrWait w = 0) ∨ 2 ^ hdrCount w ≤ hdrQuiet w ∨
      e.span < e.hdr + 4 * (hdrCount w + 1) ∨
      (e.seq ∧ (hdrWait w ≠ 0 ∨ hdrThresh w ≠ 0 ∨ hdrQuiet w ≠ 0 ∨ hdrBw w = true)) then [0x01] else []) ++
  (if (e.seq ∧ hdrClass w ≠ 0 ∧ hdrClass w ≠ 3 ∧ hdrClass w ≠ 5) ∨ (¬ e.seq ∧ hdrClass w = 5) then [0x02] else [])

/-- The least of some causes. -/
def leastCause (cs : List Nat) : Nat := cs.foldl min 0xFF

/-- The check of a whole clause: the lowest slot that fails and its lowest cause (R109). -/
def clauseFail (e : ClauseEnv) (slots : List Word) : Option (Nat × Nat) :=
  match headerCauses e with
  | [] => (slotFail e 16 0 1 slots).map fun (k, cs) => (k, leastCause cs)
  | cs => some (0, leastCause cs)

/-- The instructions of a clause in order. -/
def clauseInstrs : (fuel : Nat) → List Word → List Instr
  | 0, _ => []
  | _ + 1, [] => []
  | fuel + 1, w :: t =>
    match decode (w :: t) with
    | .ok (i, n) => i :: clauseInstrs fuel (t.drop (n - 1))
    | .error _ => []

/-! ### Fetching (R92) -/

/-- The code base of a beam. -/
def State.codeBase (s : State) (l pos : Nat) : Nat := match s.beam l pos with | some b => b.codeBase | none => 0

/-- A word of code as its home gives it. (DEDUCED, log entry 71) -/
def State.codeWord (s : State) (e : TlbEntry) (va : Nat) : Word := BitVec.ofNat 32 (s.homeN (e.key va) 4)

/-- A word of code, found in the TLB or the tables, without an effect on either. -/
def State.peekWord (s : State) (core ctx va : Nat) : Option Word :=
  (s.translate (some core) ctx va).map fun e => s.codeWord e va

/-- What fetching some words through the TLB gives: the words, or the first address that misses.
(DEDUCED, log entry 71) -/
def State.fetchWords (s : State) (core ctx va : Nat) : Nat → Except Nat (List Word)
  | 0 => .ok []
  | n + 1 =>
    match (s.core core).tlbFind ctx va with
    | none => .error va
    | some e =>
      match s.fetchWords core ctx (va + 4) n with
      | .ok ws => .ok (s.codeWord e va :: ws)
      | .error a => .error a

/-- The next clause of a ray as it stands in memory: its header and slots; none where it cannot be seen. -/
def State.peekClause (s : State) (core : Nat) (r : Ray) : Option (Nat × Word × List Word) :=
  match r.th.issue with
  | none => none
  | some a =>
    let ctx := s.ctxOf r.l
    let base := s.codeBase r.l r.pos
    match s.peekWord core ctx (base + a) with
    | none => none
    | some w =>
      match (List.range (hdrCount w)).mapM fun i => s.peekWord core ctx (base + a + 4 * (i + 1)) with
      | none => none
      | some ws => some (a, w, ws)

/-- The environment of a ray's clause. -/
def Ray.env (r : Ray) (hdr : Nat) (w : Word) : ClauseEnv := ⟨false, r.th.allot, r.th.span, hdr, w⟩

/-- Whether a ray's next clause would trap as it is entered (R92, R109, R390). -/
def State.entryTrap (s : State) (core : Nat) (r : Ray) : Bool :=
  match r.th.issue with
  | none => false
  | some a => decide (r.th.span < a + 4) ||
    (match s.peekClause core r with
      | some (a, w, ws) => (clauseFail (r.env a w) ws).isSome
      | none => !r.unresolved.isEmpty)

/-! ### What comes before a clause at a boundary (R366, R390) -/

/-- A vector record's KERNEL, URGENT, HRAY and ENTRY; none where it cannot be read. -/
def State.vecRecord (s : State) (ctx : Nat) (c : Ctx) (v : Nat) : Option Nat := (s.readVirt ctx (c.lntab + 0x40 + 32 * v) 32).map leNat

/-- One age is older than another (R243): release clock, then the position of its beam's entry in the page list, then %rayid. -/
def ageLt (a b : Nat × Nat × Nat) : Bool :=
  decide (a.1 < b.1) || (a.1 == b.1 && (decide (a.2.1 < b.2.1) || (a.2.1 == b.2.1 && decide (a.2.2 < b.2.2))))

/-- The beam's ray of a %rayid, live. -/
def State.liveRay (s : State) (b : Beam) (id : Nat) : Bool :=
  match b.rays[id]? with
  | some k => (match s.ray b.core k with | some r => r.th.live != 0 | none => false)
  | none => false

/-- The handler beam of a vector record: the oldest resident beam of the context whose kernel is KERNEL and whose ray
HRAY has a live lane (R366). -/
def State.handler (s : State) (ctx w : Nat) : Option (Nat × Beam) :=
  let age (k : Nat) (b : Beam) : Nat × Nat × Nat :=
    (match b.rays.head?.bind (s.ray b.core) with | some r => r.releaseClock | none => 0, k % 2 ^ 32, k)
  (s.beams.filter fun (k, b) => b.ctx == ctx && s.liveRay b (nbits w 54 50) &&
    (match s.launch (k / 2 ^ 32) with | some x => x.kernel == nbits w 191 128 | none => false)).foldl (fun m (k, b) =>
      match m with
      | none => some (k, b)
      | some (j, a) => if ageLt (age k b) (age j a) then some (k, b) else some (j, a)) none

/-- A vector is deliverable: pending, enabled, with a handler kernel, in a context that has not faulted (R366, R372). -/
def State.deliverable (s : State) (ctx : Nat) (c : Ctx) (v : Nat) : Option Nat :=
  if !c.faulted && c.lntab != 0 && bit c.lnpend v && bit c.lnmask v then
    match s.vecRecord ctx c v with
    | some w => if nbits w 191 128 = 0 then none else some w
    | none => none
  else none

/-- The lowest vector that is delivered to a ray, with its record. -/
def State.deliveryFor (s : State) (r : Ray) : Option (Nat × Nat) :=
  match SMap.get? s.ctxs (s.ctxOf r.l) with
  | none => none
  | some c => (List.range 64).findSome? fun v =>
    match s.deliverable (s.ctxOf r.l) c v with
    | some w => (match s.handler (s.ctxOf r.l) w with
      | some (k, _) => if k = beamKey r.l r.pos ∧ r.rayId = nbits w 54 50 then some (v, w) else none
      | none => none)
    | none => none

/-- Something other than a clause-entry trap stands before a lantern at the ray's boundary: a report, the loupe, a PARK (R390). -/
def State.boundaryDue (s : State) (r : Ray) : Bool := r.reportDue || s.frontierDue r || s.waitDue r || r.parkReq

/-- A lantern is delivered at the ray's boundary before its next clause (R366). -/
def State.lanternDue (s : State) (r : Ray) : Bool := !r.lantern.inHandler && (s.deliveryFor r).isSome

/-! ### The operations that a clause waits for -/

/-- The TYPE codes of R170 as access sizes. -/
def tySize (ty : Nat) : Nat := match ty with | 0 => 1 | 1 => 1 | 2 => 2 | 3 => 2 | 4 => 4 | 5 => 8 | _ => 16

/-- The access size of an operation: of ACQ, REL and JOIN their object's 64 bytes, of SPAWN a packet's. -/
def Op.size (o : Op) : Nat :=
  match o.kind with
  | .load _ ty _ => tySize ty
  | .store _ ty _ => tySize ty
  | .atom _ ty _ _ => if ty = 2 ∨ ty = 3 then 8 else 4
  | .ldres w => if w then 8 else 4
  | .stcon w => if w then 8 else 4
  | .acq | .rel | .spawn .. | .join => 64
  | .ldt .. => 128 + 512 * 128
  | .sth head data => head.length + data.length
  | .feed _ planes => 512 * planes
  | _ => 0

/-- The lanes of an operation that access a FIFO bank. -/
def Op.fifoLanes (o : Op) : Mask :=
  o.act &&& maskOf fun k => match o.place.getD k .off with | .fifo _ => true | _ => false

/-- The lanes that are no FIFO accesses. -/
def Op.memLanes (o : Op) : Mask := o.act &&& ~~~o.fifoLanes

/-- Those lanes have all been read, written or applied. -/
def Op.landed (o : Op) : Bool := o.memLanes &&& ~~~o.served == 0

/-- All its lanes have, the FIFO accesses too. -/
def Op.performed (o : Op) : Bool := o.landed && o.accepted

/-- The elements that an operation's lanes ask of a bank. -/
def Op.elements (o : Op) (b : Nat) : Nat :=
  ((List.range 32).filter fun k => bit o.act k && o.place.getD k .off == .fifo b).length * (o.size / 4)

/-- A FIFO operation lacks an element for each lane, or room for all of them (R174). -/
def Cluster.fifoLacks (c : Cluster) (o : Op) : Bool :=
  (List.range 64).any fun b => match o.kind with
    | .load .. => decide ((c.bank b).count < o.elements b)
    | _ => decide (32768 < (c.bank b).count + o.elements b) && decide (0 < o.elements b)

/-! ### Readiness (R248) -/

/-- The counter waits of a header hold (R25). -/
def Ray.countersOk (r : Ray) (w : Word) : Bool :=
  (List.range 6).all fun i => !bit w (4 + i) || decide (r.dc.getD i 0 ≤ hdrThresh w)

/-- The ray's recorded arrival is not yet released (R201): the barrier. -/
def State.heldAtBarrier (s : State) (r : Ray) : Option Nat :=
  match r.arrival, s.beam r.l r.pos with
  | some (b, ph), some bm => if (bm.bars.getD b ⟨0, 0, 0⟩).phase = ph then some b else none
  | _, _ => none

/-- The least phase of a beam's live rays (R204). -/
def State.beamPhase (s : State) (core : Nat) (b : Beam) : Option Nat :=
  (b.rays.filterMap fun k => (s.ray core k).bind fun r => if r.th.live = 0 then none else some r.phase.toNat).foldl
    (fun m x => match m with | none => some x | some y => some (min x y)) none

/-- The least phase of the gang's other live beams (R204, R253). -/
def State.othersPhase (s : State) (l pos : Nat) : Option Nat :=
  match s.launch l with
  | none => none
  | some x =>
    let g := x.header.gang
    ((List.range g).filterMap fun j =>
      let q := pos / g * g + j
      if q = pos then none else (s.beam l q).bind fun b => s.beamPhase b.core b).foldl
      (fun m x => match m with | none => some x | some y => some (min x y)) none

/-- The calendar holds the ray's next clause (R204, R254). -/
def State.heldByCalendar (s : State) (r : Ray) : Bool :=
  r.adv && (match s.beam r.l r.pos, s.othersPhase r.l r.pos with
    | some b, some least => decide (least + b.allow < r.phase.toNat)
    | _, _ => false)

/-- An ACQ or FENCE of the ray has not completed (R188, R190). (DEDUCED, log entry 72) -/
def Core.held (c : Core) (rslot : Nat) : Bool :=
  c.ops.any fun o => o.rslot == rslot && !o.done &&
    (match o.kind with | .acq => true | .fence _ => true | _ => false)

/-- Operations of the core issued and not yet accepted (R358). -/
def Core.unaccepted (c : Core) : Nat := (c.ops.filter fun o => !o.accepted).length

/-- A store of the ray whose check is outstanding, by the slot count it was issued at (R382). The FIFO lanes of a store wait at
their bank and have no check (R174). -/
def Core.oldestUnchecked (c : Core) (rslot : Nat) : Option Nat :=
  (c.ops.find? fun o => o.rslot == rslot && !o.checked && o.act != o.fifoLanes &&
    (match o.kind with | .store .. => true | .stcon _ => true | _ => false)).map (·.issuedAt)

/-- The memory-format slots of some instructions (R24), and their FORKs (R209). -/
def memSlots (is : List Instr) : List (BitVec 3) := is.filterMap fun i => i.dcField
def forkSlots (is : List Instr) : Nat := (is.filter fun i => match i with | .fork .. => true | _ => false).length

/-- The instructions that a held clause has still to run. -/
def Clause.left (k : Clause) : List Instr := clauseInstrs 16 (k.slots.drop k.next)

/-- The places that the clauses in the quarter pipes of a core still hold in its count of operations not yet accepted (R24); a ray
parked inside a clause holds none, and takes them again as it goes on (R249). (DEDUCED, log entry 33) -/
def Core.places (c : Core) : Nat :=
  c.rays.foldl (fun n (rslot, r) => match r.th.clause with
    | some k => if SMap.get? c.pipes r.pipe = some rslot then n + (memSlots k.left).length else n
    | none => n) 0

/-- A core has places for some operations, and its cluster's fork queue for some forks (R24, R209). -/
def State.placesFor (s : State) (core : Nat) (is : List Instr) : Bool :=
  let c := s.core core
  let cl := s.cluster (clusterOf core)
  decide (c.unaccepted + c.places + (memSlots is).length ≤ 128) &&
    (forkSlots is == 0 || decide (cl.forks.length + cl.places.length + forkSlots is ≤ 4))

/-- The places of a clause's FORKs are taken (R209). -/
def State.takePlaces (s : State) (core rslot : Nat) (is : List Instr) : State :=
  s.updCluster (clusterOf core) fun c => { c with places := c.places ++ List.replicate (forkSlots is) (core, rslot) }

/-- The tile that a command of the queue touches (R213, R235). -/
def TileOp.tile : TileOp → Option Nat
  | .mma _ t .. | .mzero t | .mhaar t .. | .mihaarTile t => some t
  | _ => none

/-- The resources and limits that a clause waits for before it begins: counters below 64 and the core's 128
operations (R24), fork places (R209), tiles (R213), the skid (R382): no clause whose last slot would be the 25th after a store
whose own slot is the one after issuedAt; and the hold of ACQ and FENCE (R188). (DEDUCED, log entry 72) -/
def State.roomOk (s : State) (core rslot : Nat) (r : Ray) (w : Word) (is : List Instr) : Bool :=
  let c := s.core core
  let cl := s.cluster (clusterOf core)
  (List.range 6).all (fun n => decide (r.dc.getD n 0 + ((memSlots is).filter fun d => d.toNat == n).length ≤ 63)) &&
  s.placesFor core is &&
  is.all (fun i => match i with
    | .take _ _ t _ _ _ => cl.cmds.all fun k => k.op.tile != some t.toNat
    | _ => true) &&
  (match c.oldestUnchecked rslot with
    | some at0 => decide (r.th.retired.toNat + is.length < at0 + 26)
    | none => true) &&
  (hdrClass w != 4 || !c.held rslot)

/-- The ray has not been held back by a YIELD (R135). -/
def State.yieldOver (s : State) (r : Ray) : Bool := r.yieldTo.isEmpty || decide (r.yieldAt + 64 ≤ s.clock)

/-- The ray's beam is being stopped at its clause boundaries for a save or a flush (R354). -/
def State.stopping (s : State) (r : Ray) : Bool :=
  match s.beam r.l r.pos with
  | some b => (match b.choice with | some (.save _) | some .flush => true | _ => false)
  | none => false

/-- A ray is ready (R248): it has a live lane, is not parked, and its next clause's conditions hold (R24, R25, R95, R204, R209).
One whose next clause cannot be seen is ready to try, and its fetch misses; one that resumes inside a clause is ready to go on once
there are places for what is left of it (R24, R209). One whose next clause fails its checks is ready to take the trap.
(DESIGN CHOICE, log entry 120) -/
def State.rayReady (s : State) (core rslot : Nat) : Bool :=
  match s.ray core rslot with
  | none => false
  | some r =>
    r.th.live != 0 && r.parked.isNone &&
    (match r.th.clause with
     | some k => SMap.get? (s.core core).pipes r.pipe != some rslot && s.placesFor core k.left
     | none => match s.peekClause core r with
       | none => true
       | some (a, w, ws) =>
         (clauseFail (r.env a w) ws).isSome ||
         (r.countersOk w && (!hdrBw w || (s.heldAtBarrier r).isNone) && !s.heldByCalendar r &&
          s.roomOk core rslot r w (clauseInstrs 16 ws)))

/-- A ready ray may issue now: its fetch does not wait for a walk, no translation fault stalls the core (R388), the dies run
(R416), and its beam is not stopped at its boundaries (R354). -/
def State.ready (s : State) (core rslot : Nat) : Bool :=
  match s.ray core rslot with
  | none => false
  | some r => r.stall.isNone && (s.core core).xfault.isNone && !s.module.tripped && (r.th.clause.isSome || !s.stopping r) &&
      s.rayReady core rslot

/-- The wait that keeps a ray from being ready, as the loupe counts waits (R256): a barrier, the calendar, or a counter whose
oldest uncompleted operation is a FIFO access that lacks elements or room, or a JOIN. -/
def State.waitKind (s : State) (core rslot : Nat) : Option WaitKind :=
  match s.ray core rslot with
  | none => none
  | some r =>
    if r.th.live = 0 ∨ r.parked.isSome ∨ r.th.clause.isSome ∨ s.rayReady core rslot then none
    else match s.peekClause core r with
      | none => none
      | some (_, w, _) =>
        match (if hdrBw w then s.heldAtBarrier r else none) with
        | some b => some (.barrier b)
        | none =>
          if s.heldByCalendar r then some .calendar
          else
            (List.range 6).findSome? fun n =>
              if bit w (4 + n) && decide (hdrThresh w < r.dc.getD n 0) then
                match (s.core core).ops.find? fun o => o.rslot == rslot && o.dc == some n && !o.done with
                | some o => match o.kind with
                  | .join => some .join
                  | .load .. | .store .. =>
                    if o.fifoLanes != 0 && !o.accepted && (s.cluster (clusterOf core)).fifoLacks o then some .fifo else none
                  | _ => none
                | none => none
              else none

/-- A ray's age (R243): release clock, then the position of its beam's entry in the page list, then %rayid. Beams of different
launches compare by those positions too, and then by slot. (DESIGN CHOICE, log entry 112) -/
def State.age (_ : State) (r : Ray) : Nat × Nat × Nat := (r.releaseClock, r.pos, r.rayId)

/-- The oldest of some rays of a core. -/
def State.oldest (s : State) (core : Nat) (ks : List Nat) : Option Nat :=
  ks.foldl (fun m k =>
    match m, s.ray core k with
    | none, _ => some k
    | some j, some r => match s.ray core j with
      | some q => if ageLt (s.age r) (s.age q) then some k else some j
      | none => some k
    | some j, none => some j) none

/-- A ray of a pipe ready for 256 clocks is marked to be taken ahead of older rays (R249). -/
def Ray.starve (r : Ray) (pipe clock : Nat) : Ray :=
  match r.readySince with
  | some t => if r.pipe = pipe ∧ t + 256 ≤ clock then { r with starved := true } else r
  | none => r

/-- What comes before a ray's next clause at its boundary holds it there: a report, the loupe, a PARK or a lantern, unless the
clause traps as it is entered, which comes before them all (R366, R390). -/
def State.boundaryHeld (s : State) (core : Nat) (r : Ray) : Bool :=
  r.th.clause.isNone && (s.boundaryDue r || s.lanternDue r) && !s.entryTrap core r

/-- The rays of a quarter pipe that may be chosen. -/
def State.choosable (s : State) (core pipe : Nat) : List Nat :=
  ((s.core core).rays.filter fun (k, r) => r.pipe == pipe && s.ready core k && s.yieldOver r && !s.boundaryHeld core r).map (·.1)

/-- The ray a free quarter pipe takes: the oldest starved one, or the oldest (R248, R249). -/
def State.chooseRay (s : State) (core pipe : Nat) : Option Nat :=
  let ks := s.choosable core pipe
  match s.oldest core (ks.filter fun k => match s.ray core k with | some r => (r.starve pipe s.clock).starved | none => false) with
  | some k => some k
  | none => s.oldest core ks

/-! ### Packing (R246) -/

/-- The map a repack makes: the entering lanes first, each group in ascending order. -/
def repacked (entering : Mask) : List Nat :=
  lanesOf entering ++ lanesOf (~~~entering)

/-! ### Boundaries (R390) -/

/-- A PARK that is due at a clause boundary is taken, unless something comes before it (R385, R390). Where the ray has ended its event
has ENDED set and parks nothing (R380). (DEDUCED, log entry 74) -/
def State.parkIfDue (s : State) (core rslot : Nat) : State :=
  match s.ray core rslot with
  | none => s
  | some r =>
    if r.parkReq && r.th.live == 0 then
      (s.setRay core rslot { r with parkReq := false }).queueEvent core (eventRec (s.ctxOf r.l) rslot r.rayId r.role true 7 0 0 0 0 0 0)
    else if r.parkReq && r.parked.isNone && r.th.clause.isNone && !r.reportDue && !s.frontierDue r && !s.waitDue r &&
        !(s.ready core rslot && s.entryTrap core r) then
      (s.setRay core rslot { r with parked := some .request, parkReq := false }).queueEvent core
        (eventRec (s.ctxOf r.l) rslot r.rayId r.role false 7 0 0 0 ((r.th.issue).getD 0) 0 0)
    else s

/-- The boundary checks that RAYWIN writes make at resume (R386): the cause of a trap, if any. -/
def Ray.rewriteCause (r : Ray) : Option Nat :=
  if (List.range 32).any (fun i => bit r.vpcWritten i && bit r.th.live i &&
      ((r.th.pcOf i).toNat % 4 != 0 || decide (r.th.span ≤ (r.th.pcOf i).toNat))) then some 0x07
  else if 4 < bits r.th.fmode 2 0 then some 0x08
  else if r.th.level.any (fun c => decide (r.th.depth < c)) then some 0x08
  else none

/-! ### Entering a clause -/

/-- A ray takes its quarter pipe: it has been chosen, and no YIELD of its pipe waits for it (R135, R248). -/
def State.takePipe (s : State) (core rslot : Nat) (r : Ray) : State :=
  s.updCore core fun c =>
    { c with
      rays := (SMap.put c.rays rslot { r with readySince := none, starved := false, yieldTo := [] }).map fun (k, q) =>
        (k, if q.pipe = r.pipe then { q with yieldTo := q.yieldTo.filter (· != rslot) } else q)
      pipes := SMap.put c.pipes r.pipe rslot }

/-- A ray begins a clause whose checks have passed: its first instruction word is the issue address (R89). Its first slot ends
after a repack's two clocks, if there is one, and a clock for each quarter of entering lanes (R245, R246).
(DEDUCED, log entry 78) -/
def State.beginClause (s : State) (core rslot : Nat) (r : Ray) (a : Nat) (w : Word) (ws : List Word) : State :=
  let ent := r.th.lanesAt a
  let n := maskCount ent
  let repack := decide ((n + 7) / 8 < r.quarters ent)
  let allIn := ent == r.th.live
  let newLane := ent &&& ~~~r.lastEntered != 0
  let r' := { r with
    th := { r.th.setPc ent (fun _ => BitVec.ofNat 32 (a + 4)) with clause := some ⟨a, w, ws, 0, 1, ent, []⟩, latches := [] }
    laneMap := if repack then repacked ent else r.laneMap
    slotEnd := s.clock + (if repack then 2 + (n + 7) / 8 else r.quarters ent)
    frontier := if allIn || newLane then 0 else r.frontier + 1
    lastEntered := ent
    waiting := none
    adv := false
    stall := none, unresolved := [] }
  (s.takePipe core rslot r').takePlaces core rslot (clauseInstrs 16 ws)

/-- CLAUSE_ENTRY (R109, R248): the pipe's choice fetches, decodes and checks its next clause and begins it, or goes on inside the
clause it holds, for whose FORKs it takes places again (R209). A word that the TLB does not hold asks for a walk (R92). -/
def execClauseEntry (core pipe : Nat) (s : State) : Out :=
  if SMap.has (s.core core).pipes pipe || s.module.throttled || decide (4 ≤ pipe) then .next s
  else match s.chooseRay core pipe with
  | none => .next s
  | some rslot =>
    match s.ray core rslot with
    | none => .next s
    | some r =>
      match r.th.clause, r.th.issue with
      | some c, _ => .next ((s.takePipe core rslot { r with slotEnd := s.clock + r.quarters c.entering }).takePlaces core rslot c.left)
      | none, none => .next s
      | none, some a =>
        let ctx := s.ctxOf r.l
        let base := s.codeBase r.l r.pos
        let miss (va : Nat) : State :=
          if r.unresolved.contains (va / 65536) then
            s.takeTrap core rslot .clauseTrap ⟨0x30, 0, a, r.th.lanesAt a, va, 0⟩
          else
            { s.setRay core rslot { r with stall := some .walk } with
              walks := SMap.put s.walks (dieOf (clusterOf core))
                (SMap.get s.walks [] (dieOf (clusterOf core)) ++ [⟨core, rslot, ctx, va, false⟩]) }
        if r.th.span < a + 4 then
          .next (s.takeTrap core rslot .clauseTrap ⟨0x01, 0, a, r.th.lanesAt a, 0, 0⟩)
        else match s.fetchWords core ctx (base + a) 1 with
        | .error va => .next (miss va)
        | .ok hw =>
          let w := hw.headD 0
          match s.fetchWords core ctx (base + a + 4) (hdrCount w) with
          | .error va =>
            match headerCauses (r.env a w) with
            | [] => .next (miss va)
            | cs => .next (s.takeTrap core rslot .clauseTrap ⟨leastCause cs, 0, a, r.th.lanesAt a, 0, 0⟩)
          | .ok ws =>
            match clauseFail (r.env a w) ws with
            | some (slot, cause) => .next (s.takeTrap core rslot .clauseTrap ⟨cause, slot, a, r.th.lanesAt a, 0, 0⟩)
            | none => .next (s.beginClause core rslot r a w ws)

/-- ISSUE_STARVATION (R249): the rays of a pipe that have been ready for 256 clocks without being chosen are taken
ahead of older ones at the pipe's next choice. -/
def execIssueStarvation (core pipe : Nat) (s : State) : Out :=
  .next (s.updCore core fun c => { c with rays := SMap.mapVals (fun _ r => r.starve pipe s.clock) c.rays })

/-- YIELD_TIMEOUT (R135): 64 clocks after its YIELD the ray may issue again. -/
def execYieldTimeout (core rslot : Nat) (s : State) : Out :=
  match s.ray core rslot with
  | some r => if r.yieldAt + 64 ≤ s.clock then .next (s.setRay core rslot { r with yieldTo := [] }) else .next s
  | none => .next s

/-- The loupe's wait count at the present clock (R256): frozen while the ray is parked (R379), kept once it has reached its limit
(R258), 0 while no wait of the list holds the ray. -/
def State.countWait (s : State) (core rslot : Nat) (r : Ray) : Option WaitCount :=
  let grown (x : WaitCount) : WaitCount := { x with count := x.count + (s.clock - x.seen), seen := s.clock }
  if r.parked.isSome then r.waiting.map fun x => { x with seen := s.clock }
  else if s.waitDue r then r.waiting.map grown
  else match s.waitKind core rslot with
    | none => none
    | some w => match r.waiting with
      | some x => some { grown x with kind := w }
      | none => some ⟨w, 0, s.clock⟩

/-- The counts of readiness and waiting (R249, R256) at the present clock; rays that stop being ready leave the sets
of YIELDs (R135). A ray that ISSUE_STARVATION has marked stays marked till it is chosen. (DESIGN CHOICE, log entry 120) -/
def State.observeRay (s : State) (core rslot : Nat) (r : Ray) : Ray :=
  { r with
    readySince := if s.rayReady core rslot then some (r.readySince.getD s.clock) else none
    waiting := s.countWait core rslot r
    yieldTo := r.yieldTo.filter fun q => s.rayReady core q }

/-- The counts of all rays at the present clock. -/
def State.observe (s : State) : State :=
  { s with cores := SMap.mapVals (fun k c => { c with rays := SMap.mapVals (s.observeRay k) c.rays }) s.cores }

end Sys2Proof.Machine
end

