-- ==== Sys2Proof/Machine/Control.lean ====
section
/-!
DEFINITION. Control transfer: branches, calls and returns, EXIT, YIELD and LNRET (R130 to R135, R370), and the reads
and writes of special registers (R32, R136 to R139).
-/
namespace Sys2Proof.Machine

/-- The header offset of the clause that runs. -/
def Thread.hdr (t : Thread) : Nat := match t.clause with | some c => c.hdr | none => 0
/-- The offset of the clause header that follows. -/
def Thread.afterClause (t : Thread) : Nat := match t.clause with | some c => c.after | none => 0

/-- The target of BRA and CALL: the header plus 4 times DISP (R102). -/
def Thread.target (t : Thread) (disp : BitVec 21) : Word := BitVec.ofInt 32 (t.hdr + 4 * disp.toInt)

/-- A target that BRX and CALLX refuse: unaligned or outside the code span (R133). -/
def Thread.badTarget (t : Thread) (x : Word) : Bool := x.toNat % 4 != 0 || decide (t.span ≤ x.toNat)

/-- A control instruction: the domain check of its register operand (R111), its own checks with their causes in
order, then every entering lane passes it (R89) and the active lanes change (R130). (DEDUCED, log entry 14) -/
def control (i : Instr) (dom : Thread → Nat → Bool) (chks : List (Nat × (Thread → Nat → Bool)))
    (f : Thread → Thread → Mask → Thread) (s : State) : Out :=
  match s.curThread with
  | none => .fault .noActor
  | some t =>
    match s.tokenWait i with
    | some r => .next (s.stallSlot (.token r))
    | none =>
      let act := t.active i.guard
      if lanesWhere act (dom t) ≠ 0 then .next (s.trapCur causeDomain act 0 0)
      else match chks.find? fun (_, c) => lanesWhere act (c t) != 0 with
        | some (cause, _) => .next (s.trapCur cause act 0 0)
        | none => .next (s.finishSlot (f t ((t.advance i.size).push Latch.zero) act))

/-- BRA (R130). -/
def execBra (g : Guard) (disp : BitVec 21) (s : State) : Out :=
  control (.bra g disp) (fun _ _ => false) [] (fun t t' act => t'.setPc act fun _ => t.target disp) s

/-- The call depth is used up (R132). -/
def Thread.full (t : Thread) (k : Nat) : Bool := decide (t.depth ≤ laneGet t.level 0 k)

/-- Pushes the next clause header in some lanes (R132). -/
def Thread.pushRet (t : Thread) (act : Mask) (x : Word) : Thread :=
  { t with
    ret := (List.range 32).foldl (fun m e =>
      if (lanesOf act).any (fun k => laneGet t.level 0 k == e) then
        SMap.put m e (laneTab fun k => if bit act k && laneGet t.level 0 k == e then x else laneGet (SMap.get m [] e) 0 k)
      else m) t.ret
    level := laneTab fun k => if bit act k then laneGet t.level 0 k + 1 else laneGet t.level 0 k }

/-- CALL (R132): cause 0x20 at depth D; push the next clause header, then jump. -/
def execCall (g : Guard) (disp : BitVec 21) (s : State) : Out :=
  control (.call g disp) (fun _ _ => false) [(0x20, Thread.full)]
    (fun t t' act => (t'.pushRet act (BitVec.ofNat 32 t.afterClause)).setPc act fun _ => t.target disp) s

/-- RET (R132): cause 0x21 at level 0; pop into vpc, whose bits [1:0] are 0 (R22). (DEDUCED, log entry 43) -/
def execRet (g : Guard) (s : State) : Out :=
  control (.ret g) (fun _ _ => false) [(0x21, fun t k => laneGet t.level 0 k == 0)]
    (fun t t' act =>
      { t'.setPc act fun k => pcWord (laneGet (SMap.get t.ret [] (laneGet t.level 0 k - 1)) 0 k) with
        level := laneTab fun k => if bit act k then laneGet t.level 0 k - 1 else laneGet t.level 0 k }) s

/-- BRX (R133): cause 0x07 for a target unaligned or outside the span. -/
def execBrx (g : Guard) (a : Opnd) (s : State) : Out :=
  control (.brx g a) (anyMarked [a]) [(0x07, fun t k => t.badTarget (t.rd32 a k))]
    (fun t t' act => t'.setPc act fun k => t.rd32 a k) s

/-- CALLX (R132, R133): the target is checked before the depth. -/
def execCallx (g : Guard) (a : Opnd) (s : State) : Out :=
  control (.callx g a) (anyMarked [a]) [(0x07, fun t k => t.badTarget (t.rd32 a k)), (0x20, Thread.full)]
    (fun t t' act => (t'.pushRet act (BitVec.ofNat 32 t.afterClause)).setPc act fun k => t.rd32 a k) s

/-- The ray is inside a lantern handler (R368). -/
def State.inHandler (s : State) : Bool :=
  match s.curRay with
  | some (_, _, r) => r.lantern.inHandler
  | none => false

/-- EXIT (R134): the active lanes stop being live and their vpc reads 0xFFFFFFFC; inside a handler it traps with
cause 0x51 (R368). It waits for no operation, so a counter may still be above 0 as it runs. (DEDUCED, log entry 119) -/
def execExit (g : Guard) (s : State) : Out :=
  let h := s.inHandler
  control (.exit g) (fun _ _ => false) [(0x51, fun _ _ => h)]
    (fun _ t' act => { t'.setPc act (fun _ => 0xFFFFFFFC#32) with live := t'.live &&& ~~~act }) s

/-- YIELD (R135): nothing but the advance; the other rays of the pipe that are ready as the clause ends go first. -/
def execYield (g : Guard) (s : State) : Out :=
  match s.curThread with
  | none => .fault .noActor
  | some t =>
    let act := t.active g
    let s1 := s.finishSlot ((t.advance 1).push Latch.zero)
    match s1.curRay with
    | none => .next s1
    | some (core, rslot, r) =>
      if act = 0 then .next s1
      else .next (s1.setRay core rslot { r with
        yieldTo := ((s1.core core).rays.filter fun (k, q) => k != rslot && q.pipe == r.pipe && s1.rayReady core k).map (·.1)
        yieldAt := s1.clock })

/-- LNRET (R370): restores what delivery saved and clears INHANDLER; outside a handler it traps with cause 0x50.
(DEDUCED, log entry 43) -/
def execLnret (g : Guard) (s : State) : Out :=
  match s.curRay with
  | none => .fault .noActor
  | some (_, _, r) =>
    let act := r.th.active g
    if act = 0 then .next (s.finishSlot ((r.th.advance 1).push Latch.zero))
    else if !r.lantern.inHandler then .next (s.trapCur 0x50 act 0 0)
    else
      let t := (r.th.advance 1).push Latch.zero
      let s1 := s.putRay { r with lantern := { r.lantern with inHandler := false } }
      .next (s1.finishSlot { t with
        vpc := laneTab fun k => if bit r.lantern.live k then pcWord (laneGet r.lantern.vpc 0 k) else 0xFFFFFFFC#32
        p := r.lantern.p, live := r.lantern.live, level := r.lantern.level })

/-! ### Special registers (R32) -/

/-- The bank status word of R264. -/
def bankStatus (b : Nat) (k : Bank) : DWord :=
  let fifo := k.mode == .fifo
  BitVec.ofNat 64 ((if fifo then k.count % 65536 * 2 ^ 40 + k.tail % 32768 * 2 ^ 25 + k.head % 32768 * 2 ^ 10 else 0)
    + b2n k.sw * 512 + b2n k.win * 256 + b % 64 * 4 + (match k.mode with | .cache => 0 | .scratch => 1 | .fifo => 2))

/-- The value MFS reads in a lane (R32, R137, R138). (DEDUCED, log entry 83) -/
def State.special (s : State) (core rslot : Nat) (r : Ray) (n k : Nat) : DWord :=
  let b := s.beam r.l r.pos
  let ctx := SMap.get? s.ctxs (s.ctxOf r.l)
  match n with
  | 0x00 => BitVec.ofNat 64 (match r.th.clause with | some c => c.pc | none => 0)
  | 0x01 => BitVec.ofNat 64 (laneGet r.th.flags 0 k).toNat
  | 0x02 => zext64 r.th.fmode
  | 0x03 => BitVec.ofNat 64 k
  | 0x04 => BitVec.ofNat 64 r.rayId
  | 0x05 => BitVec.ofNat 64 r.role
  | 0x06 => BitVec.ofNat 64 (match b with | some x => x.gangPos | none => 0)
  | 0x07 => zext64 r.th.live
  | 0x08 => BitVec.ofNat 64 r.pos
  | 0x09 => BitVec.ofNat 64 (match b with | some x => x.pageIdx % 2 ^ 48 | none => 0)
  | 0x0A => BitVec.ofNat 64 (match b with | some x => x.retry | none => 0)
  | 0x0B => BitVec.ofNat 64 core
  | 0x0C => BitVec.ofNat 64 s.clock
  | 0x0D => r.th.retired
  | 0x0E => BitVec.ofNat 64 (match b with | some x => x.codeBase | none => 0)
  | 0x20 => match ctx with | some c => if c.lntab = 0 then 0 else c.lnmask | none => 0
  | 0x21 => match ctx with | some c => if c.lntab = 0 then 0 else c.lnpend | none => 0
  | 0x28 => bankStatus r.bankSel ((s.cluster (clusterOf core)).bank r.bankSel)
  | n => if 0x10 ≤ n ∧ n < 0x20 then zext64 (match b with | some x => laneGet x.h 0 (n - 0x10) | none => 0)
         else BitVec.ofNat 64 (0 * rslot)

/-- MFS (R138): the special register's value in each active lane, its mark clear. -/
def execMfs (g : Guard) (d : Opnd) (nr : BitVec 7) (s : State) : Out :=
  match s.curRay with
  | none => .fault .noActor
  | some (core, rslot, r) =>
    vecOp (.mfs g d nr) d (special64 nr.toNat) (fun _ _ => false)
      (fun _ k => .pure (s.special core rslot r nr.toNat k)) s

/-! ### The bank command of %bankmode (R263, R265) -/

/-- Whether a bank command word holds a value that is refused as its slot runs (R263). -/
def badBankCmd (x : DWord) : Bool :=
  decide (2 ≤ bits x 63 62) ||
  (bits x 63 62 == 1 && (bits x 33 32 == 3 || decide (23 < bits x 44 40) || decide (63 < bits x 5 0 + bits x 13 8)))

/-- The banks a SWITCH names. -/
def cmdBanks (x : DWord) : List Nat := (List.range (bits x 13 8 + 1)).map fun j => bits x 5 0 + j
/-- The target mode of a SWITCH. -/
def cmdMode (x : DWord) : BankMode := match bits x 33 32 with | 0 => .cache | 1 => .scratch | _ => .fifo

/-- The mode a bank has once the switches under way are done. -/
def Cluster.modeToBe (c : Cluster) (b : Nat) : BankMode :=
  match c.switches.find? fun w => w.banks.contains b with
  | some w => w.mode
  | none => (c.bank b).mode

/-- How many banks would be in CACHE mode after a switch (R265). (DEDUCED, log entry 15) -/
def Cluster.cacheAfter (c : Cluster) (bs : List Nat) (m : BankMode) : Nat :=
  ((List.range 64).filter fun b => (if bs.contains b then m else c.modeToBe b) == .cache).length

/-- ERR of a SWITCH (R265): the first condition in the table's order that holds; 0 if it is accepted.
(DEDUCED, log entry 15) -/
def Cluster.switchErr (c : Cluster) (ctx : Nat) (bs : List Nat) (m : BankMode) : Nat :=
  if bs.any (fun b => (c.bank b).win) then 0x10
  else if c.cacheAfter bs m < 8 then 0x11
  else if bs.any (fun b => (c.bank b).mode != .cache && (c.bank b).owner != some ctx) then 0x12
  else if bs.any (fun b => (c.bank b).sw) then 0x13
  else 0x00

/-- The token of an ended bank switch (R265): DONE and ERR. -/
def switchToken (err : Nat) : DWord := BitVec.ofNat 64 (2 ^ 63 + err * 2 ^ 48)

/-- A SWITCH is accepted or refused for all its banks together (R265): the token becomes pending and reads 0; an
accepted switch sets SW in the banks that change (R266), one that changes none, or a refused one, ends at once. -/
def State.switchBanks (s : State) (core rslot : Nat) (r : Ray) (x : DWord) : State :=
  let cl := clusterOf core
  let c := s.cluster cl
  let ctx := s.ctxOf r.l
  let tok := bits x 44 40
  let m := cmdMode x
  let todo := (cmdBanks x).filter fun b => (c.bank b).mode != m
  let err := c.switchErr ctx (cmdBanks x) m
  let setTok (v : DWord) (pend : List Nat) : State :=
    s.setRay core rslot { r with th := { r.th with s := SMap.put r.th.s tok v }, pend := pend }
  if err ≠ 0 ∨ todo = [] then setTok (switchToken err) r.pend
  else
    let s := setTok 0 (tok :: r.pend)
    s.updCluster cl fun c =>
      let c := todo.foldl (fun c b => c.setBank b { c.bank b with sw := true }) c
      { c with switches := c.switches ++ [⟨core, rslot, r.l, r.pos, some tok, m, some ctx, false, todo⟩] }

/-- Writes %flags in some lanes (R28, R43). -/
def Thread.setFlags (t : Thread) (act : Mask) (x : Nat → Word) : Thread :=
  { t with flags := laneTab fun k => if bit act k then BitVec.ofNat 6 (x k).toNat else laneGet t.flags 0 k }

/-- A write comes after another in the order of clocks, then %coreid, then %rayid. -/
def laterWrite (a b : Nat × Nat × Nat) : Bool :=
  decide (b.1 < a.1) || (a.1 == b.1 && (decide (b.2.1 < a.2.1) || (a.2.1 == b.2.1 && decide (b.2.2 ≤ a.2.2))))

/-- A write of %lnmask by a ray: of the writes of one clock that of the highest %coreid, then %rayid, stands (R139). -/
def Ctx.setMask (c : Ctx) (at_ : Nat × Nat × Nat) (x : DWord) : Ctx :=
  if c.lntab ≠ 0 ∧ laterWrite at_ c.maskAt then { c with lnmask := x, maskAt := at_ } else c

/-- MTS's write of a register other than a per-lane one: the value of the lowest active lane, once (R139).
(DEDUCED, log entry 83; DEDUCED, log entry 84) -/
def State.mtsOnce (s : State) (core rslot : Nat) (r : Ray) (n : Nat) (x : DWord) : State :=
  if n = 0x02 then s.setRay core rslot { r with th := { r.th with fmode := BitVec.ofNat 32 (bits x 6 0) } }
  else if 0x10 ≤ n ∧ n < 0x20 then
    s.setRay core rslot { r with th := { r.th with
      clause := r.th.clause.map fun c => { c with hset := SMap.put c.hset (n - 0x10) (lo32 x) } } }
  else if n = 0x20 then s.updCtx (s.ctxOf r.l) fun c => c.setMask (s.clock, core, r.rayId) x
  else if n = 0x28 then
    if bits x 63 62 = 0 then s.setRay core rslot { r with bankSel := bits x 5 0 }
    else s.switchBanks core rslot r x
  else s

/-- MTS (R139). RM of 0b101 to 0b111 traps with cause 0x08 (R30), a bank command that is refused with cause 0x35
(R263); a SWITCH whose token is pending waits (R20). (DEDUCED, log entry 84) -/
def execMts (g : Guard) (nr : BitVec 7) (b : Opnd) (s : State) : Out :=
  match s.curRay with
  | none => .fault .noActor
  | some (core, rslot, r) =>
    let i := Instr.mts g nr b
    match s.tokenWait i with
    | some q => .next (s.stallSlot (.token q))
    | none =>
      let n := nr.toNat
      let t := r.th
      let act := t.active g
      let w := special64 n
      if lanesWhere act (fun k => t.marked w b k) ≠ 0 then .next (s.trapCur causeDomain act 0 0)
      else match lowest act with
      | none => .next (s.finishSlot ((t.advance i.size).push Latch.zero))
      | some k0 =>
        let x := if w then t.rd64 false b k0 else zext64 (t.rd32 b k0)
        if n = 0x02 ∧ 4 < bits x 2 0 then .next (s.trapCur 0x08 act 0 0)
        else if n = 0x28 ∧ badBankCmd x then .next (s.trapCur 0x35 act 0 0)
        else if n = 0x28 ∧ bits x 63 62 = 1 ∧ r.pend.contains (bits x 44 40) then
          .next (s.stallSlot (.token (bits x 44 40)))
        else
          let s1 := if n = 0x01 then s.setRay core rslot { r with th := t.setFlags act (fun k => t.rd32 b k) }
            else s.mtsOnce core rslot r n x
          match s1.curThread with
          | none => .next s1
          | some t1 => .next (s1.finishSlot ((t1.advance i.size).push Latch.zero))

end Sys2Proof.Machine
end

