-- ==== Sys2Proof/Machine/CrossLane.lean ====
section
/-!
DEFINITION. Votes, ballots, shuffles and integer reductions across the lanes of a ray (R126 to R129).
-/
namespace Sys2Proof.Machine

/-- The lanes in which a vote's predicate, complemented when n, is 1 (R126). -/
def Thread.voteMask (t : Thread) (pa : Pred) (n : Bool) : Mask := if n then ~~~(t.pred pa) else t.pred pa

/-- VOTE.ANY (R126): the OR over the active lanes. -/
def execVoteAny (g : Guard) (pt pf pa : Pred) (n : Bool) (s : State) : Out :=
  predOp (.voteAny g pt pf pa n) pt pf (fun _ _ => false) (fun _ _ => 0)
    (fun t act _ => act &&& t.voteMask pa n != 0) s

/-- VOTE.ALL (R126): the AND over the active lanes. -/
def execVoteAll (g : Guard) (pt pf pa : Pred) (n : Bool) (s : State) : Out :=
  predOp (.voteAll g pt pf pa n) pt pf (fun _ _ => false) (fun _ _ => 0)
    (fun t act _ => act &&& ~~~(t.voteMask pa n) == 0) s

/-- BALLOT (R127): the mask of the active lanes whose vote is 1. -/
def execBallot (g : Guard) (d : Opnd) (pa : Pred) (n : Bool) (s : State) : Out :=
  regOp (.ballot g d pa n) d false (fun _ _ => false) 0 (fun _ _ => false)
    (fun t act _ => .pure (zext64 (act &&& t.voteMask pa n))) s

/-- A shuffle (R128): lane i takes a of lane j if j is in range and active, its own a otherwise, with the mark; a
marked index raises the domain trap (R111). -/
def shuffle (i : Instr) (d a b : Opnd) (j : Nat → Word → Option Nat) (s : State) : Out :=
  regOp i d false (anyMarked [b]) 0 (fun _ _ => false)
    (fun t act k =>
      let q := match j k (t.rd32 b k) with
        | some q => if q < 32 && bit act q then q else k
        | none => k
      ⟨zext64 (t.rd32 a q), t.marked false a q, 0⟩) s

/-- SHFL.IDX (R128). -/
def execShflIdx (g : Guard) (d a b : Opnd) (s : State) : Out :=
  shuffle (.shflIdx g d a b) d a b (fun _ x => some (bits x 4 0)) s

/-- SHFL.UP (R128). -/
def execShflUp (g : Guard) (d a b : Opnd) (s : State) : Out :=
  shuffle (.shflUp g d a b) d a b (fun k x => if x.toNat ≤ k then some (k - x.toNat) else none) s

/-- SHFL.DN (R128). -/
def execShflDn (g : Guard) (d a b : Opnd) (s : State) : Out :=
  shuffle (.shflDn g d a b) d a b (fun k x => if k + x.toNat ≤ 31 then some (k + x.toNat) else none) s

/-- SHFL.XOR (R128). -/
def execShflXor (g : Guard) (d a b : Opnd) (s : State) : Out :=
  shuffle (.shflXor g d a b) d a b (fun k x => some (Nat.xor k (bits x 4 0))) s

/-- One level of the pairwise tree of R51 over a list of values, each present or not. -/
def treeLevel {α : Type} (f : α → α → α) : List (Option α) → List (Option α)
  | some x :: some y :: t => some (f x y) :: treeLevel f t
  | none :: y :: t => y :: treeLevel f t
  | some x :: none :: t => some x :: treeLevel f t
  | [x] => [x]
  | [] => []

/-- The pairwise tree of R51 over the 32 lanes: five levels. -/
def treeReduce {α : Type} (f : α → α → α) (l : List (Option α)) : Option α :=
  (treeLevel f (treeLevel f (treeLevel f (treeLevel f (treeLevel f l))))).headD none

/-- An integer reduction over the active lanes (R51, R129). -/
def ireduce (i : Instr) (d a : Opnd) (f : Word → Word → Word) (s : State) : Out :=
  regOp i d false (anyMarked [a]) 0 (fun _ _ => false)
    (fun t act _ => .pure (zext64 ((treeReduce f (laneTab fun q => if bit act q then some (t.rd32 a q) else none)).getD 0))) s

/-- IREDADD.S32 (R129). -/
def execIredaddS32 (g : Guard) (d a : Opnd) (s : State) : Out := ireduce (.iredaddS32 g d a) d a (fun x y => x + y) s

/-- IREDMIN.S32 (R129). -/
def execIredminS32 (g : Guard) (d a : Opnd) (s : State) : Out :=
  ireduce (.iredminS32 g d a) d a (fun x y => if x.toInt ≤ y.toInt then x else y) s

/-- IREDMAX.S32 (R129). -/
def execIredmaxS32 (g : Guard) (d a : Opnd) (s : State) : Out :=
  ireduce (.iredmaxS32 g d a) d a (fun x y => if x.toInt ≤ y.toInt then y else x) s

end Sys2Proof.Machine
end

