-- ==== Sys2Proof/Machine/Round.lean ====
section
/-!
DEFINITION. Floating point: the formats of R34, exact values, and Round() with its flags (R37 to R40), which every
floating-point instruction, conversion, atomic and engine uses. The NaNs are those of R36.
-/
namespace Sys2Proof.Machine

/-- A floating-point format (R34). -/
structure Fmt where
  width : Nat
  mant : Nat
  bias : Nat
  /-- codes of magnitude from the infinity up; 2^(width - 1) where there is none -/
  infCode : Option Nat
  /-- code of the largest finite magnitude -/
  maxCode : Nat
  /-- canonical NaN of sign 0 (R36) -/
  nan : Option Nat
  /-- the top mantissa bit of a NaN is its quiet bit -/
  quiet : Bool
  /-- its flush bit in %fmode (R29, R37) -/
  flushBit : Nat
  deriving DecidableEq, Repr

def fmtF32 : Fmt := ⟨32, 23, 127, some 0x7F800000, 0x7F7FFFFF, some 0x7FC00000, true, 3⟩
def fmtF16 : Fmt := ⟨16, 10, 15, some 0x7C00, 0x7BFF, some 0x7E00, true, 4⟩
def fmtBf16 : Fmt := ⟨16, 7, 127, some 0x7F80, 0x7F7F, some 0x7FC0, true, 4⟩
def fmtE5m2 : Fmt := ⟨8, 2, 15, some 0x7C, 0x7B, some 0x7E, false, 5⟩
def fmtE4m3 : Fmt := ⟨8, 3, 7, none, 0x7E, some 0x7F, false, 5⟩
def fmtE2m1 : Fmt := ⟨4, 1, 1, none, 0x7, none, false, 5⟩

/-- An exact value: a signed magnitude num / den, an infinity or a NaN. -/
inductive XVal where
  | fin (neg : Bool) (num den : Nat)
  | inf (neg : Bool)
  | nan (neg : Bool)
  deriving DecidableEq, Repr

/-- The exact value of an integer. -/
def XVal.ofInt (v : Int) : XVal := .fin (decide (v < 0)) v.natAbs 1

/-- 2^k times a fraction, for any integer k. -/
def scale2 (n d : Nat) (k : Int) : Nat × Nat := if 0 ≤ k then (n * 2 ^ k.toNat, d) else (n, d * 2 ^ (-k).toNat)

/-- The exponent floor(log2 (n / d)) of a positive fraction. -/
def fracLog (n d : Nat) : Int :=
  let e : Int := (Nat.log2 n : Int) - Nat.log2 d
  let (a, b) := scale2 n d (-e)
  if a < b then e - 1 else e

/-- The value of a code (R34, R35): its exact value, and whether it is a signalling NaN (R36). A subnormal is read
as zero of its sign when flush (R39). -/
def Fmt.decode (f : Fmt) (flush : Bool) (x : Nat) : XVal × Bool :=
  let neg := decide (2 ^ (f.width - 1) ≤ x % 2 ^ f.width)
  let c := x % 2 ^ (f.width - 1)
  let e := c / 2 ^ f.mant
  let m := c % 2 ^ f.mant
  if f.infCode = some c then (.inf neg, false)
  else if f.maxCode < c then (.nan neg, f.quiet && decide (m < 2 ^ (f.mant - 1)))
  else if e = 0 then
    if flush then (.fin neg 0 1, false)
    else let (n, d) := scale2 m 1 (1 - (f.bias : Int) - f.mant); (.fin neg n d, false)
  else let (n, d) := scale2 (2 ^ f.mant + m) 1 ((e : Int) - f.bias - f.mant); (.fin neg n d, false)

/-- The rounding modes (R29). -/
inductive Rm where
  | rne | rtz | rdn | rup | rna
  deriving DecidableEq, Repr

/-- The mode a 3-bit code names; reserved codes read as RNE, which no run reaches (R30, R386). -/
def rmOf (n : Nat) : Rm := match n with | 1 => .rtz | 2 => .rdn | 3 => .rup | 4 => .rna | _ => .rne

/-- A fraction rounded to an integer under a mode, and whether it was exact. -/
def roundNat (neg : Bool) (rm : Rm) (n d : Nat) : Nat × Bool :=
  let q := n / d
  let r := n % d
  let up := match rm with
    | .rne => decide (d < 2 * r) || (decide (2 * r = d) && q % 2 == 1)
    | .rna => decide (d ≤ 2 * r)
    | .rtz => false
    | .rdn => neg && decide (r ≠ 0)
    | .rup => !neg && decide (r ≠ 0)
  (if up then q + 1 else q, r == 0)

/-- A code with its sign. -/
def Fmt.signed (f : Fmt) (neg : Bool) (c : Nat) : Nat := if neg then c + 2 ^ (f.width - 1) else c

/-- The canonical NaN with a sign (R36); E2M1 has none and gives 0 (R44). -/
def Fmt.nanOf (f : Fmt) (neg : Bool) : Nat := match f.nan with | some c => f.signed neg c | none => 0

/-- OverflowResult (R38): the code and the SA flag. -/
def Fmt.overflow (f : Fmt) (neg : Bool) (rm : Rm) (sat : Bool) : Nat × BitVec 6 :=
  let toMax := match rm with
    | .rne | .rna => false
    | .rtz => true
    | .rdn => !neg
    | .rup => neg
  if toMax then (f.signed neg f.maxCode, 0)
  else if sat || f.nan.isNone then (f.signed neg f.maxCode, flSA)
  else match f.infCode with
    | some c => (f.signed neg c, 0)
    | none => (f.nanOf neg, 0)

/-- InfResult (R40): the code and the flags. -/
def Fmt.infResult (f : Fmt) (neg : Bool) (sat : Bool) : Nat × BitVec 6 :=
  match f.infCode with
  | some c => (f.signed neg c, 0)
  | none =>
    if f.nan.isSome && !sat then (f.nanOf neg, flNV)
    else (f.signed neg f.maxCode, flOF ||| flSA)

/-- Round() (R37): the code of an exact value in a format, and the flags. -/
def roundTo (f : Fmt) (rm : Rm) (sat flush : Bool) (x : XVal) : Nat × BitVec 6 :=
  match x with
  | .nan neg => (f.nanOf neg, 0)
  | .inf neg => f.infResult neg sat
  | .fin neg n d =>
    if n = 0 then (f.signed neg 0, 0)
    else
      let e := fracLog n d
      let emin : Int := 1 - (f.bias : Int)
      let (a, b) := scale2 n d ((f.mant : Int) - e)
      let (iy, _) := roundNat neg rm a b
      let ey := if iy = 2 ^ (f.mant + 1) then e + 1 else e
      let my := if iy = 2 ^ (f.mant + 1) then 2 ^ f.mant else iy
      let top : Int := (f.maxCode / 2 ^ f.mant : Nat) - (f.bias : Int)
      let mtop := 2 ^ f.mant + f.maxCode % 2 ^ f.mant
      if top < ey ∨ (ey = top ∧ mtop < my) then
        let (c, sa) := f.overflow neg rm sat
        (c, flOF ||| flNX ||| sa)
      else
        let ez := if e < emin then emin else e
        let (a, b) := scale2 n d ((f.mant : Int) - ez)
        let (iz, exact) := roundNat neg rm a b
        let code := (ez + f.bias).toNat * 2 ^ f.mant + iz - 2 ^ f.mant
        let fl := flagIf (!exact) flNX ||| flagIf (decide (ey < emin) && !exact) flUF
        if flush && decide (code < 2 ^ f.mant) then (f.signed neg 0, fl ||| flUF ||| flNX)
        else (f.signed neg code, fl)

/-! ### Exact arithmetic on values (R37, R41) -/

/-- A signed numerator over a denominator, as a value; a zero result takes the sign given. -/
def XVal.ofFrac (v : Int) (d : Nat) (zeroNeg : Bool) : XVal :=
  if v = 0 then .fin zeroNeg 0 1 else .fin (decide (v < 0)) v.natAbs d

/-- The signed numerator of a finite value. -/
def sgn (neg : Bool) (n : Nat) : Int := if neg then -(n : Int) else n

/-- The exact sum; NV for infinities of opposite sign (R41). An exact zero sum of operands of opposite sign is +0, or
-0 when rounding towards -infinity. -/
def XVal.add (rm : Rm) (x y : XVal) : XVal × BitVec 6 :=
  match x, y with
  | .nan _, _ | _, .nan _ => (.nan false, 0)
  | .inf s, .inf t => if s = t then (.inf s, 0) else (.nan false, flNV)
  | .inf s, _ => (.inf s, 0)
  | _, .inf t => (.inf t, 0)
  | .fin s n d, .fin t m e =>
    (.ofFrac (sgn s n * e + sgn t m * d) (d * e) (if s = t then s else rm == .rdn), 0)

/-- The exact negation. -/
def XVal.neg : XVal → XVal
  | .nan s => .nan s
  | .inf s => .inf !s
  | .fin s n d => .fin (!s) n d

/-- The exact product; NV for zero times infinity (R41). -/
def XVal.mul (x y : XVal) : XVal × BitVec 6 :=
  match x, y with
  | .nan _, _ | _, .nan _ => (.nan false, 0)
  | .inf s, .inf t => (.inf (s != t), 0)
  | .inf s, .fin t m _ => if m = 0 then (.nan false, flNV) else (.inf (s != t), 0)
  | .fin s n _, .inf t => if n = 0 then (.nan false, flNV) else (.inf (s != t), 0)
  | .fin s n d, .fin t m e => (.fin (s != t) (n * m) (d * e), 0)

/-- The exact quotient; NV for 0/0 and infinity/infinity, DZ for a finite non-zero over zero (R41). -/
def XVal.div (x y : XVal) : XVal × BitVec 6 :=
  match x, y with
  | .nan _, _ | _, .nan _ => (.nan false, 0)
  | .inf _, .inf _ => (.nan false, flNV)
  | .inf s, .fin t _ _ => (.inf (s != t), 0)
  | .fin s _ _, .inf t => (.fin (s != t) 0 1, 0)
  | .fin s n d, .fin t m e =>
    if m = 0 then (if n = 0 then (.nan false, flNV) else (.inf (s != t), flDZ))
    else (.fin (s != t) (n * e) (d * m), 0)

/-- x < y and x = y on values that are no NaN; +0 equals -0. -/
def XVal.key : XVal → Int × Nat
  | .nan _ => (0, 1)
  | .inf s => (sgn s (2 ^ 400), 1)
  | .fin s n d => (sgn s n, d)
def XVal.lt (x y : XVal) : Bool := decide (x.key.1 * y.key.2 < y.key.1 * x.key.2)
def XVal.eq (x y : XVal) : Bool := decide (x.key.1 * y.key.2 = y.key.1 * x.key.2)
def XVal.isNan : XVal → Bool | .nan _ => true | _ => false

/-! ### %fmode in an instruction (R29, R30) -/

/-- What an instruction takes from %fmode. -/
structure FMode where
  rm : Rm
  sat : Bool
  word : Word
  deriving DecidableEq, Repr

/-- The mode of an instruction that rounds and is no conversion: RNA rounds RNE (R30). -/
def Thread.fmodeArith (t : Thread) : FMode :=
  let r := rmOf (bits t.fmode 2 0)
  ⟨if r = .rna then .rne else r, bit t.fmode 6, t.fmode⟩

/-- The mode of a conversion. -/
def Thread.fmodeCvt (t : Thread) : FMode := ⟨rmOf (bits t.fmode 2 0), bit t.fmode 6, t.fmode⟩

/-- Whether a format flushes (R37, R39). -/
def FMode.flush (m : FMode) (f : Fmt) : Bool := bit m.word f.flushBit

/-- Reads an operand (R39); a signalling NaN sets NV (R36). -/
def FMode.read (m : FMode) (f : Fmt) (x : Nat) : XVal × BitVec 6 :=
  let (v, s) := f.decode (m.flush f) x
  (v, flagIf s flNV)

/-- A NaN made by arithmetic has sign 0 (R36). -/
def XVal.canon : XVal → XVal
  | .nan _ => .nan false
  | v => v

/-- Rounds the result of arithmetic (R140): the canonical NaN has sign 0 (R36). -/
def FMode.round (m : FMode) (f : Fmt) (x : XVal) : Nat × BitVec 6 := roundTo f m.rm m.sat (m.flush f) x.canon

/-- RoundRNE() of R37 with subnormals kept and no flags: the prism unit, the plane engine and atomics (R50, R60, R183). -/
def roundRne (f : Fmt) (x : XVal) : Nat := (roundTo f .rne false false x.canon).1

/-- The exact value of an FP32 word, subnormals honoured. -/
def f32val (x : Word) : XVal := (fmtF32.decode false x.toNat).1

end Sys2Proof.Machine
end

