-- ==== Sys2Proof/Machine/Float.lean ====
section
/-!
DEFINITION. FP32 and packed 16-bit floating point: arithmetic, MinNum and MaxNum, compares and reductions (R140 to R150).
-/
namespace Sys2Proof.Machine

/-! ### One element's arithmetic (R144) -/

/-- A rounded binary operation on two codes. -/
def fop2 (m : FMode) (f : Fmt) (op : XVal → XVal → XVal × BitVec 6) (x y : Nat) : Nat × BitVec 6 :=
  let (u, fu) := m.read f x
  let (v, fv) := m.read f y
  let (z, fz) := op u v
  let (c, fc) := m.round f z
  (c, fu ||| fv ||| fz ||| fc)

/-- Round(x × y + z) with one rounding (R37, R144, R145). -/
def fma (m : FMode) (f : Fmt) (x y z : Nat) : Nat × BitVec 6 :=
  let (u, fu) := m.read f x
  let (v, fv) := m.read f y
  let (w, fw) := m.read f z
  let (p, fp) := u.mul v
  let (q, fq) := p.add m.rm w
  let (c, fc) := m.round f q
  (c, fu ||| fv ||| fw ||| fp ||| fq ||| fc)

def fadd (m : FMode) (f : Fmt) : Nat → Nat → Nat × BitVec 6 := fop2 m f fun u v => u.add m.rm v
def fsub (m : FMode) (f : Fmt) : Nat → Nat → Nat × BitVec 6 := fop2 m f fun u v => u.add m.rm v.neg
def fmul (m : FMode) (f : Fmt) : Nat → Nat → Nat × BitVec 6 := fop2 m f XVal.mul
def fdiv (m : FMode) (f : Fmt) : Nat → Nat → Nat × BitVec 6 := fop2 m f XVal.div

/-- An operand as MinNum returns it: flushed to zero of its sign, or unchanged (R39, R144). -/
def asRead (m : FMode) (f : Fmt) (x : Nat) : Nat :=
  match m.read f x with
  | (.fin s 0 _, _) => f.signed s 0
  | _ => x

/-- MinNum, and MaxNum when mx (R144). -/
def minMax (mx : Bool) (m : FMode) (f : Fmt) (x y : Nat) : Nat × BitVec 6 :=
  let (u, fu) := m.read f x
  let (v, fv) := m.read f y
  let c :=
    if u.isNan && v.isNan then f.nanOf false
    else if u.isNan then asRead m f y
    else if v.isNan then asRead m f x
    else match u, v with
      | .fin s 0 _, .fin t 0 _ => f.signed (if mx then s && t else s || t) 0
      | _, _ => if mx then (if u.lt v then asRead m f y else asRead m f x) else (if v.lt u then asRead m f y else asRead m f x)
  (c, fu ||| fv)

/-! ### FP32 (R144 to R146) -/

/-- A lane's result from a 32-bit code and its flags. -/
def codeRes (r : Nat × BitVec 6) (mark : Bool) : LaneRes := ⟨BitVec.ofNat 64 (r.1 % 2 ^ 32), mark, r.2⟩

/-- Some of the operands are marked in a lane. -/
def anyMark (t : Thread) (os : List Opnd) (k : Nat) : Bool := os.any fun o => t.marked false o k

/-- A propagating instruction on 32-bit words (R141). -/
def fprop (i : Instr) (d a b : Opnd) (f : FMode → Nat → Nat → Nat × BitVec 6) (s : State) : Out :=
  vecOp i d false (fun _ _ => false)
    (fun t k => codeRes (f t.fmodeArith (t.rd32 a k).toNat (t.rd32 b k).toNat) (anyMark t [a, b] k)) s

/-- A multiply: two marked multiplicands raise the domain trap (R141). -/
def fmulOp (i : Instr) (d a b : Opnd) (f : FMode → Nat → Nat → Nat × BitVec 6) (s : State) : Out :=
  vecOp i d false (fun t k => t.marked false a k && t.marked false b k)
    (fun t k => codeRes (f t.fmodeArith (t.rd32 a k).toNat (t.rd32 b k).toNat) (anyMark t [a, b] k)) s

/-- A fused multiply-add with addend z (R141, R144, R145). -/
def fmaOp (i : Instr) (d a b z : Opnd) (f : FMode → Nat → Nat → Nat → Nat × BitVec 6) (s : State) : Out :=
  vecOp i d false (fun t k => t.marked false a k && t.marked false b k)
    (fun t k => codeRes (f t.fmodeArith (t.rd32 a k).toNat (t.rd32 b k).toNat (t.rd32 z k).toNat) (anyMark t [a, b, z] k)) s

/-- A non-linear floating-point instruction on two words (R141). -/
def fnonlin (i : Instr) (d a b : Opnd) (f : FMode → Nat → Nat → Nat × BitVec 6) (s : State) : Out :=
  vecOp i d false (anyMarked [a, b])
    (fun t k => codeRes (f t.fmodeArith (t.rd32 a k).toNat (t.rd32 b k).toNat) false) s

/-- FADD.F32 (R144). -/
def execFaddF32 (g : Guard) (d a b : Opnd) (s : State) : Out :=
  fprop (.faddF32 g d a b) d a b (fun m => fadd m fmtF32) s

/-- FSUB.F32 (R144). -/
def execFsubF32 (g : Guard) (d a b : Opnd) (s : State) : Out :=
  fprop (.fsubF32 g d a b) d a b (fun m => fsub m fmtF32) s

/-- FMUL.F32 (R144). -/
def execFmulF32 (g : Guard) (d a b : Opnd) (s : State) : Out :=
  fmulOp (.fmulF32 g d a b) d a b (fun m => fmul m fmtF32) s

/-- FFMA.F32 (R144): the old d is the addend. -/
def execFfmaF32 (g : Guard) (d a b : Opnd) (s : State) : Out :=
  fmaOp (.ffmaF32 g d a b) d a b d (fun m => fma m fmtF32) s

/-- FMIN.F32 (R144). -/
def execFminF32 (g : Guard) (d a b : Opnd) (s : State) : Out :=
  fnonlin (.fminF32 g d a b) d a b (fun m => minMax false m fmtF32) s

/-- FMAX.F32 (R144). -/
def execFmaxF32 (g : Guard) (d a b : Opnd) (s : State) : Out :=
  fnonlin (.fmaxF32 g d a b) d a b (fun m => minMax true m fmtF32) s

/-- FABS.F32 (R144): bit 31 cleared; it acts on the bits alone. -/
def execFabsF32 (g : Guard) (d a : Opnd) (s : State) : Out :=
  nonLinear1 (.fabsF32 g d a) d a (fun x => x &&& 0x7FFFFFFF#32) s

/-- FNEG.F32 (R144): bit 31 inverted, the mark kept. -/
def execFnegF32 (g : Guard) (d a : Opnd) (s : State) : Out :=
  vecOp (.fnegF32 g d a) d false (fun _ _ => false)
    (fun t k => ⟨zext64 (t.rd32 a k ^^^ 0x80000000#32), t.marked false a k, 0⟩) s

/-- FDIV.F32 (R144): correctly rounded; a marked divisor raises the domain trap (R141). -/
def execFdivF32 (g : Guard) (d a b : Opnd) (s : State) : Out :=
  vecOp (.fdivF32 g d a b) d false (anyMarked [b])
    (fun t k => codeRes (fdiv t.fmodeArith fmtF32 (t.rd32 a k).toNat (t.rd32 b k).toNat) (t.marked false a k)) s

/-- FFMA3.F32 (R145). -/
def execFfma3F32 (g : Guard) (d a b c : Opnd) (s : State) : Out :=
  fmaOp (.ffma3F32 g d a b c) d a b c (fun m => fma m fmtF32) s

/-- FADD.F32.rm (R146): the explicit mode in place of %fmode's. -/
def execFaddF32Rm (g : Guard) (d a b : Opnd) (rm : BitVec 2) (s : State) : Out :=
  fprop (.faddF32Rm g d a b rm) d a b (fun m => fadd { m with rm := rmOf rm.toNat } fmtF32) s

/-- FMUL.F32.rm (R146). -/
def execFmulF32Rm (g : Guard) (d a b : Opnd) (rm : BitVec 2) (s : State) : Out :=
  fmulOp (.fmulF32Rm g d a b rm) d a b (fun m => fmul { m with rm := rmOf rm.toNat } fmtF32) s

/-! ### Packed 16-bit forms (R147) -/

/-- Both elements of packed words (R140). -/
def pack2 (f : Nat → Nat → Nat × BitVec 6) (x y : Nat) : Nat × BitVec 6 :=
  let (l, fl) := f (x % 65536) (y % 65536)
  let (h, fh) := f (x / 65536 % 65536) (y / 65536 % 65536)
  (l % 65536 + h % 65536 * 65536, fl ||| fh)

/-- Both elements of three packed words. -/
def pack3 (f : Nat → Nat → Nat → Nat × BitVec 6) (x y z : Nat) : Nat × BitVec 6 :=
  let (l, fl) := f (x % 65536) (y % 65536) (z % 65536)
  let (h, fh) := f (x / 65536 % 65536) (y / 65536 % 65536) (z / 65536 % 65536)
  (l % 65536 + h % 65536 * 65536, fl ||| fh)

/-- FADD.F16x2 (R147). -/
def execFaddF16x2 (g : Guard) (d a b : Opnd) (s : State) : Out :=
  fprop (.faddF16x2 g d a b) d a b (fun m => pack2 (fadd m fmtF16)) s

/-- FSUB.F16x2 (R147). -/
def execFsubF16x2 (g : Guard) (d a b : Opnd) (s : State) : Out :=
  fprop (.fsubF16x2 g d a b) d a b (fun m => pack2 (fsub m fmtF16)) s

/-- FMUL.F16x2 (R147). -/
def execFmulF16x2 (g : Guard) (d a b : Opnd) (s : State) : Out :=
  fmulOp (.fmulF16x2 g d a b) d a b (fun m => pack2 (fmul m fmtF16)) s

/-- FFMA.F16x2 (R147): the old d is the addend. -/
def execFfmaF16x2 (g : Guard) (d a b : Opnd) (s : State) : Out :=
  fmaOp (.ffmaF16x2 g d a b) d a b d (fun m => pack3 (fma m fmtF16)) s

/-- FFMA3.F16x2 (R147). -/
def execFfma3F16x2 (g : Guard) (d a b c : Opnd) (s : State) : Out :=
  fmaOp (.ffma3F16x2 g d a b c) d a b c (fun m => pack3 (fma m fmtF16)) s

/-- FADD.BF16x2 (R147). -/
def execFaddBf16x2 (g : Guard) (d a b : Opnd) (s : State) : Out :=
  fprop (.faddBf16x2 g d a b) d a b (fun m => pack2 (fadd m fmtBf16)) s

/-- FSUB.BF16x2 (R147). -/
def execFsubBf16x2 (g : Guard) (d a b : Opnd) (s : State) : Out :=
  fprop (.fsubBf16x2 g d a b) d a b (fun m => pack2 (fsub m fmtBf16)) s

/-- FMUL.BF16x2 (R147). -/
def execFmulBf16x2 (g : Guard) (d a b : Opnd) (s : State) : Out :=
  fmulOp (.fmulBf16x2 g d a b) d a b (fun m => pack2 (fmul m fmtBf16)) s

/-- FFMA.BF16x2 (R147): the old d is the addend. -/
def execFfmaBf16x2 (g : Guard) (d a b : Opnd) (s : State) : Out :=
  fmaOp (.ffmaBf16x2 g d a b) d a b d (fun m => pack3 (fma m fmtBf16)) s

/-- FFMA3.BF16x2 (R147). -/
def execFfma3Bf16x2 (g : Guard) (d a b c : Opnd) (s : State) : Out :=
  fmaOp (.ffma3Bf16x2 g d a b c) d a b c (fun m => pack3 (fma m fmtBf16)) s

/-! ### Compares (R148, R149) -/

/-- The conditions of R148: 0 EQ, 1 LT, 2 LE, 3 UN. -/
def fcond (cc : Nat) (x y : XVal) : Bool :=
  if x.isNan || y.isNan then cc == 3
  else match cc with
    | 0 => x.eq y
    | 1 => x.lt y
    | 2 => !(y.lt x)
    | _ => false

/-- NV of a compare: EQ and UN for a signalling NaN, LT and LE for any (R148). -/
def fcondFlags (cc : Nat) (x y : XVal × BitVec 6) : BitVec 6 :=
  if cc = 1 ∨ cc = 2 then flagIf (x.1.isNan || y.1.isNan) flNV else x.2 ||| y.2

/-- A floating-point compare of one element per lane. -/
def fcmp (i : Instr) (pt pf : Pred) (a b : Opnd) (f : Fmt) (cc : Nat) (sel : Word → Nat) (s : State) : Out :=
  predOp i pt pf (anyMarked [a, b])
    (fun t k => fcondFlags cc (t.fmodeArith.read f (sel (t.rd32 a k))) (t.fmodeArith.read f (sel (t.rd32 b k))))
    (fun t _ k => fcond cc (t.fmodeArith.read f (sel (t.rd32 a k))).1 (t.fmodeArith.read f (sel (t.rd32 b k))).1) s

/-- FCMP.EQ.F32 (R148). -/
def execFcmpEqF32 (g : Guard) (pt pf : Pred) (a b : Opnd) (s : State) : Out :=
  fcmp (.fcmpEqF32 g pt pf a b) pt pf a b fmtF32 0 BitVec.toNat s

/-- FCMP.LT.F32 (R148). -/
def execFcmpLtF32 (g : Guard) (pt pf : Pred) (a b : Opnd) (s : State) : Out :=
  fcmp (.fcmpLtF32 g pt pf a b) pt pf a b fmtF32 1 BitVec.toNat s

/-- FCMP.LE.F32 (R148). -/
def execFcmpLeF32 (g : Guard) (pt pf : Pred) (a b : Opnd) (s : State) : Out :=
  fcmp (.fcmpLeF32 g pt pf a b) pt pf a b fmtF32 2 BitVec.toNat s

/-- FCMP.UN.F32 (R148). -/
def execFcmpUnF32 (g : Guard) (pt pf : Pred) (a b : Opnd) (s : State) : Out :=
  fcmp (.fcmpUnF32 g pt pf a b) pt pf a b fmtF32 3 BitVec.toNat s

/-- The element of a packed word that H selects (R149): of a literal too, whose bits [31:16] H = 1 takes, though R75 puts a 16-bit literal
into its bits [15:0]. (DESIGN CHOICE, log entry 126) -/
def halfOf (h : Bool) (x : Word) : Nat := if h then bits x 31 16 else bits x 15 0

/-- FCMP.F16 (R149). -/
def execFcmpF16 (g : Guard) (pt pf : Pred) (a b : Opnd) (h : Bool) (cc : BitVec 2) (s : State) : Out :=
  fcmp (.fcmpF16 g pt pf a b h cc) pt pf a b fmtF16 cc.toNat (halfOf h) s

/-- FCMP.BF16 (R149). -/
def execFcmpBf16 (g : Guard) (pt pf : Pred) (a b : Opnd) (h : Bool) (cc : BitVec 2) (s : State) : Out :=
  fcmp (.fcmpBf16 g pt pf a b h cc) pt pf a b fmtBf16 cc.toNat (halfOf h) s

/-! ### Reductions (R51, R150) -/

/-- An input of a reduction as it is read: flushed, a NaN canonical with sign 0, and NV for a signalling one (R36, R39). -/
def leafRead (m : FMode) (f : Fmt) (x : Nat) : Nat × BitVec 6 :=
  (if (m.read f x).1.isNan then f.nanOf false else asRead m f x, (m.read f x).2)

/-- A reduction whose nodes give values and flags; the flags of all reads and nodes reach every active lane. -/
def freduce (i : Instr) (d a : Opnd) (f : FMode → Nat → Nat → Nat × BitVec 6) (s : State) : Out :=
  regOp i d false (anyMarked [a]) 0 (fun _ _ => false)
    (fun t act _ =>
      let m := t.fmodeArith
      codeRes ((treeReduce (fun x y => let (c, fl) := f m x.1 y.1; (c, x.2 ||| y.2 ||| fl))
        (laneTab fun q => if bit act q then some (leafRead m fmtF32 (t.rd32 a q).toNat) else none)).getD (0, 0)) false) s

/-- FREDADD.F32 (R150): each partial sum is rounded. -/
def execFredaddF32 (g : Guard) (d a : Opnd) (s : State) : Out :=
  freduce (.fredaddF32 g d a) d a (fun m => fadd m fmtF32) s

/-- FREDMIN.F32 (R150): NV when any active lane held a signalling NaN. -/
def execFredminF32 (g : Guard) (d a : Opnd) (s : State) : Out :=
  freduce (.fredminF32 g d a) d a (fun m => minMax false m fmtF32) s

/-- FREDMAX.F32 (R150). -/
def execFredmaxF32 (g : Guard) (d a : Opnd) (s : State) : Out :=
  freduce (.fredmaxF32 g d a) d a (fun m => minMax true m fmtF32) s

end Sys2Proof.Machine
end

