-- ==== Sys2Proof/Machine/Convert.lean ====
section
/-!
DEFINITION. Conversion between the formats and the integer types (R44, R153 to R155).
-/
namespace Sys2Proof.Machine

/-- A conversion type (R153). -/
inductive CvtType where
  | flt (f : Fmt)
  | int (signed : Bool) (width : Nat)
  deriving DecidableEq, Repr

/-- The type of an index; the reserved indices are refused at clause entry and read as .Z32. -/
def cvtType (n : Nat) : CvtType :=
  match n with
  | 0 => .flt fmtF32 | 1 => .flt fmtF16 | 2 => .flt fmtBf16 | 3 => .flt fmtE4m3 | 4 => .flt fmtE5m2 | 5 => .flt fmtE2m1
  | 6 => .int true 8 | 7 => .int true 16 | 8 => .int true 32 | 9 => .int true 64 | 10 => .int false 8
  | 11 => .int false 16 | 12 => .int false 32 | 13 => .int false 64 | _ => .int false 32

def CvtType.width : CvtType → Nat
  | .flt f => f.width
  | .int _ w => w
def CvtType.isFlt : CvtType → Bool
  | .flt _ => true
  | .int .. => false

/-- An integer code as the exact value of its type (R153). -/
def intOf (signed : Bool) (w x : Nat) : Int :=
  let v := x % 2 ^ w
  if signed && decide (2 ^ (w - 1) ≤ v) then (v : Int) - 2 ^ w else v

/-- Sat() to an integer type (R37). -/
def satTo (signed : Bool) (w : Nat) (v : Int) : Int × BitVec 6 := if signed then satS w v else satZ w v

/-- The value of an integer type extended to 32 bits, or of 64 bits (R153). -/
def intCode (w : Nat) (v : Int) : Nat := (v % (2 ^ (if w = 64 then 64 else 32) : Int)).toNat

/-- A floating-point value as an integer of a type (R44): always clamped. -/
def fltToInt (rm : Rm) (signed : Bool) (w : Nat) (x : XVal) : Int × BitVec 6 :=
  match x with
  | .nan _ => (0, flNV)
  | .inf neg => let (v, sa) := satTo signed w (sgn neg (2 ^ 200)); (v, flNV ||| sa)
  | .fin neg n d =>
    let (q, exact) := roundNat neg rm n d
    let (v, sa) := satTo signed w (sgn neg q)
    if sa = 0 then (v, flagIf (!exact) flNX) else (v, flNV ||| sa)

/-- The conversion of R44: the code of the result, an integer extended to 32 bits, and the flags. -/
def cvtValue (m : FMode) (dst src : CvtType) (x : Nat) : Nat × BitVec 6 :=
  match src, dst with
  | .flt f, .flt h =>
    let (v, fv) := m.read f x
    let (c, fc) := roundTo h m.rm m.sat (m.flush h) v
    (c, fv ||| fc ||| flagIf (v.isNan && h.nan.isNone) flNV)
  | .flt f, .int sg w =>
    let (v, fv) := m.read f x
    let (q, fq) := fltToInt m.rm sg w v
    (intCode w q, fv ||| fq)
  | .int sg w, .flt h => roundTo h m.rm m.sat (m.flush h) (.ofInt (intOf sg w x))
  | .int sg w, .int sh u =>
    let v := intOf sg w x
    if w < u then (intCode u v, 0)
    else if m.sat then let (q, fq) := satTo sh u v; (intCode u q, fq)
    else (intCode u (intOf sh u x), 0)

/-- A source of a conversion as a number. A literal is zero-extended, since the opcode maps print neither form with the
spelling .S64 (R97). -/
def Thread.cvtSrc (t : Thread) (src : CvtType) (a : Opnd) (k : Nat) : Nat :=
  match src with
  | .int _ 64 => (t.rd64 false a k).toNat
  | _ => (t.rd32 a k).toNat

/-- CVT (R154): from a float type to a float type the mark propagates, every other conversion is non-linear (R141). -/
def execCvt (g : Guard) (d a : Opnd) (k : BitVec 7) (s : State) : Out :=
  let dst := cvtType (bits k 6 3)
  let src := cvtType (cvtSource (bits k 2 0))
  let lin := dst.isFlt && src.isFlt
  vecOp (.cvt g d a k) d (dst.width == 64) (fun t i => !lin && t.marked (src.width == 64) a i)
    (fun t i =>
      let (c, fl) := cvtValue t.fmodeCvt dst src (t.cvtSrc src a i)
      ⟨BitVec.ofNat 64 c, lin && t.marked false a i, fl⟩) s

/-- The mode of the wide CVT: RM and SAT of its extension word (R155). -/
def cvtMode (m : FMode) (rm : BitVec 3) (sat : BitVec 2) : FMode :=
  { m with
    rm := if rm = 7 then m.rm else rmOf rm.toNat
    sat := if sat = 0 then m.sat else sat == 2 }

/-- Writes element k of width w in a word and keeps the other bits (R155). -/
def insertElem (old w k x : Nat) : Nat :=
  old % 2 ^ (k * w) + x % 2 ^ w * 2 ^ (k * w) + old / 2 ^ ((k + 1) * w) * 2 ^ ((k + 1) * w)

/-- The wide CVT (R155): a destination narrower than 32 bits is inserted into the old d, which it reads; into 0 where d is 0x7F.
(DESIGN CHOICE, log entry 116) -/
def execCvtWide (g : Guard) (d a : Opnd) (dst src : BitVec 4) (rm : BitVec 3) (sat spos dpos : BitVec 2) (s : State) : Out :=
  let dt := cvtType dst.toNat
  let st := cvtType src.toNat
  let lin := dt.isFlt && st.isFlt
  let ins := decide (dt.width < 32)
  let mk (t : Thread) (i : Nat) : Bool := t.marked (st.width == 64) a i || (ins && t.marked false d i)
  vecOp (.cvtWide g d a dst src rm sat spos dpos) d (dt.width == 64) (fun t i => !lin && mk t i)
    (fun t i =>
      let (c, fl) := cvtValue (cvtMode t.fmodeCvt rm sat) dt st (t.cvtSrc st a i / 2 ^ (spos.toNat * st.width))
      let c := if ins then insertElem (t.rd32 d i).toNat dt.width dpos.toNat c else c
      ⟨BitVec.ofNat 64 c, lin && mk t i, fl⟩) s

end Sys2Proof.Machine
end

