-- ==== Sys2Proof/Machine/IntArith.lean ====
section
/-!
DEFINITION. The integer arithmetic of R113 to R116: each result modulo its width, the classes of R111, the divide check.
-/
namespace Sys2Proof.Machine

/-- The instructions that propagate marks: each result is marked where an operand read is (R65, R111). -/
def propagate (i : Instr) (d : Opnd) (w64 : Bool) (os : List Opnd) (f : Thread → Nat → DWord) (s : State) : Out :=
  vecOp i d w64 (fun _ _ => false) (fun t k => ⟨f t k, os.any fun o => t.marked w64 o k, 0⟩) s

/-- IADD.S32 (R113): a + b modulo 2^32. -/
def execIaddS32 (g : Guard) (d a b : Opnd) (s : State) : Out :=
  propagate (.iaddS32 g d a b) d false [a, b] (fun t k => zext64 (t.rd32 a k + t.rd32 b k)) s

/-- ISUB.S32 (R113): a - b modulo 2^32. -/
def execIsubS32 (g : Guard) (d a b : Opnd) (s : State) : Out :=
  propagate (.isubS32 g d a b) d false [a, b] (fun t k => zext64 (t.rd32 a k - t.rd32 b k)) s

/-- IADD.S64 (R113): a + b modulo 2^64. -/
def execIaddS64 (g : Guard) (d a b : Opnd) (s : State) : Out :=
  propagate (.iaddS64 g d a b) d true [a, b] (fun t k => t.rd64 true a k + t.rd64 true b k) s

/-- ISUB.S64 (R113): a - b modulo 2^64. -/
def execIsubS64 (g : Guard) (d a b : Opnd) (s : State) : Out :=
  propagate (.isubS64 g d a b) d true [a, b] (fun t k => t.rd64 true a k - t.rd64 true b k) s

/-- IADD3.S32 (R113): a + b + c modulo 2^32. -/
def execIadd3S32 (g : Guard) (d a b c : Opnd) (s : State) : Out :=
  propagate (.iadd3S32 g d a b c) d false [a, b, c] (fun t k => zext64 (t.rd32 a k + t.rd32 b k + t.rd32 c k)) s

/-- LEA.S64 (R113): a 64-bit base a plus the sign-extended 32-bit offset b. -/
def execLeaS64 (g : Guard) (d a b : Opnd) (s : State) : Out :=
  vecOp (.leaS64 g d a b) d true (fun t k => t.marked true a k || t.marked false b k)
    (fun t k => .pure (t.rd64 true a k + sext64 (t.rd32 b k))) s

/-- IMUL.S32 (R114): bits [31:0] of a times b. -/
def execImulS32 (g : Guard) (d a b : Opnd) (s : State) : Out :=
  nonLinear2 (.imulS32 g d a b) d a b (fun x y => x * y) s

/-- IMULHI.S32 (R114): bits [63:32] of the signed product. -/
def execImulhiS32 (g : Guard) (d a b : Opnd) (s : State) : Out :=
  nonLinear2 (.imulhiS32 g d a b) d a b (fun x y => BitVec.ofInt 32 (x.toInt * y.toInt / 2 ^ 32)) s

/-- IMULHI.Z32 (R114): bits [63:32] of the unsigned product. -/
def execImulhiZ32 (g : Guard) (d a b : Opnd) (s : State) : Out :=
  nonLinear2 (.imulhiZ32 g d a b) d a b (fun x y => BitVec.ofNat 32 (x.toNat * y.toNat / 2 ^ 32)) s

/-- IMAD.S32 (R114): the old d plus a times b modulo 2^32. -/
def execImadS32 (g : Guard) (d a b : Opnd) (s : State) : Out :=
  nonLinear3 (.imadS32 g d a b) d a b (fun z x y => z + x * y) s

/-- A multiply with a 64-bit result (R114). -/
def mulWide (i : Instr) (d a b : Opnd) (f : Word → Word → DWord) (s : State) : Out :=
  vecOp i d true (anyMarked [a, b]) (fun t k => .pure (f (t.rd32 a k) (t.rd32 b k))) s

/-- IMULW.S32 (R114): the 64-bit signed product. -/
def execImulwS32 (g : Guard) (d a b : Opnd) (s : State) : Out :=
  mulWide (.imulwS32 g d a b) d a b (fun x y => BitVec.ofInt 64 (x.toInt * y.toInt)) s

/-- IMULW.Z32 (R114): the 64-bit unsigned product. -/
def execImulwZ32 (g : Guard) (d a b : Opnd) (s : State) : Out :=
  mulWide (.imulwZ32 g d a b) d a b (fun x y => BitVec.ofNat 64 (x.toNat * y.toNat)) s

/-- IMIN.S32 (R115): the smaller, compared as signed. -/
def execIminS32 (g : Guard) (d a b : Opnd) (s : State) : Out :=
  nonLinear2 (.iminS32 g d a b) d a b (fun x y => if x.toInt ≤ y.toInt then x else y) s

/-- IMIN.Z32 (R115): the smaller, compared as unsigned. -/
def execIminZ32 (g : Guard) (d a b : Opnd) (s : State) : Out :=
  nonLinear2 (.iminZ32 g d a b) d a b (fun x y => if x.toNat ≤ y.toNat then x else y) s

/-- IMAX.S32 (R115): the larger, compared as signed. -/
def execImaxS32 (g : Guard) (d a b : Opnd) (s : State) : Out :=
  nonLinear2 (.imaxS32 g d a b) d a b (fun x y => if x.toInt ≤ y.toInt then y else x) s

/-- IMAX.Z32 (R115): the larger, compared as unsigned. -/
def execImaxZ32 (g : Guard) (d a b : Opnd) (s : State) : Out :=
  nonLinear2 (.imaxZ32 g d a b) d a b (fun x y => if x.toNat ≤ y.toNat then y else x) s

/-- IABS.S32 (R115): the absolute value modulo 2^32. -/
def execIabsS32 (g : Guard) (d a : Opnd) (s : State) : Out :=
  nonLinear1 (.iabsS32 g d a) d a (fun x => if x.toInt < 0 then -x else x) s

/-- A division: a divisor of 0 in any active lane raises the divide-check trap, cause 0x28 (R116). -/
def divide (i : Instr) (d a b : Opnd) (f : Word → Word → Word) (s : State) : Out :=
  regOp i d false (anyMarked [a, b]) causeDivide (fun t k => t.rd32 b k == 0)
    (fun t _ k => .pure (zext64 (f (t.rd32 a k) (t.rd32 b k)))) s

/-- IDIV.S32 (R116): the quotient truncated towards zero. -/
def execIdivS32 (g : Guard) (d a b : Opnd) (s : State) : Out :=
  divide (.idivS32 g d a b) d a b (fun x y => BitVec.ofInt 32 (Int.tdiv x.toInt y.toInt)) s

/-- IDIV.Z32 (R116): the unsigned quotient. -/
def execIdivZ32 (g : Guard) (d a b : Opnd) (s : State) : Out :=
  divide (.idivZ32 g d a b) d a b (fun x y => BitVec.ofNat 32 (x.toNat / y.toNat)) s

/-- IREM.S32 (R116): the remainder, whose sign follows a. -/
def execIremS32 (g : Guard) (d a b : Opnd) (s : State) : Out :=
  divide (.iremS32 g d a b) d a b (fun x y => BitVec.ofInt 32 (Int.tmod x.toInt y.toInt)) s

/-- IREM.Z32 (R116): a mod b, unsigned. -/
def execIremZ32 (g : Guard) (d a b : Opnd) (s : State) : Out :=
  divide (.iremZ32 g d a b) d a b (fun x y => BitVec.ofNat 32 (x.toNat % y.toNat)) s

end Sys2Proof.Machine
end

