-- ==== Sys2Proof/Machine/MoveCmp.lean ====
section
/-!
DEFINITION. Moves, selects, compares and predicate logic (R121 to R125) and their classes (R111).
-/
namespace Sys2Proof.Machine

/-- MOV.Z32 (R121): copies a with its mark. -/
def execMovZ32 (g : Guard) (d a : Opnd) (s : State) : Out :=
  vecOp (.movZ32 g d a) d false (fun _ _ => false) (fun t k => ⟨zext64 (t.rd32 a k), t.marked false a k, 0⟩) s

/-- MOV.Z64 (R121): copies a with its mark. -/
def execMovZ64 (g : Guard) (d a : Opnd) (s : State) : Out :=
  vecOp (.movZ64 g d a) d true (fun _ _ => false) (fun t k => ⟨t.rd64 false a k, t.marked true a k, 0⟩) s

/-- SEL (R122): a where the selecting predicate, complemented when n, is 1, and b elsewhere, with its mark. -/
def execSel (g : Guard) (d a b : Opnd) (w n : Bool) (p : Pred) (s : State) : Out :=
  vecOp (.sel g d a b w n p) d w (fun _ _ => false)
    (fun t k =>
      let o := if bit (t.pred p) k != n then a else b
      ⟨if w then t.rd64 false o k else zext64 (t.rd32 o k), t.marked w o k, 0⟩) s

/-- A 32-bit compare (R123). -/
def icmp (i : Instr) (pt pf : Pred) (a b : Opnd) (f : Word → Word → Bool) (s : State) : Out :=
  predOp i pt pf (anyMarked [a, b]) (fun _ _ => 0) (fun t _ k => f (t.rd32 a k) (t.rd32 b k)) s

/-- ICMP.EQ.Z32 (R123). -/
def execIcmpEqZ32 (g : Guard) (pt pf : Pred) (a b : Opnd) (s : State) : Out :=
  icmp (.icmpEqZ32 g pt pf a b) pt pf a b (fun x y => x == y) s

/-- ICMP.LT.S32 (R123). -/
def execIcmpLtS32 (g : Guard) (pt pf : Pred) (a b : Opnd) (s : State) : Out :=
  icmp (.icmpLtS32 g pt pf a b) pt pf a b (fun x y => decide (x.toInt < y.toInt)) s

/-- ICMP.LE.S32 (R123). -/
def execIcmpLeS32 (g : Guard) (pt pf : Pred) (a b : Opnd) (s : State) : Out :=
  icmp (.icmpLeS32 g pt pf a b) pt pf a b (fun x y => decide (x.toInt ≤ y.toInt)) s

/-- ICMP.LT.Z32 (R123). -/
def execIcmpLtZ32 (g : Guard) (pt pf : Pred) (a b : Opnd) (s : State) : Out :=
  icmp (.icmpLtZ32 g pt pf a b) pt pf a b (fun x y => decide (x.toNat < y.toNat)) s

/-- ICMP.LE.Z32 (R123). -/
def execIcmpLeZ32 (g : Guard) (pt pf : Pred) (a b : Opnd) (s : State) : Out :=
  icmp (.icmpLeZ32 g pt pf a b) pt pf a b (fun x y => decide (x.toNat ≤ y.toNat)) s

/-- A 64-bit compare (R124). -/
def icmp64 (i : Instr) (pt pf : Pred) (a b : Opnd) (sx : Bool) (f : DWord → DWord → Bool) (s : State) : Out :=
  predOp i pt pf (fun t k => t.marked true a k || t.marked true b k) (fun _ _ => 0)
    (fun t _ k => f (t.rd64 sx a k) (t.rd64 sx b k)) s

/-- ICMP.LT.S64 and ICMP.LE.S64, by COND (R124). -/
def execIcmpS64 (g : Guard) (pt pf : Pred) (a b : Opnd) (cond : BitVec 2) (s : State) : Out :=
  icmp64 (.icmpS64 g pt pf a b cond) pt pf a b true
    (fun x y => if cond = 1 then decide (x.toInt < y.toInt) else decide (x.toInt ≤ y.toInt)) s

/-- ICMP.EQ.Z64, ICMP.LT.Z64 and ICMP.LE.Z64, by COND (R124). -/
def execIcmpZ64 (g : Guard) (pt pf : Pred) (a b : Opnd) (cond : BitVec 2) (s : State) : Out :=
  icmp64 (.icmpZ64 g pt pf a b cond) pt pf a b false
    (fun x y => if cond = 0 then x == y else if cond = 1 then decide (x.toNat < y.toNat) else decide (x.toNat ≤ y.toNat)) s

/-- PLOP (R125): bit (a + 2b) of the table. -/
def execPlop (g : Guard) (pt pf pa pb : Pred) (table : BitVec 4) (s : State) : Out :=
  predOp (.plop g pt pf pa pb table) pt pf (fun _ _ => false) (fun _ _ => 0)
    (fun t _ k => bit table (b2n (bit (t.pred pa) k) + 2 * b2n (bit (t.pred pb) k))) s

end Sys2Proof.Machine
end

