-- ==== Sys2Proof/Machine/Packed16.lean ====
section
/-!
DEFINITION. Packed sixteen-bit and byte integer arithmetic (R158, R159).
-/
namespace Sys2Proof.Machine

/-- A 16-bit element as a signed integer. -/
def s16 (x : Nat) : Int := (BitVec.ofNat 16 x).toInt
/-- An exact integer narrowed to 16 bits. -/
def w16 (v : Int) : Nat := (BitVec.ofInt 16 v).toNat

/-- A packed integer form without flags, non-linear (R141). -/
def pint (i : Instr) (d a b : Opnd) (f : Nat → Nat → Nat) (s : State) : Out :=
  vecOp i d false (anyMarked [a, b])
    (fun t k => codeRes (pack2 (fun x y => (f x y, 0)) (t.rd32 a k).toNat (t.rd32 b k).toNat) false) s

/-- A saturating packed form: SA when either element saturates (R158). -/
def psat (i : Instr) (d a b : Opnd) (f : Nat → Nat → Int × BitVec 6) (s : State) : Out :=
  vecOp i d false (anyMarked [a, b])
    (fun t k => codeRes (pack2 (fun x y => (w16 (f x y).1, (f x y).2)) (t.rd32 a k).toNat (t.rd32 b k).toNat) false) s

/-- IADD.S16x2 (R158), propagating (R141). -/
def execIaddS16x2 (g : Guard) (d a b : Opnd) (s : State) : Out :=
  fprop (.iaddS16x2 g d a b) d a b (fun _ => pack2 fun x y => ((x + y) % 65536, 0)) s

/-- ISUB.S16x2 (R158), propagating (R141). -/
def execIsubS16x2 (g : Guard) (d a b : Opnd) (s : State) : Out :=
  fprop (.isubS16x2 g d a b) d a b (fun _ => pack2 fun x y => ((x + 65536 - y) % 65536, 0)) s

/-- IADDS.S16x2 (R158). -/
def execIaddsS16x2 (g : Guard) (d a b : Opnd) (s : State) : Out :=
  psat (.iaddsS16x2 g d a b) d a b (fun x y => satS 16 (s16 x + s16 y)) s

/-- ISUBS.S16x2 (R158). -/
def execIsubsS16x2 (g : Guard) (d a b : Opnd) (s : State) : Out :=
  psat (.isubsS16x2 g d a b) d a b (fun x y => satS 16 (s16 x - s16 y)) s

/-- IADDS.Z16x2 (R158). -/
def execIaddsZ16x2 (g : Guard) (d a b : Opnd) (s : State) : Out :=
  psat (.iaddsZ16x2 g d a b) d a b (fun x y => satZ 16 ((x : Int) + y)) s

/-- ISUBS.Z16x2 (R158). -/
def execIsubsZ16x2 (g : Guard) (d a b : Opnd) (s : State) : Out :=
  psat (.isubsZ16x2 g d a b) d a b (fun x y => satZ 16 ((x : Int) - y)) s

/-- IMUL.S16x2 (R158). -/
def execImulS16x2 (g : Guard) (d a b : Opnd) (s : State) : Out :=
  pint (.imulS16x2 g d a b) d a b (fun x y => x * y % 65536) s

/-- IMAD.S16x2 (R158): each element of the old d plus the product, modulo 2^16. -/
def execImadS16x2 (g : Guard) (d a b : Opnd) (s : State) : Out :=
  vecOp (.imadS16x2 g d a b) d false (anyMarked [d, a, b])
    (fun t k => codeRes (pack3 (fun x y z => ((z + x * y) % 65536, 0)) (t.rd32 a k).toNat (t.rd32 b k).toNat (t.rd32 d k).toNat) false) s

/-- IMIN.S16x2 (R158). -/
def execIminS16x2 (g : Guard) (d a b : Opnd) (s : State) : Out :=
  pint (.iminS16x2 g d a b) d a b (fun x y => if s16 x ≤ s16 y then x else y) s

/-- IMAX.S16x2 (R158). -/
def execImaxS16x2 (g : Guard) (d a b : Opnd) (s : State) : Out :=
  pint (.imaxS16x2 g d a b) d a b (fun x y => if s16 x ≤ s16 y then y else x) s

/-- IMIN.Z16x2 (R158). -/
def execIminZ16x2 (g : Guard) (d a b : Opnd) (s : State) : Out :=
  pint (.iminZ16x2 g d a b) d a b (fun x y => if x ≤ y then x else y) s

/-- IMAX.Z16x2 (R158). -/
def execImaxZ16x2 (g : Guard) (d a b : Opnd) (s : State) : Out :=
  pint (.imaxZ16x2 g d a b) d a b (fun x y => if x ≤ y then y else x) s

/-- IABS.S16x2 (R158). -/
def execIabsS16x2 (g : Guard) (d a : Opnd) (s : State) : Out :=
  vecOp (.iabsS16x2 g d a) d false (anyMarked [a])
    (fun t k => codeRes (pack2 (fun x _ => (w16 (s16 x).natAbs, 0)) (t.rd32 a k).toNat 0) false) s

/-- The distance of two numbers. -/
def dist (x y : Nat) : Nat := (x - y) + (y - x)

/-- SAD.Z8x4 (R159): the old d plus the distances of the bytes. -/
def execSadZ8x4 (g : Guard) (d a b : Opnd) (s : State) : Out :=
  nonLinear3 (.sadZ8x4 g d a b) d a b
    (fun z x y => z + BitVec.ofNat 32 (dist (bits x 7 0) (bits y 7 0) + dist (bits x 15 8) (bits y 15 8) +
      dist (bits x 23 16) (bits y 23 16) + dist (bits x 31 24) (bits y 31 24))) s

/-- SAD.Z16x2 (R159). -/
def execSadZ16x2 (g : Guard) (d a b : Opnd) (s : State) : Out :=
  nonLinear3 (.sadZ16x2 g d a b) d a b
    (fun z x y => z + BitVec.ofNat 32 (dist (bits x 15 0) (bits y 15 0) + dist (bits x 31 16) (bits y 31 16))) s

/-- The signed dot product of two packed words (R159). -/
def dot16 (x y : Word) : Int := s16 (bits x 15 0) * s16 (bits y 15 0) + s16 (bits x 31 16) * s16 (bits y 31 16)

/-- DOT.S16x2 (R159). -/
def execDotS16x2 (g : Guard) (d a b : Opnd) (s : State) : Out :=
  nonLinear3 (.dotS16x2 g d a b) d a b (fun z x y => z + BitVec.ofInt 32 (dot16 x y)) s

/-- DOTS.S16x2 (R159): the sum with c, saturated to .S32. -/
def execDotsS16x2 (g : Guard) (d a b c : Opnd) (s : State) : Out :=
  vecOp (.dotsS16x2 g d a b c) d false (anyMarked [a, b, c])
    (fun t k =>
      let (v, fl) := satS 32 ((t.rd32 c k).toInt + dot16 (t.rd32 a k) (t.rd32 b k))
      ⟨zext64 (BitVec.ofInt 32 v), false, fl⟩) s

end Sys2Proof.Machine
end

