-- ==== Sys2Proof/Machine/Quant.lean ====
section
/-!
DEFINITION. Block quantisation and dequantisation (R45, R46, R48, R156, R157), and the frame of the instructions whose
active lanes check a control word first.
-/
namespace Sys2Proof.Machine

/-- An instruction on data a and a control word b: marks, then its checks of the active lanes' control words in
order, then the lanes' results under the lowest active lane's word, which is every lane's where they must agree. -/
def ctlOp (i : Instr) (d a b : Opnd) (chks : List (Nat × (List Word → Bool)))
    (res : Thread → Mask → Word → Nat → LaneRes) (s : State) : Out :=
  match s.curThread with
  | none => .fault .noActor
  | some t =>
    match s.tokenWait i with
    | some r => .next (s.stallSlot (.token r))
    | none =>
      let act := t.active i.guard
      let ws := (lanesOf act).map (t.rd32 b)
      if lanesWhere act (anyMarked [a, b] t) ≠ 0 then .next (s.trapCur causeDomain act 0 0)
      else match chks.find? fun (_, f) => f ws with
        | some (cause, _) => .next (s.trapCur cause act 0 0)
        | none =>
          let r := res t act (ws.headD 0)
          let t1 := (t.raise act fun k => (r k).flags).deliver d false act (fun k => (r k).val) (fun k => (r k).mark)
          .next (s.finishSlot (t1.advance i.size))

/-- Some control words differ. -/
def wordsDiffer (ws : List Word) : Bool := ws.any fun w => w != ws.headD 0

/-! ### QUANT (R46, R156) -/

/-- The MX element format of a code (R156). -/
def mxFmt (c : Nat) : Fmt := match c with | 0 => fmtE4m3 | 1 => fmtE5m2 | _ => fmtE2m1
/-- The largest exponent of an element format (R46). -/
def mxEmax (f : Fmt) : Int := (f.maxCode / 2 ^ f.mant : Nat) - (f.bias : Int)

/-- The control word of QUANT is reserved: a reserved bit or FMT 0b11. -/
def quantReserved (w : Word) : Bool := bits w 31 13 != 0 || bits w 7 2 != 0 || bits w 1 0 == 3

/-- The j-th smallest of some exponents. -/
def nthSmallest (es : List Int) (j : Nat) : Option Int :=
  (es.filter fun e => decide (j ≤ (es.filter fun x => decide (x ≤ e)).length)).foldl
    (fun m e => match m with | none => some e | some x => some (min x e)) none

/-- The exponents of the non-zero values of a block. -/
def blockExps (xs : List XVal) : List Int :=
  xs.filterMap fun x => match x with | .fin _ n d => if n = 0 then none else some (fracLog n d) | _ => none

/-- The block scale of R46 for a clip rank k. -/
def blockScale (f : Fmt) (k : Nat) (es : List Int) : Nat :=
  match nthSmallest es (ceilDiv (es.length * k) 32) with
  | none => 0x7F
  | some e => (max 0 (min 254 (e - mxEmax f + 127))).toNat

/-- A lane's result of QUANT. -/
def quantLane (m : FMode) (f : Fmt) (bad : Bool) (x : Nat) (v : XVal) : Nat × BitVec 6 :=
  if bad then (0xFF * 256, flNV)
  else match v with
    | .fin neg n d =>
      if x = 0x7F && n = 0 then (0x7F * 256 + (roundTo f m.rm true (m.flush f) v).1, 0)
      else
        let (a, b) := scale2 n d (127 - (x : Int))
        let (c, fl) := roundTo f m.rm true (m.flush f) (.fin neg a b)
        (x * 256 + c, fl)
    | _ => (0xFF * 256, flNV)

/-- QUANT (R156): differing control words raise cause 0x18, a reserved agreed word cause 0x04. -/
def execQuant (g : Guard) (d a b : Opnd) (s : State) : Out :=
  ctlOp (.quant g d a b) d a b [(causeDiverge, wordsDiffer), (0x04, fun ws => ws.any quantReserved)]
    (fun t act w k =>
      let m := t.fmodeCvt
      let f := mxFmt (bits w 1 0)
      let val (i : Nat) : XVal := (m.read fmtF32 (t.rd32 a i).toNat).1
      let xs := (lanesOf act).map val
      let bad := xs.any fun v => match v with | .fin .. => false | _ => true
      let es := blockExps xs
      let zero := es.isEmpty
      let (c, fl) := quantLane m f bad (blockScale f (bits w 12 8 + 1) es) (val k)
      ⟨BitVec.ofNat 64 (if zero && !bad then 0x7F * 256 else c), false, if zero && !bad then 0 else fl⟩) s

/-! ### DEQ (R45, R48, R157) -/

/-- A control word of DEQ is reserved. -/
def deqReserved (w : Word) : Bool := bits w 31 3 != 0 || decide (4 < bits w 2 0)

/-- An MX element times its scale, exact (R45); a scale of 0xFF is a NaN. -/
def mxValue (m : FMode) (f : Fmt) (code x : Nat) : XVal :=
  if x = 0xFF then .nan false
  else match (m.read f code).1 with
    | .fin neg n d => let (a, b) := scale2 n d ((x : Int) - 127); .fin neg a b
    | v => v

/-- An asymmetric element s times (q - z) and NV where it is invalid (R48); for q = z a zero of the scale's sign.
(DESIGN CHOICE, log entry 117) -/
def asymValue (m : FMode) (scale q z : Nat) : XVal × BitVec 6 :=
  let (s, fs) := m.read fmtF16 scale
  let (v, fv) := s.mul (.ofInt ((q : Int) - z))
  (v, fs ||| fv)

/-- The value that DEQ reads, and its flags. -/
def deqValue (m : FMode) (w a : Word) : XVal × BitVec 6 :=
  match bits w 2 0 with
  | 0 => (mxValue m fmtE4m3 (bits a 7 0) (bits a 15 8), 0)
  | 1 => (mxValue m fmtE5m2 (bits a 7 0) (bits a 15 8), 0)
  | 2 => (mxValue m fmtE2m1 (bits a 3 0) (bits a 15 8), 0)
  | 3 => asymValue m (bits a 31 16) (bits a 3 0) (bits a 11 8)
  | _ => asymValue m (bits a 31 16) (bits a 7 0) (bits a 15 8)

/-- DEQ (R157): each lane reads its own control word; a reserved one in any active lane raises cause 0x04. The NaN that it delivers
for a NaN element or scale has sign 0, as arithmetic's: R36 and R157 do not say whether DEQ is a conversion.
(DESIGN CHOICE, log entry 86) -/
def execDeq (g : Guard) (d a b : Opnd) (s : State) : Out :=
  ctlOp (.deq g d a b) d a b [(0x04, fun ws => ws.any deqReserved)]
    (fun t _ _ k =>
      let m := t.fmodeArith
      let (v, fv) := deqValue m (t.rd32 b k) (t.rd32 a k)
      let (c, fc) := m.round fmtF32 v
      codeRes (c, fv ||| fc) false) s

end Sys2Proof.Machine
end

