-- ==== Sys2Proof/Machine/Pixel.lean ====
section
/-!
DEFINITION. Packed pixels (R49, R160, R161).
-/
namespace Sys2Proof.Machine

/-- The pixel width of a control word. -/
def pxWidth (w : Word) : Nat := 10 + 2 * bits w 1 0
/-- ALIGN of a control word. -/
def pxAlign (w : Word) : Bool := bit w 2

/-- A control word of PXUNPACK is reserved. -/
def pxReservedU (w : Word) : Bool := bits w 31 3 != 0 || bits w 1 0 == 3
/-- A control word of PXPACK is reserved. -/
def pxReservedP (w : Word) : Bool := bits w 31 4 != 0 || bits w 1 0 == 3

/-- A lane's word, 0 where the lane is not active. -/
def activeWord (t : Thread) (act : Mask) (a : Opnd) (j : Nat) : Nat := if bit act j then (t.rd32 a j).toNat else 0

/-- The string S of 1,024 bits that the lanes' words make. -/
def laneString (t : Thread) (act : Mask) (a : Opnd) : Nat :=
  (List.range 32).foldl (fun n j => n + activeWord t act a j * 2 ^ (32 * j)) 0

/-- One unpacked pixel of the string. -/
def unpackPx (s w i : Nat) (align : Bool) : Nat :=
  let p := s / 2 ^ (i * w) % 2 ^ w
  if align then p * 2 ^ (16 - w) else p

/-- PXUNPACK (R161). -/
def execPxunpack (g : Guard) (d a b : Opnd) (s : State) : Out :=
  ctlOp (.pxunpack g d a b) d a b [(0x04, fun ws => ws.any pxReservedU), (causeDiverge, wordsDiffer)]
    (fun t act c i =>
      let str := laneString t act a
      let w := pxWidth c
      .pure (BitVec.ofNat 64 (unpackPx str w (2 * i) (pxAlign c) + 65536 * unpackPx str w (2 * i + 1) (pxAlign c)))) s

/-- One packed pixel and SA where it saturates. -/
def packPx (c : Word) (x : Nat) : Nat × BitVec 6 :=
  let w := pxWidth c
  if pxAlign c then (x / 2 ^ (16 - w), 0)
  else if bit c 3 then let (v, sa) := satZ w x; (v.toNat, sa)
  else (x % 2 ^ w, 0)

/-- The string that PXPACK makes of the lanes' pixel pairs. -/
def packString (t : Thread) (act : Mask) (a : Opnd) (c : Word) : Nat :=
  (List.range 64).foldl (fun n i =>
    n + (packPx c (activeWord t act a (i / 2) / 2 ^ (16 * (i % 2)) % 65536)).1 * 2 ^ (i * pxWidth c)) 0

/-- PXPACK (R161). -/
def execPxpack (g : Guard) (d a b : Opnd) (s : State) : Out :=
  ctlOp (.pxpack g d a b) d a b [(0x04, fun ws => ws.any pxReservedP), (causeDiverge, wordsDiffer)]
    (fun t act c j =>
      let x := (t.rd32 a j).toNat
      ⟨BitVec.ofNat 64 (packString t act a c / 2 ^ (32 * j) % 2 ^ 32), false,
        (packPx c (x % 65536)).2 ||| (packPx c (x / 65536)).2⟩) s

end Sys2Proof.Machine
end

