-- ==== Sys2Proof/Machine/Record.lean ====
section
/-!
DEFINITION. The save record of a beam (R355, R357 to R359, R373): its bytes, its room in the save area, and what changes in it
while the beam is saved, each change written to the record's place in memory.
-/
namespace Sys2Proof.Machine

/-- A barrier of a beam. -/
def Beam.bar (b : Beam) (k : Nat) : Bar := b.bars.getD k ⟨0, 0, 0⟩

/-- An operation that a save captures and a flush cancels: one of R358's kinds that nothing has accepted, or a FIFO load or store
that has moved no element. (DEDUCED, log entry 56) -/
def Op.replayable (o : Op) : Bool :=
  !o.done && !o.accepted && (match o.kind with
    | .load .. | .ldres _ | .acq | .rel | .fence _ => true
    | .atom .. => o.served == 0
    | .store .. | .stcon _ => !o.landed || o.fifoLanes != 0
    | _ => false)

/-- An operation as a replay entry holds it: the lanes that have been served or have failed their check are over (R358). -/
def Op.captured (o : Op) : Op := { o with act := o.act &&& ~~~o.served &&& ~~~o.failed }

/-! ### The bytes of a save record (R357, R358, R373) -/

/-- Bytes 0. -/
def zeros (n : Nat) : List Byte := List.replicate n 0
/-- count values of n bytes each. -/
def leWords (n : Nat) (f : Nat → Nat) (count : Nat) : List Byte := (List.range count).flatMap fun i => leBytes n (f i)

/-- The lantern save registers (R373). -/
def LanternSave.bytes (v : LanternSave) : List Byte :=
  leWords 4 (fun i => (laneGet v.vpc 0 i).toNat) 32 ++ leWords 4 (fun k => (SMap.get v.p 0 k).toNat) 7 ++ leBytes 4 v.live.toNat ++
    leWords 1 (fun i => laneGet v.level 0 i) 32 ++ [BitVec.ofNat 8 (b2n v.inHandler * 128 + v.vector % 64)] ++ zeros 63

/-- The BWAIT word of the ray in a slot whose BWAIT is under way; 0 where none is. -/
def waitWord (ops : List Op) (rslot : Nat) : Nat :=
  match ops.findSome? fun o => match o.kind with | .bwait t => if o.rslot = rslot ∧ !o.done then some t else none | _ => none with
  | some t => 2 ^ 63 + t % 2 ^ 32
  | none => 0

/-- A BWAIT word of a record: the wait of the ray that held a slot, with its result once it has one. -/
def bwaitWord (v : Saved) (rslot : Nat) : Nat :=
  match SMap.get? v.bwaits rslot with
  | some (t, r) => 2 ^ 63 + r % 256 * 2 ^ 32 + t % 2 ^ 32
  | none => waitWord v.ops rslot

/-- Pads bytes to a multiple of 256. -/
def pad256 (bs : List Byte) : List Byte := bs ++ zeros (roundUp bs.length 256 - bs.length)

/-- A ray frame (R357). -/
def Ray.frame (r : Ray) (bwait : Nat) : List Byte :=
  let t := r.th
  let mid := t.clause
  pad256 (leWords 4 (fun i => (t.pcOf i).toNat) 32 ++ leWords 1 (fun i => laneGet t.level 0 i) 32 ++
    leWords 1 (fun i => (laneGet t.flags 0 i).toNat) 32 ++ leWords 4 (fun k => (SMap.get t.p 0 k).toNat) 7 ++ zeros 4 ++
    leBytes 4 t.live.toNat ++ leBytes 4 t.fmode.toNat ++ leWords 1 (fun i => r.dc.getD i 0) 6 ++
    [match r.arrival with | some (b, _) => BitVec.ofNat 8 (128 + b % 8) | none => 0] ++ [BitVec.ofNat 8 r.bankSel] ++
    leBytes 8 r.phase.toNat ++ leBytes 8 t.retired.toNat ++ leWords 8 (fun k => (SMap.get t.s 0 k).toNat) 24 ++
    (List.range 4).flatMap (fun j => leWords 8 (fun i => if mid.isSome then (t.latch j i).toNat else 0) 32) ++
    leWords 4 (fun j => if mid.isSome then (maskOf fun i => t.latchMark j i).toNat else 0) 4 ++
    leBytes 8 (match mid with | some c => c.hdr + (c.next + 1) % 16 * 2 ^ 32 + 2 ^ 63 | none => 0) ++ leBytes 8 bwait ++
    zeros 32 ++ r.lantern.bytes ++ zeros 256 ++
    (List.range t.allot).flatMap (fun k => leWords 4 (fun i => (t.vreg k i).toNat) 32) ++
    leWords 4 (fun k => (SMap.get t.marks 0 k).toNat) t.allot ++
    (List.range t.depth).flatMap fun e => leWords 4 (fun i => (laneGet (SMap.get t.ret [] e) 0 i).toNat) 32)

/-- A replay entry (R358): the instruction's word, its extension word if it is a wide one, and its literal if it has one. -/
def Op.replayEntry (o : Op) (order : Nat) : List Byte :=
  let w (i : Nat) : Nat := (o.words.getD i 0).toNat
  let wide := isWideWord (o.words.headD 0)
  leBytes 4 (w 0) ++ leBytes 4 (if wide then w 1 else 0) ++ leBytes 4 (if wide then w 2 else w 1) ++ leBytes 4 o.act.toNat ++ leBytes 1 o.rayId ++ leBytes 3 0 ++
    leBytes 4 order ++ zeros 232 ++ leWords 8 (fun i => (o.ea.getD i 0).toNat) 32 ++ leWords 16 (fun i => (o.data.getD i 0).toNat) 32

/-- The whole record (R357). -/
def Saved.bytes (v : Saved) (kernel pos : Nat) : List Byte :=
  let b := v.beam
  leBytes 8 kernel ++ leBytes 4 pos ++ leBytes 1 v.rays.length ++ leBytes 1 b.gangPos ++ leBytes 1 (if v.trigger = .bwait then 1 else 2) ++
    leBytes 1 0 ++ leBytes 4 b.winOfs ++ leBytes 4 b.winSize ++ leBytes 2 v.replay.length ++ leBytes 2 b.cluster ++ leBytes 4 b.allow ++
    leWords 8 (fun k => let x := b.bar k; x.e % 2048 + x.count % 2048 * 2 ^ 11 + x.phase % 2 ^ 32 * 2 ^ 32) 8 ++
    leWords 8 (fun k => match b.rays[k]? with | some rs => bwaitWord v rs | none => 0) 8 ++ zeros 352 ++
    (v.rays.zip b.rays).flatMap (fun (r, k) => r.frame (bwaitWord v k)) ++
    v.replay.zipIdx.flatMap (fun (o, i) => o.replayEntry i) ++ v.window

/-- The record of a saved beam is written to its room in the save area (R355). -/
def State.writeRecord (s : State) (l pos : Nat) (v : Saved) : State :=
  match s.launch l, SMap.get? s.ctxs v.beam.ctx with
  | some x, some c => s.storeSystem (physKey false (c.save + v.room)) (v.bytes x.kernel pos)
  | _, _ => s

/-! ### Changes of a saved beam's record (R359) -/

/-- The record of a saved beam changes, and its bytes with it. -/
def State.updSaved (s : State) (key : Nat) (f : Saved → Saved) : State :=
  match SMap.get? s.saved key with
  | some v => { s with saved := SMap.put s.saved key (f v) }.writeRecord (key / 2 ^ 32) (key % 2 ^ 32) (f v)
  | none => s

/-- The ray of a save record that held a slot. -/
def Saved.updRay (v : Saved) (rslot : Nat) (f : Ray → Ray) : Saved :=
  { v with rays := (v.rays.zip v.beam.rays).map fun (r, k) => if k = rslot then f r else r }

/-- The saved beam that holds an operation of a core. -/
def State.savedOp (s : State) (core id : Nat) : Option Nat :=
  (s.saved.find? fun (_, v) => v.beam.core == core && v.ops.any fun o => o.id == id).map (·.1)

end Sys2Proof.Machine
end

