-- ==== Sys2Proof/Machine/MemLoadStore.lean ====
section
/-!
DEFINITION. Loads and stores: the effective address and its checks in their order (R163, R164), translation at issue
(R172, R173), the operation issued with its captured sources (R24, R167), and what completes it (R168, R171, R174 to
R177, R184), with the store-fault records (R381, R382). The other memory families use the same issue.
-/
namespace Sys2Proof.Machine

/-! ### Access types (R170) -/

/-- A loaded value extended (R171). -/
def loadExt (ty v : Nat) : BitVec 128 :=
  match ty with
  | 1 => BitVec.ofNat 128 (BitVec.ofInt 32 (BitVec.ofNat 8 v).toInt).toNat
  | 3 => BitVec.ofNat 128 (BitVec.ofInt 32 (BitVec.ofNat 16 v).toInt).toNat
  | _ => BitVec.ofNat 128 v

/-- Word j of a group of four. -/
def quad (x : BitVec 128) (j : Nat) : Word := BitVec.ofNat 32 (x.toNat / 2 ^ (32 * j))

/-- Writes the destination of a load: a register, a pair or a group of four, with a mark (R65, R170, R171). -/
def Thread.setLoad (t : Thread) (d : Opnd) (ty : Nat) (act : Mask) (v : Nat → BitVec 128) (mk : Bool) : Thread :=
  if ty = 6 then
    match d with
    | .v n => (List.range 4).foldl (fun t j => t.setV (n + j) act (fun k => quad (v k) j) fun _ => mk) t
    | _ => t
  else t.setD d (ty == 5) act (fun k => BitVec.ofNat 64 (v k).toNat) fun _ => mk

/-- A store's data in a lane (R171). ST.X128 of a D that is no vector register stores the 64-bit value that it reads, extended with
zeros. (DESIGN CHOICE, log entry 128) -/
def Thread.storeData (t : Thread) (d : Opnd) (ty k : Nat) : BitVec 128 :=
  if ty = 6 then
    match d with
    | .v n => BitVec.ofNat 128 ((t.vreg n k).toNat + (t.vreg (n + 1) k).toNat * 2 ^ 32 + (t.vreg (n + 2) k).toNat * 2 ^ 64 + (t.vreg (n + 3) k).toNat * 2 ^ 96)
    | _ => BitVec.ofNat 128 (t.rd64 false d k).toNat
  else if ty = 5 then BitVec.ofNat 128 (t.rd64 false d k).toNat
  else BitVec.ofNat 128 (t.rd32 d k).toNat

/-! ### Effective addresses and checks (R163, R164) -/

/-- The offset of a memory format (R100, R164). -/
def ofsVal (ofs : MemOfs) (size : Nat) : DWord :=
  match ofs with
  | .scaled n => BitVec.ofNat 64 (n * size)
  | .lit x => sext64 x

/-- The effective address in a lane (R164). -/
def Thread.ea (t : Thread) (a : Opnd) (ofs : MemOfs) (size k : Nat) : DWord := t.rd64 false a k + ofsVal ofs size

/-- The space of an address (R163). -/
def spaceOf (x : DWord) : Nat := bits x 63 56

/-- What an instruction may reach. -/
structure Reach where
  global : Bool
  scratch : Bool
  fifo : Bool
  /-- bits of a scratchpad reference that carry fields and are no address (R178) -/
  fields : DWord
  deriving DecidableEq, Repr

/-- The space is reserved or not permitted, a bit marked zero is set, or the FIFO bank is not one of the context in
FIFO mode, or it is being switched: cause 0x33 (R163, R165, R266, R269). (DEDUCED, log entry 13) -/
def State.badSpace (s : State) (core : Nat) (ctx : Nat) (m : Reach) (x : DWord) : Bool :=
  match spaceOf x with
  | 0 => !m.global
  | 1 => !m.scratch || bits (x &&& ~~~m.fields) 55 23 != 0
  | 2 =>
    let k := (s.cluster (clusterOf core)).bank (bits x 5 0)
    !m.fifo || bits x 55 6 != 0 || k.mode != .fifo || k.owner != some ctx || k.sw
  | _ => true

/-- The address is not a multiple of the alignment; a FIFO address names a bank and has none: cause 0x31.
(DEDUCED, log entry 13) -/
def badAlign (align : Nat) (x : DWord) : Bool := spaceOf x != 2 && x.toNat % 2 ^ 56 % align != 0

/-- A scratchpad access is out of reach: cause 0x32. -/
def State.badReach (s : State) (r : Ray) (size : Nat) (x : DWord) : Bool :=
  spaceOf x == 1 && !s.inReach r.l r.pos (bits x 22 0) size

/-- What a memory instruction's issue checks and captures. -/
structure MemForm where
  i : Instr
  /-- the addresses, per lane -/
  ea : Thread → Nat → DWord
  size : Nat
  align : Nat
  reach : Reach
  /-- operands read as a non-linear instruction reads them, with their widths (R166) -/
  addrs : List (Opnd × Bool)
  /-- acts once per ray, with the lowest active lane's operands (R164) -/
  once : Bool
  /-- further checks in order, each a cause and a condition on a lane (0x35, 0x34, 0x36, 0x37) -/
  chks : List (Nat × (State → Ray → Nat → Bool))
  /-- a store: a failing translation is recorded and the other lanes write (R173) -/
  store : Bool
  /-- needs a writable page though its faults are precise (R183) -/
  writes : Bool
  /-- STNT, ST, STCON, REL: waits while all record slots are held (R381) -/
  recs : Bool

/-- The lanes whose operands count: all active ones, or the lowest. -/
def MemForm.lanes (f : MemForm) (act : Mask) : Mask :=
  if f.once then (match lowest act with | some k => BitVec.ofNat 32 (2 ^ k) | none => 0) else act

/-- What the issue of a memory instruction comes to. -/
inductive Issue where
  | trap (cause : Nat) (lanes : Mask)
  | stall (why : Stall)
  /-- a translation is needed: the address that misses -/
  | miss (va : Nat)
  /-- an address above the HBM's end (R281) -/
  | noMem
  | go (place : List Place)
  deriving DecidableEq, Repr

/-- The checks of R164 in their order, up to translation: the first that fails in any lane. (DEDUCED, log entry 27) -/
def State.memChecks (s : State) (core : Nat) (r : Ray) (f : MemForm) (act : Mask) : Option (Nat × Mask) :=
  let ls := f.lanes act
  let at_ (k : Nat) : DWord := f.ea r.th k
  let cs : List (Nat × (Nat → Bool)) :=
    [(0x33, fun k => s.badSpace core (s.ctxOf r.l) f.reach (at_ k)), (0x31, fun k => badAlign f.align (at_ k)),
     (0x32, fun k => s.badReach r f.size (at_ k))] ++ f.chks.map fun (c, g) => (c, fun k => g s r k)
  cs.findSome? fun (c, g) =>
    if lanesWhere ls g != 0 then some (c, if f.once ∨ c < 0x30 ∨ 0x33 < c then act else lanesWhere ls g) else none

/-- Where a lane's access lies. -/
inductive LanePlace where
  | at_ (p : Place)
  | miss (va : Nat)
  | forbidden (cause : Nat)
  deriving DecidableEq, Repr

/-- A lane put in its place among lanes in ascending order of their lines. -/
def insertLane (line : Nat → Nat) (k : Nat) : List Nat → List Nat
  | [] => [k]
  | j :: t => if line k < line j then k :: j :: t else j :: insertLane line k t

/-- The lanes line by line, ascending, and in each line by lane, as the coalescer's requests leave (R272). -/
def lanesByLine (line : Nat → Nat) : List Nat := (List.range 32).foldl (fun l k => insertLane line k l) []

/-- The translation of one lane through the core's TLB (R164, R172, R273). -/
def State.placeOf (s : State) (core : Nat) (r : Ray) (write : Bool) (x : DWord) : LanePlace :=
  match spaceOf x with
  | 1 => .at_ (.scratch (bits x 22 0))
  | 2 => .at_ (.fifo (bits x 5 0))
  | _ =>
    match (s.core core).tlbFind (s.ctxOf r.l) x.toNat with
    | some e =>
      if write && !e.w then .forbidden 0x71
      else .at_ (.phys e.host (e.pa + (x.toNat - e.va)) e.nc)
    | none => if r.unresolved.contains (x.toNat / 65536) then .forbidden 0x70 else .miss x.toNat

/-- The whole issue decision of a memory instruction with at least one active lane; of several misses the first in the order of the
requests is asked for (R272, R273). (DESIGN CHOICE, log entry 9) -/
def State.memIssue (s : State) (core : Nat) (r : Ray) (f : MemForm) (act : Mask) : Issue :=
  let dom := lanesWhere act fun k => f.addrs.any fun (o, w) => r.th.marked w o k
  if dom ≠ 0 then .trap causeDomain act
  else if f.recs ∧ (s.core core).recs.length = 16 then .stall .recordSlots
  else match s.memChecks core r f act with
    | some (c, ls) => .trap c ls
    | none =>
      let ls := f.lanes act
      let ps := laneTab fun k => if bit ls k then s.placeOf core r (f.store || f.writes) (f.ea r.th k) else .at_ .off
      match (lanesByLine fun k => (f.ea r.th k).toNat / 1024).findSome? fun k => match ps.getD k (.at_ .off) with | .miss va => some va | _ => none with
      | some va => .miss va
      | none =>
        let bad := maskOf fun k => match ps.getD k (.at_ .off) with | .forbidden _ => true | _ => false
        if bad ≠ 0 ∧ ¬ f.store then .trap 0x30 (if f.once then act else bad)
        else if ps.any (fun p => match p with | .at_ (.phys false a _) => decide (hbmEnd < a + f.size) | _ => false) then .noMem
        else .go (ps.map fun p => match p with | .at_ q => q | .forbidden c => .bad c | .miss _ => .off)

/-! ### Operations in flight -/

/-- A fresh operation of a ray. -/
def State.newOp (s : State) (core rslot : Nat) (r : Ray) (i : Instr) (dc : Option Nat) (d : Opnd) (act : Mask)
    (ea : List DWord) (place : List Place) (data : List (BitVec 128)) (kind : OpKind) : Op :=
  { id := (s.core core).nextOp, rslot := rslot, l := r.l, pos := r.pos, rayId := r.rayId, ctx := s.ctxOf r.l
    pc := match r.th.clause with | some c => c.pc | none => 0
    issuedAt := r.th.retired.toNat, words := encode i, dc := dc, d := d, act := act, ea := ea, place := place
    data := data, kind := kind, accepted := kind == .empty, checked := false, failed := 0, recSlot := none
    done := kind == .empty, counted := dc.isNone, isOver := kind == .empty, served := 0, olds := [] }

/-- One pass over the operations in issue order: a done operation whose older ones on its counter are decremented is
decremented itself (R24). Answers the operations and the (ray, counter) pairs decremented. -/
def retirePass : List Op → List (Nat × Nat) → List Op × List (Nat × Nat)
  | [], _ => ([], [])
  | o :: t, blocked =>
    match o.dc with
    | none => let (os, ds) := retirePass t blocked; (o :: os, ds)
    | some n =>
      if o.counted then let (os, ds) := retirePass t blocked; (o :: os, ds)
      else if o.done && !blocked.contains (o.rslot, n) then
        let (os, ds) := retirePass t blocked
        ({ o with counted := true } :: os, (o.rslot, n) :: ds)
      else let (os, ds) := retirePass t ((o.rslot, n) :: blocked); (o :: os, ds)

/-- Decrements one counter of a ray. -/
def Ray.decDc (r : Ray) (n : Nat) : Ray := { r with dc := setAt r.dc n (r.dc.getD n 0 - 1) }
/-- Increments one counter of a ray. -/
def Ray.incDc (r : Ray) (n : Nat) : Ray := { r with dc := setAt r.dc n (r.dc.getD n 0 + 1) }

/-- Decrements every counter that may be and forgets the operations that are over (R24). -/
def Core.retire (c : Core) : Core :=
  let (os, ds) := retirePass c.ops []
  { c with
    ops := os.filter fun o => !(o.isOver && o.counted)
    rays := ds.foldl (fun rs (k, n) => SMap.upd rs k fun r => r.decDc n) c.rays }

def State.retire (s : State) (core : Nat) : State := s.updCore core Core.retire

/-- Issues an operation: its counter counts (R24), and its slot is over; the latch is 0 (R167). -/
def State.issueOp (s : State) (core rslot : Nat) (r : Ray) (i : Instr) (o : Op) : State :=
  let r' := match o.dc with | some n => r.incDc n | none => r
  let s := s.updCore core fun c =>
    { c with ops := c.ops ++ [o], nextOp := c.nextOp + 1, rays := SMap.put c.rays rslot r' }
  (s.finishSlot ((r.th.advance i.size).push Latch.zero)).retire core

/-- A translation miss asks for a walk, and the slot waits (R172, R273). -/
def State.askWalk (s : State) (core rslot : Nat) (va : Nat) (write : Bool) : State :=
  match s.ray core rslot with
  | none => s
  | some r =>
    let die := dieOf (clusterOf core)
    { s.setRay core rslot { r with stall := some .walk } with
      walks := SMap.put s.walks die (SMap.get s.walks [] die ++ [⟨core, rslot, s.ctxOf r.l, va, write⟩]) }

/-- The effective address of the lowest lane of a mask (R380). -/
def lowestEa (f : MemForm) (t : Thread) (ls : Mask) : Nat := match lowest ls with | some k => (f.ea t k).toNat | none => 0

/-- A memory-format instruction: pending tokens, the inactive case (R24), the checks and the translation, then the
operation that captures its sources. (DESIGN CHOICE, log entry 9; DEDUCED, log entry 27) -/
def memOp (f : MemForm) (dc : Option Nat) (d : Opnd) (data : Thread → Nat → BitVec 128) (kind : State → Ray → OpKind)
    (s : State) : Out :=
  match s.curRay with
  | none => .fault .noActor
  | some (core, rslot, r) =>
    match s.tokenWait f.i with
    | some q => .next (s.stallSlot (.token q))
    | none =>
      let act := r.th.active f.i.guard
      if act = 0 then .next (s.issueOp core rslot r f.i (s.newOp core rslot r f.i dc d 0 [] [] [] .empty))
      else match s.memIssue core r f act with
        | .trap c ls => .next (s.trapCur c ls (if 0x30 ≤ c ∧ c ≤ 0x33 then lowestEa f r.th ls else 0) 0)
        | .stall w => .next (s.stallSlot w)
        | .miss va => .next (s.askWalk core rslot va (f.store || f.writes))
        | .noMem => .fault .noSuchPhysical
        | .go ps => .next (s.issueOp core rslot r f.i
            (s.newOp core rslot r f.i dc d act (laneTab fun k => f.ea r.th k) ps (laneTab fun k => data r.th k) (kind s r)))

/-! ### The loads and stores of R169 and R170 -/

/-- A load of a type under a cache policy. -/
def loadForm (i : Instr) (a : Opnd) (ofs : MemOfs) (ty : Nat) (ro : Bool) : MemForm :=
  { i := i, ea := fun t k => t.ea a ofs (tySize ty) k, size := tySize ty, align := tySize ty
    reach := ⟨true, !ro, !ro && (ty == 4 || ty == 5), 0⟩, addrs := [(a, true)], once := false, chks := []
    store := false, writes := false, recs := false }

/-- A store of a type. -/
def storeForm (i : Instr) (a : Opnd) (ofs : MemOfs) (ty : Nat) (nt : Bool) : MemForm :=
  { i := i, ea := fun t k => t.ea a ofs (tySize ty) k, size := tySize ty, align := tySize ty
    reach := ⟨true, !nt, !nt && (ty == 4 || ty == 5), 0⟩, addrs := [(a, true)], once := false, chks := []
    store := true, writes := false, recs := true }

/-- Any load: it issues an operation that LOAD_COMPLETE or FIFO_OPERATION_COMPLETE completes (R171, R174). -/
def loadOp (i : Instr) (d a : Opnd) (dc : BitVec 3) (ofs : MemOfs) (ty cp : Nat) (ro : Bool) (s : State) : Out :=
  memOp (loadForm i a ofs ty ro) (some dc.toNat) d (fun _ _ => 0) (fun _ _ => .load ro ty cp) s

/-- Any store: its data is captured without marks (R166, R167); STORE_CHECK or FIFO_OPERATION_COMPLETE completes it. -/
def storeOp (i : Instr) (d a : Opnd) (dc : BitVec 3) (ofs : MemOfs) (ty cp : Nat) (nt : Bool) (s : State) : Out :=
  memOp (storeForm i a ofs ty nt) (some dc.toNat) d (fun t k => t.storeData d ty k) (fun _ _ => .store nt ty cp) s

/-- LD.Z32 (R169). -/
def execLdZ32 (g : Guard) (d a : Opnd) (dc : BitVec 3) (ofs : MemOfs) (s : State) : Out :=
  loadOp (.ldZ32 g d a dc ofs) d a dc ofs 4 0 false s
/-- LD.Z64 (R169). -/
def execLdZ64 (g : Guard) (d a : Opnd) (dc : BitVec 3) (ofs : MemOfs) (s : State) : Out :=
  loadOp (.ldZ64 g d a dc ofs) d a dc ofs 5 0 false s
/-- ST.Z32 (R169). -/
def execStZ32 (g : Guard) (d a : Opnd) (dc : BitVec 3) (ofs : MemOfs) (s : State) : Out :=
  storeOp (.stZ32 g d a dc ofs) d a dc ofs 4 0 false s
/-- ST.Z64 (R169). -/
def execStZ64 (g : Guard) (d a : Opnd) (dc : BitVec 3) (ofs : MemOfs) (s : State) : Out :=
  storeOp (.stZ64 g d a dc ofs) d a dc ofs 5 0 false s
/-- LDRO.Z32 (R169, R175). -/
def execLdroZ32 (g : Guard) (d a : Opnd) (dc : BitVec 3) (ofs : MemOfs) (s : State) : Out :=
  loadOp (.ldroZ32 g d a dc ofs) d a dc ofs 4 0 true s
/-- LDRO.Z64 (R169, R175). -/
def execLdroZ64 (g : Guard) (d a : Opnd) (dc : BitVec 3) (ofs : MemOfs) (s : State) : Out :=
  loadOp (.ldroZ64 g d a dc ofs) d a dc ofs 5 0 true s
/-- STNT.Z32 (R169, R176). -/
def execStntZ32 (g : Guard) (d a : Opnd) (dc : BitVec 3) (ofs : MemOfs) (s : State) : Out :=
  storeOp (.stntZ32 g d a dc ofs) d a dc ofs 4 0 true s
/-- STNT.Z64 (R169, R176). -/
def execStntZ64 (g : Guard) (d a : Opnd) (dc : BitVec 3) (ofs : MemOfs) (s : State) : Out :=
  storeOp (.stntZ64 g d a dc ofs) d a dc ofs 5 0 true s
/-- LD.type (R170). -/
def execLdType (g : Guard) (d a : Opnd) (dc : BitVec 3) (ofs : MemOfs) (cp : BitVec 2) (ty : BitVec 3) (s : State) : Out :=
  loadOp (.ldType g d a dc ofs cp ty) d a dc ofs ty.toNat cp.toNat false s
/-- ST.type (R170). -/
def execStType (g : Guard) (d a : Opnd) (dc : BitVec 3) (ofs : MemOfs) (cp : BitVec 2) (ty : BitVec 3) (s : State) : Out :=
  storeOp (.stType g d a dc ofs cp ty) d a dc ofs ty.toNat cp.toNat false s

/-! ### Drains (R176, R177) -/

/-- The ray has an STNT not yet performed at its home. -/
def Core.ntLeft (c : Core) (rslot : Nat) : Bool :=
  c.ops.any fun o => o.rslot == rslot && !o.done && (match o.kind with | .store true .. => true | _ => false)

/-- A drain: with an active lane its slot stalls while a condition holds (R248). (DESIGN CHOICE, log entry 17) -/
def drain (i : Instr) (wait : Core → Nat → Bool) (after : State → Nat → Nat → State) (s : State) : Out :=
  match s.curRay with
  | none => .fault .noActor
  | some (core, rslot, r) =>
    let s1 := s.finishSlot ((r.th.advance i.size).push Latch.zero)
    if r.th.active i.guard = 0 then .next s1
    else if wait (s.core core) rslot then .next (s.stallSlot .drain)
    else .next (after s1 core rslot)

/-- DRAINNT (R176). -/
def execDrainnt (g : Guard) (s : State) : Out := drain (.drainnt g) Core.ntLeft (fun s _ _ => s) s

/-- The event of some failures due: the oldest one's record, with every slot in INFO (R380, R382). -/
def dueEvent (oldest : BitVec 256) (slots : List Nat) (flags : Nat) : BitVec 256 :=
  oldest ||| BitVec.ofNat 256 (slots.foldl (fun n k => n ||| 2 ^ k) flags)

/-- The event of a ray that is parked for store failures is queued once each of its known failures holds a slot (R381). -/
def State.settleStores (s : State) (core rslot : Nat) : State :=
  match s.ray core rslot with
  | none => s
  | some r =>
    match r.dueStore with
    | [] => s
    | d :: ds =>
      if r.awaiting && (d :: ds).all (·.slot.isSome) then
        (s.setRay core rslot { r with dueStore := [], awaiting := false }).queueEvent core
          (dueEvent d.record ((d :: ds).filterMap (·.slot)) 0)
      else s

/-- Parks a ray for the store failures known (R381, R382); a quarter pipe and places of the fork queue that it holds are
free. (DEDUCED, log entry 41) -/
def State.parkStores (s : State) (core rslot : Nat) (r : Ray) : State :=
  ((s.updCore core fun c =>
    { c with rays := SMap.put c.rays rslot { r with parked := some .storeFault, awaiting := true, stall := none }
             pipes := c.freePipeOf r.pipe rslot }).dropPlaces core [rslot]).settleStores core rslot

/-- A ray that stands inside a clause and has store failures due is parked there, before its next instruction (R177).
(DEDUCED, log entry 40) -/
def State.reportDrained (s : State) (core rslot : Nat) : State :=
  match s.ray core rslot with
  | some r => if r.th.clause.isSome && r.parked.isNone && !r.dueStore.isEmpty then s.parkStores core rslot r else s
  | none => s

/-- DRAINST (R177): every earlier store has passed or failed its check, and a failure is reported before the next instruction;
at the clause's end the report is that of the boundary (R382). (DEDUCED, log entry 40) -/
def execDrainst (g : Guard) (s : State) : Out :=
  drain (.drainst g) (fun c k => (c.oldestUnchecked k).isSome) State.reportDrained s

/-! ### When an operation may take effect -/

/-- The bytes an access touches, as a space and a range. -/
def Place.range (p : Place) (n : Nat) : Option (Nat × Nat × Nat) :=
  match p with
  | .scratch o => some (0, o, n)
  | .phys h a _ => some (1, physKey h a, n)
  | _ => none

/-- Two ranges meet. -/
def rangesMeet (a b : Nat × Nat × Nat) : Bool :=
  a.1 == b.1 && decide (a.2.1 < b.2.1 + b.2.2) && decide (b.2.1 < a.2.1 + a.2.2)

/-- The ranges of memory that an operation has still to touch. -/
def Op.ranges (o : Op) : List (Nat × Nat × Nat) :=
  o.place.zipIdx.filterMap fun (p, k) => if bit o.served k then none else p.range o.size

/-- Two operations of one ray touch one location (R168). -/
def Op.conflicts (a b : Op) : Bool := a.ranges.any fun x => b.ranges.any fun y => rangesMeet x y

/-- A ray's own earlier accesses to a range have not all taken effect (R168). (DEDUCED, log entry 69) -/
def Core.ownAccess (c : Core) (rslot : Nat) (x : Nat × Nat × Nat) : Bool :=
  c.ops.any fun p => p.rslot == rslot && !p.done && p.ranges.any fun y => rangesMeet x y

/-- An ACQ or FENCE that has not completed holds what its ray issues after it, an STNT too (R188, R190). -/
def Op.holdsLater (o : Op) : Bool := match o.kind with | .acq | .fence _ => true | _ => false

/-- LDRES and STCON, which act on the reservations of their lanes (R184). -/
def Op.reserves (o : Op) : Bool := match o.kind with | .ldres _ | .stcon _ => true | _ => false

/-- Two operations act on one lane's reservation (R184, R185). -/
def Op.sharesResv (a b : Op) : Bool := a.reserves && b.reserves && a.act &&& b.act != 0

/-- The loads, stores and atomics that a FENCE orders; an STNT is not covered (R190). -/
def Op.fenced (o : Op) : Bool :=
  match o.kind with
  | .load .. | .atom .. | .ldres _ | .stcon _ | .ldt .. | .sth .. => true
  | .store nt .. => !nt
  | _ => false

/-- A FENCE that has completed while an access before it, or one ordered after that, still waits at a FIFO bank: it goes on ordering
the accesses on its two sides (R174, R190). (DEDUCED, log entry 115) -/
def Op.lingers (o : Op) : Bool := o.done && !o.isOver && (match o.kind with | .fence _ => true | _ => false)

/-- An older operation of a ray holds a later one. -/
def Op.holds (p o : Op) : Bool :=
  (!p.done && (p.holdsLater || p.conflicts o || p.sharesResv o)) || (p.lingers && o.fenced)

/-- An operation is held by an older ACQ or FENCE of its ray, or waits for an older operation of the ray on the same location
(R168) or on the same lane's reservation. A load after an STNT to its location returns the STNT's data, one of the two values that R176
allows. (DEDUCED, log entry 115; DEDUCED, log entry 121; DESIGN CHOICE, log entry 125) -/
def Core.mayPerform (c : Core) (o : Op) : Bool :=
  c.ops.all fun p => decide (o.id ≤ p.id) || p.rslot != o.rslot || !p.holds o

/-- An operation is done: decremented when its turn comes (R24). -/
def Op.finish (o : Op) : Op := { o with done := true, accepted := true, checked := true, isOver := true }

/-- The ray of an operation, with another thread. -/
def State.replyTo (s : State) (core : Nat) (o : Op) (f : Thread → Thread) : State :=
  s.updRay core o.rslot fun r => if r.l = o.l ∧ r.pos = o.pos then { r with th := f r.th } else r

/-- Completes an operation, with another thread for its ray. -/
def State.completeOp (s : State) (core : Nat) (o : Op) (f : Thread → Thread) : State :=
  ((s.replyTo core o f).updOp core o.id Op.finish).retire core

/-- One lane's bytes as read: the value and the state after it. The read-only path keeps 8 bytes together as it read them, until an
acquire drops them (R175, R288). (DESIGN CHOICE, log entry 93) -/
def State.readLane (s : State) (core : Nat) (p : Place) (ro : Bool) (n cp : Nat) : State × Nat :=
  match p with
  | .scratch o => (s, s.scratchN (clusterOf core) o n)
  | .fifo b =>
    let (c, ws) := (s.cluster (clusterOf core)).pop b (n / 4)
    (s.setCluster (clusterOf core) c, (ws.getD 0 0).toNat + (ws.getD 1 0).toNat * 2 ^ 32)
  | .phys h a nc =>
    if ro then
      let k := physKey h a
      let unit := (List.range 8).map (k / 8 * 8 + ·)
      let s := if unit.all (SMap.has (s.core core).ro) then s
        else s.updCore core fun c => { c with ro := unit.foldl (fun m q => SMap.put m q (s.l1Byte core q)) c.ro }
      (s, leNat ((List.range n).map fun i => SMap.get (s.core core).ro 0 (k + i)))
    else s.loadBytes core h a n cp nc
  | _ => (s, 0)

/-- The line that a lane's request goes to (R272); accesses of scratchpad and FIFO banks are not coalesced. -/
def Op.line (o : Op) (k : Nat) : Nat :=
  match o.place.getD k .off with
  | .phys .. => (o.ea.getD k 0).toNat / 1024 + 1
  | _ => 0

/-- The lanes in the order in which their requests leave (R272). -/
def Op.laneOrder (o : Op) : List Nat := lanesByLine o.line

/-- The bytes of some lanes, in the order of the requests (R171, R174, R272). -/
def State.readLanes (s : State) (core : Nat) (o : Op) (lanes : Mask) (ro : Bool) (n cp : Nat) : State × List Nat :=
  o.laneOrder.foldl (fun (s, vs) k =>
    if bit lanes k then
      let (s, v) := s.readLane core (o.place.getD k .off) ro n cp
      (s, setAt vs k v)
    else (s, vs)) (s, List.replicate 32 0)

/-- The words of memory in which n bytes of a place lie. -/
def Place.words (p : Place) (cl n : Nat) : List (Nat × Nat) :=
  match p with
  | .scratch ofs => sramWords cl ofs n
  | .phys h a _ => hbmWords (physKey h a) n
  | _ => []

/-- Reads of n bytes at some places meet the errors of their words (R413): SRC 0x05 with its stack for HBM, 0x03 with the cluster
for SRAM. Host memory has none of the module's. -/
def State.meetPlaces (s : State) (core n : Nat) (ps : List Place) : State × Bool :=
  let (src, addr, at_) : Nat × Nat × Nat := match ps.head? with
    | some (.phys _ a _) => (0x05, a, stackOf a)
    | _ => (0x03, 0, clusterOf core)
  let ws := ps.flatMap fun p => p.words (clusterOf core) n
  if ws.isEmpty then (s, false) else s.meetError ws src addr at_

/-- A load's lanes as they are read: an error that they meet is corrected or poisons its data, and the load returns what it reads,
for which the spec gives a load no code (R288, R413). (DESIGN CHOICE, log entry 20) -/
def State.readMet (s : State) (core : Nat) (o : Op) (lanes : Mask) (ro : Bool) (n cp : Nat) : State × List Nat :=
  (s.meetPlaces core n ((lanesOf lanes).map fun k => o.place.getD k .off)).1.readLanes core o lanes ro n cp

/-- The lanes by which some lanes of an operation write its destination: a scalar register takes the lowest active lane's value (R19). -/
def Op.destLanes (o : Op) (lanes : Mask) : Mask :=
  match o.d, lowest o.act with
  | .s _, some k => lanes &&& BitVec.ofNat 32 (2 ^ k)
  | _, _ => lanes

/-- Some lanes of an operation have been served, with another thread for its ray; the operation goes on. -/
def State.serveLanes (s : State) (core : Nat) (o : Op) (lanes : Mask) (f : Thread → Thread) : State :=
  (s.replyTo core o f).updOp core o.id fun p => { p with served := p.served ||| lanes }

/-- An operation touches a FIFO bank. -/
def Op.fifo (o : Op) : Bool := o.fifoLanes != 0

/-- LOAD_COMPLETE (R171): a load or LDRES returns and writes its lanes. LDRES also takes its reservations (R184). The lanes of a FIFO
load that access memory are read and written so, which waits for no element (R167, R174), and the load goes on.
(DESIGN CHOICE, log entry 16) -/
def execLoadComplete (core op : Nat) (s : State) : Out :=
  match (s.core core).op op with
  | none => .next s
  | some o =>
    if o.done || (o.fifo && o.landed) || !(s.core core).mayPerform o then .next s
    else match o.kind with
      | .load ro ty cp =>
        let lanes := if o.fifo then o.memLanes &&& ~~~o.served else o.act
        let (s, vs) := s.readMet core o lanes ro (tySize ty) cp
        let f (t : Thread) : Thread := t.setLoad o.d ty (o.destLanes lanes) (fun k => loadExt ty (vs.getD k 0)) false
        .next (if o.fifo then s.serveLanes core o lanes f else s.completeOp core o f)
      | .ldres w =>
        let (s, vs) := s.readMet core o o.act false o.size 0
        let g (k : Nat) : Option Granule := match o.place.getD k .off with
          | .scratch x => some ⟨true, false, x / 64 + clusterOf core * 2 ^ 32⟩
          | .phys h a _ => some (physGranule (physKey h a))
          | _ => none
        let s := s.updRay core o.rslot fun r =>
          { r with resv := laneTab fun k => if bit o.act k then g k else r.resv.getD k none
                   resvVa := laneTab fun k => if bit o.act k then (o.ea.getD k 0).toNat / 64 else r.resvVa.getD k 0 }
        .next (s.completeOp core o fun t => t.setLoad o.d (if w then 5 else 4) o.act (fun k => BitVec.ofNat 128 (vs.getD k 0)) false)
      | _ => .next s

/-! ### Stores (R171, R173, R381) -/

/-- The lowest free store-fault record slot (R381). -/
def Core.freeRec (c : Core) : Option Nat := SMap.firstFree c.recs 16

/-- The store tag of an operation, with a virtual address that it writes (R383). -/
def Op.tag (o : Op) (core role va : Nat) : StoreTag := ⟨o.ctx, core, o.rslot, o.l, o.pos, o.rayId, role, o.pc, va⟩

/-- The role of an operation's ray. -/
def State.roleOf (s : State) (core : Nat) (o : Op) : Nat :=
  match s.ray core o.rslot with | some r => r.role | none => 0

/-- The ray of an operation has ended, or has left its slot. -/
def State.opRayEnded (s : State) (core : Nat) (o : Op) : Bool :=
  match s.ray core o.rslot with | some r => r.th.live == 0 || r.l != o.l || r.pos != o.pos | none => true

/-- Writes one lane of a store (R171, R174). -/
def State.writeLane (s : State) (core : Nat) (o : Op) (nt : Bool) (n cp k : Nat) : State :=
  let bs := leBytes n (o.data.getD k 0).toNat
  let tag := o.tag core (s.roleOf core o) (o.ea.getD k 0).toNat
  match o.place.getD k .off with
  | .scratch x => s.writeScratch (clusterOf core) x (some (core, o.rslot, k)) bs
  | .fifo b => s.updCluster (clusterOf core) fun c =>
      c.pushes b ((List.range (n / 4)).map fun j => quad (o.data.getD k 0) j)
  | .phys h a nc => if nt then s.storeNt core h a tag k bs else s.storeBytes core h a cp nc tag k bs
  | _ => s

/-- Writes some lanes of a store, in the order of the requests (R168, R171, R272). -/
def State.writeLanes (s : State) (core : Nat) (o : Op) (lanes : Mask) (nt : Bool) (n cp : Nat) : State :=
  o.laneOrder.foldl (fun s k => if bit lanes k then s.writeLane core o nt n cp k else s) s

/-- The cause of a failing lane. -/
def Place.failCause (p : Place) : Option Nat := match p with | .bad c => some c | _ => none

/-- The record of a store fault (R380, R381), with its record slot in INFO once it holds one. (DEDUCED, log entry 41) -/
def State.storeRecord (s : State) (core : Nat) (o : Op) : BitVec 256 :=
  let k := (lowest o.failed).getD 0
  eventRec o.ctx o.rslot o.rayId (s.roleOf core o) (s.opRayEnded core o) 2 0 (((o.place.getD k .off).failCause).getD 0x72)
    (match o.recSlot with | some j => 2 ^ j | none => 0) o.pc o.failed (o.ea.getD k 0).toNat

/-! ### Stores to bound objects (R187) -/

/-- The level of an object's point of coherence (R289): a page with NC set is never allocated in the L1 (R275). -/
def objectLevel (scope : Nat) (nc : Bool) : Nat := if nc then max 2 scope else scope

/-- The objects that running launches bind and that some bytes of physical memory belong to: the cores in use, context, level and
key. -/
def State.objectsHit (s : State) (ks : List (Nat × Nat)) : List (List Nat × Nat × Nat × Nat) :=
  s.launches.flatMap fun (_, x) =>
    if x.begun && !x.isOver then
      x.regions.filterMap fun r => (s.walk x.ctx r.obj).bind fun e =>
        let q := e.key r.obj
        if ks.any fun (k, n) => decide (k < q + 64) && decide (q < k + n) then some (x.coresUsed, x.ctx, objectLevel r.scope e.nc, q) else none
    else []

/-- Writes GEN of an object at its point of coherence, with a tag: no longer to the host for a context that has lost its trust (R401). -/
def State.writeGen (s : State) (core ctx level k : Nat) (tag : Option StoreTag) (v : Nat) : State :=
  if keyHost k && s.cutOff ctx then s else s.pointWrite core level k tag none (leBytes 8 v)

/-- A store to a bound object leaves its GEN unspecified (R187): free values at its points of coherence, above which no copy is
left. (DESIGN CHOICE, log entry 22) -/
def State.spoilGen (s : State) (ks : List (Nat × Nat)) : State :=
  (s.objectsHit ks).foldl (fun s (used, ctx, level, q) =>
    let s := s.cores.foldl (fun s (c, _) => s.toPoint c level q 8) s
    (if level ≤ 2 then used else used.take 1).foldl (fun s c =>
      (s.writeGen c ctx level q none (Config.gen s.tick).toNat).bump) s) s

/-- The bytes of memory that some lanes of a store write. -/
def Op.written (o : Op) (lanes : Mask) : List (Nat × Nat) :=
  (lanesOf lanes).filterMap fun k => match o.place.getD k .off with
    | .phys h a _ => some (physKey h a, o.size)
    | _ => none

/-! ### The check of a store (R171, R173, R381) -/

/-- The reservation of a lane covers its address and is intact (R184). -/
def Ray.holds (r : Ray) (core : Nat) (o : Op) (k : Nat) : Bool :=
  match o.place.getD k .off with
  | .scratch x => r.resv.getD k none == some ⟨true, false, x / 64 + clusterOf core * 2 ^ 32⟩
  | .phys h a _ => r.resv.getD k none == some (physGranule (physKey h a))
  | .bad _ => (r.resv.getD k none).isSome && r.resvVa.getD k 0 == (o.ea.getD k 0).toNat / 64
  | _ => false

/-- The reservation that a lane of a STCON finds: that of the ray's last LDRES before it, still to be performed or taken
(R184, R185). (DEDUCED, log entry 41) -/
def State.willHold (s : State) (core : Nat) (o : Op) (k : Nat) : Bool :=
  let older := (s.core core).ops.filter fun p => decide (p.id < o.id) && p.rslot == o.rslot && !p.done && !p.landed && bit p.act k &&
    (match p.kind with | .ldres _ | .stcon _ => true | _ => false)
  match older.getLast? with
  | some p => (match p.kind with | .ldres _ => (p.ea.getD k 0).toNat / 64 == (o.ea.getD k 0).toNat / 64 | _ => false)
  | none => match s.ray core o.rslot with | some r => r.holds core o k | none => false

/-- A lane of a store that would write: of a STCON one whose reservation holds (R184). -/
def State.wouldWrite (s : State) (core : Nat) (o : Op) (k : Nat) : Bool :=
  match o.kind with | .stcon _ => s.willHold core o k | _ => true

/-- The lanes of a store that fail their check: those that could not be translated, and the others where the store meets an
uncorrectable error; of a STCON only those whose reservation holds (R171, R173, R184, R413). -/
def State.failLanes (s : State) (core : Nat) (o : Op) (ecc : Bool) : Mask :=
  lanesWhere o.memLanes fun k => (match o.place.getD k .off with | .bad _ => true | .phys .. | .scratch _ => ecc | _ => false) &&
    s.wouldWrite core o k

/-- The words that a store writes into, whose errors it meets (R413). -/
def State.storeWords (s : State) (core : Nat) (o : Op) : List (Nat × Nat) :=
  (lanesOf (lanesWhere o.memLanes (s.wouldWrite core o))).flatMap fun k => (o.place.getD k .off).words (clusterOf core) o.size

/-- The check of a store, STNT or STCON is made, whatever still holds its writing: a failure is known to its ray from now on (R381).
Data that is poisoned where it writes is uncorrectable to it, and an uncorrectable error that it meets poisons a word there (R413).
(DEDUCED, log entry 41; DESIGN CHOICE, log entry 95) -/
def State.checkStore (s : State) (core : Nat) (o : Op) : State × Op :=
  let src := if o.place.any fun p => match p with | .phys .. => true | _ => false then 0x02 else 0x03
  let (s, ecc) := s.meetError (s.storeWords core o) src 0 (clusterOf core)
  let o' := { o with checked := true, failed := s.failLanes core o ecc }
  let s := s.updOp core o.id fun _ => o'
  (if o'.failed = 0 ∨ s.opRayEnded core o then s
    else s.updRay core o.rslot fun r => { r with dueStore := r.dueStore ++ [⟨o.id, none, s.storeRecord core o'⟩] }, o')

/-- A store's lanes that are no FIFO accesses are over: it completes, unless its FIFO lanes are left, or a failure that has no record
slot yet (R381). -/
def State.storeLanded (s : State) (core : Nat) (o : Op) (f : Thread → Thread) : State :=
  if (o.failed = 0 ∨ o.recSlot.isSome) ∧ (o.accepted || !o.fifo) then s.completeOp core o f
  else (s.replyTo core o f).updOp core o.id fun p =>
    { p with accepted := o.accepted || !o.fifo, served := p.served ||| o.memLanes }

/-- One lane of a STCON (R184): it stores if its reservation holds and its check has passed, and its reservation is cleared.
Answers also the lanes whose reservation held. -/
def State.stconLane (s : State) (core : Nat) (o : Op) (ok : Mask) (k : Nat) : State × Mask :=
  let holds := s.willHold core o k
  let s := if holds && !bit o.failed k then s.writeLane core o false o.size 0 k else s
  (s.updRay core o.rslot fun r => { r with resv := laneTab fun i => if i = k then none else r.resv.getD i none },
   if holds || bit o.failed k then ok ||| maskOf (· == k) else ok)

/-- STORE_CHECK (R171, R173): a store, STNT or STCON passes or fails its check in each lane that is no FIFO access. The lanes
that pass are written, at once or, where an older operation of the ray holds them, at a later such event; a bound object written so
has a GEN that is unspecified (R187). (DESIGN CHOICE, log entry 16; DESIGN CHOICE, log entry 17) -/
def execStoreCheck (core op : Nat) (s : State) : Out :=
  match (s.core core).op op with
  | none => .next s
  | some o =>
    if o.done || o.landed then .next s
    else match o.kind with
      | .store nt ty cp =>
        let (s, o) := if o.checked then (s, o) else s.checkStore core o
        if !(s.core core).mayPerform o then .next s
        else
          let pass := o.memLanes &&& ~~~o.failed
          .next (((s.writeLanes core o pass nt (tySize ty) cp).spoilGen (o.written pass)).storeLanded core o id)
      | .stcon _ =>
        let (s, o) := if o.checked then (s, o) else s.checkStore core o
        if !(s.core core).mayPerform o then .next s
        else
          let (s, ok) := o.laneOrder.foldl (fun (s, ok) k => if bit o.act k then s.stconLane core o ok k else (s, ok)) (s, 0)
          .next ((s.spoilGen (o.written (ok &&& ~~~o.failed))).storeLanded core o fun t =>
            t.setD o.d false o.act (fun k => if bit ok k then 0 else 1) fun _ => false)
      | _ => .next s

/-- The slot in which a tagged ray is resident and has not ended, whichever it held as it stored (R383). -/
def Core.seatOf (c : Core) (t : StoreTag) : Option Nat :=
  (List.range 64).find? fun k => match SMap.get? c.rays k with
    | some r => r.l == t.l && r.pos == t.pos && r.rayId == t.rayId && r.th.live != 0
    | none => false

/-- STORE_FAULT_RECORD (R381): a failed store takes the lowest free record slot; once its other lanes are over its counter may be
decremented. Its ray's
event may now be due, or an event with ENDED set where the ray has ended (R382). With op the number of no operation, the oldest
waiting write-back failure takes the slot instead; where its ray is not resident, ended or saved, its event has ENDED set (R383). -/
def execStoreFaultRecord (core op : Nat) (s : State) : Out :=
  match (s.core core).freeRec with
  | none => .next s
  | some k =>
    match (s.core core).op op with
    | some o =>
      if o.done || !o.checked || o.failed = 0 || o.recSlot.isSome then .next s
      else
        let rec_ := s.storeRecord core { o with recSlot := some k }
        let s := s.updCore core fun c => { c with recs := SMap.put c.recs k rec_ }
        let s := s.updOp core op fun o => { o with recSlot := some k }
        let s := if s.opRayEnded core o then s.queueEvent core (dueEvent rec_ [k] (2 ^ 40))
          else (s.updRay core o.rslot fun r =>
            { r with dueStore := r.dueStore.map fun d => if d.op = op then { d with slot := some k, record := rec_ } else d }).settleStores core o.rslot
        .next (if o.performed then s.completeOp core o fun t => t else s)
    | none =>
      match (s.core core).wbWait with
      | [] => .next s
      | (r0, t) :: rest =>
        let home := (s.core core).seatOf t
        let rec_ := recordAt r0 (home.getD t.rslot) k
        let s := s.updCore core fun c => { c with recs := SMap.put c.recs k rec_, wbWait := rest }
        match home with
        | some rslot => .next (s.updRay core rslot fun r => { r with dueWb := r.dueWb ++ [(k, rec_)] })
        | none => .next (s.queueEvent core (dueEvent rec_ [k] (2 ^ 40)))

/-- The event of write-back failures due (R383). -/
def dueWbEvent (ks : List (Nat × BitVec 256)) (flags : Nat) : BitVec 256 := dueEvent ((ks.map (·.2)).headD 0) (ks.map (·.1)) flags

/-- The events of the reports due of a ray that has ended have ENDED set and park nothing (R382, R383). A failure without a slot is
reported as it takes one. -/
def State.queueDues (s : State) (core : Nat) (r : Ray) : State :=
  let held := r.dueStore.filter (·.slot.isSome)
  let s := match held with
    | [] => s
    | d :: _ => s.queueEvent core (dueEvent d.record (held.filterMap (·.slot)) (2 ^ 40))
  if r.dueWb.isEmpty then s else s.queueEvent core (dueWbEvent r.dueWb (2 ^ 40))

/-- The reports that are still due for a ray that has ended are made. -/
def State.reportEnded (s : State) (core rslot : Nat) : State :=
  match s.ray core rslot with
  | none => s
  | some r => (s.setRay core rslot { r with dueStore := [], awaiting := false, dueWb := [] }).queueDues core r

/-- STORE_FAULT_REPORT (R381 to R383): at a clause boundary the ray is parked; its event, the oldest failure's record with every
slot in INFO, is queued once each failure holds a slot. A clause-entry trap comes first (R390). For a ray that has ended the
event has ENDED set and parks nothing. -/
def execStoreFaultReport (core rslot : Nat) (s : State) : Out :=
  match s.ray core rslot with
  | none => .next s
  | some r =>
    if r.parked.isSome || r.th.clause.isSome || !r.reportDue || (s.ready core rslot && s.entryTrap core r) then .next s
    else if r.th.live = 0 then .next (s.reportEnded core rslot)
    else if r.dueStore.isEmpty then
      .next ((s.setRay core rslot { r with parked := some .writeBack, dueWb := [] }).queueEvent core (dueWbEvent r.dueWb 0))
    else .next (s.parkStores core rslot r)

/-- FIFO_OPERATION_COMPLETE (R174): once the banks hold an element for every lane, or have room for all, and every older
operation of the ray at the bank is done, all elements move together. A store's other lanes have their own check (R173). -/
def execFifoOperationComplete (core op : Nat) (s : State) : Out :=
  match (s.core core).op op with
  | none => .next s
  | some o =>
    let older := (s.core core).ops.any fun p => decide (p.id < o.id) && !p.done && !p.accepted && p.rslot == o.rslot &&
      p.place.any fun x => match x with | .fifo b => o.elements b != 0 | _ => false
    if o.done || o.accepted || !o.fifo || older || !(s.core core).mayPerform o || (s.cluster (clusterOf core)).fifoLacks o then .next s
    else match o.kind with
      | .load ro ty cp =>
        let lanes := o.act &&& ~~~o.served
        let (s, vs) := s.readMet core o lanes ro (tySize ty) cp
        .next (s.completeOp core o fun t => t.setLoad o.d ty (o.destLanes lanes) (fun k => loadExt ty (vs.getD k 0)) false)
      | .store nt ty cp =>
        let s := s.writeLanes core o o.fifoLanes nt (tySize ty) cp
        if o.landed && (o.failed == 0 || o.recSlot.isSome) then .next (s.completeOp core o id)
        else .next (s.updOp core op fun o => { o with accepted := true })
      | _ => .next s

/-- DIRTY_WRITE_BACK (R278): a dirty sector is written back below with its byte mask. -/
def execDirtyWriteBack (level : CacheLevel) (unit sector : Nat) (s : State) : Out :=
  match level with
  | .l1 => .next (s.wbL1 unit sector).1
  | .cluster => .next (s.wbCluster unit sector).1
  | .l2 => .next (s.wbL2 unit sector).1

end Sys2Proof.Machine
end

