-- ==== Sys2Proof/Machine/Atomics.lean ====
section
/-!
DEFINITION. Atomics and reservations (R182 to R185): ATOM, LDRES and STCON as they issue, and the atomic as it is
applied at its scope's point of coherence (R289). LOAD_COMPLETE and STORE_CHECK complete LDRES and STCON.
-/
namespace Sys2Proof.Machine

/-! ### ATOM (R182, R183) -/

/-- A type's width in bytes: S64 and Z64 have 8. -/
def atomWide (ty : Nat) : Bool := ty == 2 || ty == 3

/-- RoundRNE arithmetic with subnormals honoured (R183). -/
def atomMode : FMode := ⟨.rne, false, 0⟩

/-- The mode in which MinNum and MaxNum read: a subnormal as zero where FZ32 is set (R39, R144). -/
def atomFlush (fz : Bool) : FMode := if fz then ⟨.rne, false, BitVec.ofNat 32 (2 ^ fmtF32.flushBit)⟩ else atomMode

/-- The new value of an atomic step (R183). Of the ray's %fmode only FZ32 has a part, in MIN and MAX of FP32; it is taken as the
ray issues. (DEDUCED, log entry 107) -/
def atomNew (fz : Bool) (ty op old cmp c : Nat) : Nat :=
  let w := if atomWide ty then 64 else 32
  let m := 2 ^ w
  let le (x y : Nat) : Bool := if ty = 0 ∨ ty = 2 then decide ((BitVec.ofNat w x).toInt ≤ (BitVec.ofNat w y).toInt) else decide (x ≤ y)
  match op with
  | 0 => if ty = 4 then (fadd atomMode fmtF32 old c).1 else (old + c) % m
  | 1 => if ty = 4 then (minMax false (atomFlush fz) fmtF32 old c).1 else if le old c then old else c
  | 2 => if ty = 4 then (minMax true (atomFlush fz) fmtF32 old c).1 else if le old c then c else old
  | 3 => old &&& c
  | 4 => old ||| c
  | 5 => old ^^^ c
  | 6 => c
  | _ => if old = cmp then c else old

/-- The issue of a 4- or 8-byte access that reaches global memory and scratchpad (R183, R184). -/
def accessForm (i : Instr) (a : Opnd) (ofs : MemOfs) (wide : Bool) (addrs : List (Opnd × Bool)) (store writes : Bool) : MemForm :=
  let n := if wide then 8 else 4
  { i := i, ea := fun t k => t.ea a ofs n k, size := n, align := n, reach := ⟨true, true, false, 0⟩, addrs := addrs
    once := false, chks := [], store := store, writes := writes, recs := store }

/-- A 32- or 64-bit source as a number. -/
def Thread.rdN (t : Thread) (wide : Bool) (o : Opnd) (k : Nat) : Nat :=
  if wide then (t.rd64 false o k).toNat else (t.rd32 o k).toNat

/-- ATOM (R182, R183): the operand c and, for CAS, the old d are read at issue as non-linear operands (R166). -/
def execAtom (g : Guard) (d a : Opnd) (dc : BitVec 3) (ofs : MemOfs) (c : Opnd) (scope ty : BitVec 3) (op : BitVec 4)
    (s : State) : Out :=
  let w := atomWide ty.toNat
  memOp (accessForm (.atom g d a dc ofs c scope ty op) a ofs w
      ([(a, true), (c, w)] ++ (if op = 7 then [(d, w)] else [])) false true)
    (some dc.toNat) d (fun t k => BitVec.ofNat 128 (t.rdN w c k + t.rdN w d k * 2 ^ 64))
    (fun _ r => .atom scope.toNat ty.toNat op.toNat (r.th.fmodeArith.flush fmtF32)) s

/-- One lane's step of an atomic: the state after it and the old value. (DEDUCED, log entry 81) -/
def State.atomStep (s : State) (core : Nat) (o : Op) (fz : Bool) (scope ty op k : Nat) : State × Nat :=
  let n := o.size
  let x := (o.data.getD k 0).toNat
  let f (old : Nat) : Nat := atomNew fz ty op old (x / 2 ^ 64 % 256 ^ n) (x % 256 ^ n)
  match o.place.getD k .off with
  | .scratch a =>
    let old := s.scratchN (clusterOf core) a n
    (s.writeScratch (clusterOf core) a (some (core, o.rslot, k)) (leBytes n (f old)), old)
  | .phys h a _ =>
    let q := physKey h a
    let level := max 2 scope
    let s := s.toPoint core level q n
    let old := s.pointRead core level q n
    (s.pointWrite core level q (some (o.tag core (s.roleOf core o) (o.ea.getD k 0).toNat)) (some (core, o.rslot, k)) (leBytes n (f old)), old)
  | _ => (s, 0)

/-- The locations whose requests are still to be applied, in the order in which the requests leave (R272, R286). -/
def Op.locations (o : Op) : List Place :=
  ((o.laneOrder.filter fun k => bit o.act k && !bit o.served k).map fun k => o.place.getD k .off).eraseDups

/-- The request of one location is applied (R286): its lanes' steps in ascending order, no other party between them. -/
def State.atomRequest (s : State) (core : Nat) (o : Op) (fz : Bool) (scope ty f : Nat) (p : Place) : State × Op :=
  let mine := lanesWhere o.act fun k => o.place.getD k .off == p
  let (s, vs) := (lanesOf mine).foldl (fun (s, vs) k => let (s, v) := s.atomStep core o fz scope ty f k; (s, setAt vs k v))
    (s, if o.olds.isEmpty then List.replicate 32 0 else o.olds)
  (s, { o with served := o.served ||| mine, olds := vs })

/-- ATOMIC_COMPLETE (R183, R286): the request of one of the instruction's locations is applied at the point of coherence, which
of them being open; with the last the old values return. The read meets the errors of its words as a load does (R413).
(DEDUCED, log entry 81) -/
def execAtomicComplete (core op : Nat) (s : State) : Out :=
  match (s.core core).op op with
  | none => .next s
  | some o =>
    match o.kind with
    | .atom scope ty f fz =>
      if o.done || !(s.core core).mayPerform o then .next s
      else
        let ps := o.locations
        let p := ps.getD (if ps.length ≤ 1 then 0 else Config.pick s.tick % ps.length) .off
        let (s, o') := (s.bump.meetPlaces core o.size [p]).1.atomRequest core o fz scope ty f p
        if ps.length ≤ 1 then
          .next (s.completeOp core o fun t =>
            t.setLoad o.d (if atomWide ty then 5 else 4) o.act (fun k => BitVec.ofNat 128 (o'.olds.getD k 0)) false)
        else .next (s.updOp core op fun q => { q with accepted := true, served := o'.served, olds := o'.olds })
    | _ => .next s

/-! ### LDRES and STCON (R184) -/

/-- LDRES (R184). -/
def execLdres (g : Guard) (d a : Opnd) (dc : BitVec 3) (ofs : MemOfs) (w : Bool) (s : State) : Out :=
  memOp (accessForm (.ldres g d a dc ofs w) a ofs w [(a, true)] false false) (some dc.toNat) d (fun _ _ => 0)
    (fun _ _ => .ldres w) s

/-- STCON (R184): c is store data, read without its mark (R166). -/
def execStcon (g : Guard) (d a : Opnd) (dc : BitVec 3) (ofs : MemOfs) (c : Opnd) (w : Bool) (s : State) : Out :=
  memOp (accessForm (.stcon g d a dc ofs c w) a ofs w [(a, true)] true false) (some dc.toNat) d
    (fun t k => BitVec.ofNat 128 (t.rdN w c k)) (fun _ _ => .stcon w) s

end Sys2Proof.Machine
end

