-- ==== Sys2Proof/Machine/Sync.lean ====
section
/-!
DEFINITION. Synchronisation objects and fences (R186 to R190, R296): ACQ, REL and FENCE as they issue and complete.
-/
namespace Sys2Proof.Machine

/-! ### Regions of an object (R293, R296) -/

/-- The regions that a launch's table binds to an object. -/
def State.regionsOf (s : State) (l : Nat) (obj : Nat) : List Region :=
  match s.launch l with
  | some x => x.regions.filter fun r => r.obj == obj
  | none => []

/-- The physical key ranges of a region, page piece by page piece: first key and length. -/
def State.regionKeys (s : State) (ctx : Nat) (r : Region) : List (Nat × Nat) :=
  (List.range (r.size / 65536 + 2)).filterMap fun j =>
    let lo := max r.base (r.base / 65536 * 65536 + 65536 * j)
    let hi := min (r.base + r.size) (r.base / 65536 * 65536 + 65536 * (j + 1))
    if lo < hi then (s.keyOf ctx lo).map fun k => (k, hi - lo) else none

/-- A key lies in one of some ranges. -/
def inKeys (ks : List (Nat × Nat)) (k : Nat) : Bool := ks.any fun (a, n) => decide (a ≤ k) && decide (k < a + n)

/-- The key ranges of all regions of an object. -/
def State.objectKeys (s : State) (ctx l obj : Nat) : List (Nat × Nat) := (s.regionsOf l obj).flatMap (s.regionKeys ctx)

/-- The scope of a bound object. -/
def State.objectScope (s : State) (l obj : Nat) : Nat := match s.regionsOf l obj with | r :: _ => r.scope | [] => 4

/-- The address names no object that the launch binds: cause 0x34 (R295). -/
def unbound (a : Opnd) (ofs : MemOfs) (s : State) (r : Ray) (k : Nat) : Bool :=
  (s.regionsOf r.l (r.th.ea a ofs 64 k).toNat).isEmpty

/-- The issue of ACQ and REL. -/
def syncForm (i : Instr) (a : Opnd) (ofs : MemOfs) (rel : Bool) : MemForm :=
  { i := i, ea := fun t k => t.ea a ofs 64 k, size := 64, align := 64, reach := ⟨true, false, false, 0⟩, addrs := [(a, true)]
    once := true, chks := [(0x34, unbound a ofs)], store := false, writes := rel, recs := rel }

/-- ACQ (R188). -/
def execAcq (g : Guard) (d a : Opnd) (dc : BitVec 3) (ofs : MemOfs) (s : State) : Out :=
  memOp (syncForm (.acq g d a dc ofs) a ofs false) (some dc.toNat) d (fun _ _ => 0) (fun _ _ => .acq) s

/-- REL (R189). -/
def execRel (g : Guard) (d a : Opnd) (dc : BitVec 3) (ofs : MemOfs) (s : State) : Out :=
  memOp (syncForm (.rel g d a dc ofs) a ofs true) (some dc.toNat) d (fun _ _ => 0) (fun _ _ => .rel) s

/-- FENCE (R190): it has no address. -/
def execFence (g : Guard) (dc scope : BitVec 3) (s : State) : Out :=
  match s.curRay with
  | none => .fault .noActor
  | some (core, rslot, r) =>
    let i := Instr.fence g dc scope
    let act := r.th.active g
    .next (s.issueOp core rslot r i
      (s.newOp core rslot r i (some dc.toNat) .nul act [] [] [] (if act = 0 then .empty else .fence scope.toNat)))

/-! ### Completion -/

/-- The object of an ACQ or REL, its key, its scope and the level of its point of coherence: the lowest active lane's address (R164). -/
def State.objectOf (s : State) (o : Op) : Option (Nat × Nat × Nat × Nat) :=
  match lowest o.act with
  | none => none
  | some k =>
    match o.place.getD k .off with
    | .phys h a nc =>
      let obj := (o.ea.getD k 0).toNat
      let scope := s.objectScope o.l obj
      some (obj, physKey h a, scope, objectLevel scope nc)
    | _ => none

/-- Drops the clean copies of some keys that an acquire at a scope drops (R296). -/
def State.dropForAcq (s : State) (core scope : Nat) (f : Nat → Bool) : State :=
  let s := s.updCore core fun c =>
    { c with ro := c.ro.filter fun (k, _) => !f k
             l1 := if scope ≤ 1 then c.l1 else c.l1.dropClean f }
  let s := if scope ≤ 2 then s else s.updCluster (clusterOf core) fun c => { c with cache := c.cache.dropClean f }
  if scope ≤ 4 then s else s.setL2 0 ((s.l2Of 0).dropClean fun k => keyHost k && f k)

/-- ACQ_COMPLETE (R188): drops stale copies, reads GEN at the scope's point, releases the hold. -/
def execAcqComplete (core op : Nat) (s : State) : Out :=
  match (s.core core).op op with
  | none => .next s
  | some o =>
    if o.kind != .acq || o.done || !(s.core core).mayPerform o then .next s
    else match s.objectOf o with
      | none => .next s
      | some (obj, k, scope, level) =>
        let s := s.dropForAcq core scope (inKeys (s.objectKeys o.ctx o.l obj))
        let s := s.toPoint core level k 8
        let v := s.pointRead core level k 8
        .next (s.completeOp core o fun t => t.setLoad o.d 5 o.act (fun _ => BitVec.ofNat 128 v) false)

/-- An operation writes memory on its ray's behalf and is not yet performed: stores other than STNT, atomics, STCON, REL. What a store
pushes into a FIFO bank is no such write. -/
def Op.writing (o : Op) : Bool :=
  !o.done && !o.landed && (match o.kind with | .store nt .. => !nt | .atom .. => true | .stcon _ => true | .rel => true | _ => false)

/-- An operation's lanes touch a virtual range. -/
def Op.inRange (o : Op) (base size : Nat) : Bool :=
  (List.range 32).any fun k => bit o.act k &&
    decide (base < (o.ea.getD k 0).toNat + max 1 o.size) && decide ((o.ea.getD k 0).toNat < base + size)

/-- A write of the releasing ray to the object's regions, or an earlier REL of the object, is outstanding (R189). -/
def State.relWaits (s : State) (core : Nat) (o : Op) (obj : Nat) : Bool :=
  (s.core core).ops.any fun p => decide (p.id < o.id) && p.rslot == o.rslot && p.writing &&
    ((s.regionsOf o.l obj).any (fun r => p.inRange r.base r.size) || (p.kind == .rel && p.inRange obj 64))

/-- The dirty sectors above a scope's point that a condition names. -/
def State.dirtyAbove (s : State) (core scope : Nat) (f : Nat → Bool) : List Nat :=
  let l1 := (s.core core).l1.dirtySectors
  let cl := if scope ≤ 2 then [] else (s.cluster (clusterOf core)).cache.dirtySectors
  let l2 := if scope ≤ 4 then [] else ((s.l2Of 0).dirtySectors.filter fun sec => keyHost (sec * 256))
  (l1 ++ cl ++ l2).eraseDups.filter fun sec => (sectorKeys sec).any f

/-- All that is dirty in the caches a core writes is performed for every party. -/
def State.publishAll (s : State) (core : Nat) : State := (s.publish core 5 (s.dirtyAbove core 5 fun _ => true)).1

/-- REL_COMPLETE (R189): the ray's writes to the object's regions written back to the scope, then GEN + 1, indivisibly;
the status is the first failure of the write-backs. -/
def execRelComplete (core op : Nat) (s : State) : Out :=
  match (s.core core).op op with
  | none => .next s
  | some o =>
    if o.kind != .rel || o.done || !(s.core core).mayPerform o then .next s
    else match s.objectOf o with
      | none => .next s
      | some (obj, k, scope, level) =>
        if s.relWaits core o obj then .next s
        else
          let keys := s.objectKeys o.ctx o.l obj
          let (s, st) := s.publish core scope (s.dirtyAbove core scope (inKeys keys))
          let s := s.toPoint core level k 8
          let s := s.writeGen core o.ctx level k (some (o.tag core (s.roleOf core o) obj)) (s.pointRead core level k 8 + 1)
          .next (s.completeOp core o fun t => t.setLoad o.d 4 o.act (fun _ => BitVec.ofNat 128 st) false)

/-- An access that a FENCE orders is not yet performed (R190). -/
def Op.fenceWaits (p : Op) : Bool :=
  !p.done && (match p.kind with
    | .store nt .. => !nt && !p.performed
    | .stcon _ => !p.performed
    | .load .. | .atom .. | .ldres _ | .ldt .. | .sth .. | .acq | .rel | .fence _ => true
    | .copy c => !c.accepted
    | _ => false)

/-- An operation waits at a FIFO bank, or may be ordered after one that does: it comes after a FENCE that lingers. For it a ray waits
only through its own counter (R174, R248). (DEDUCED, log entry 115) -/
def Core.behindFifo (c : Core) (p : Op) : Bool :=
  (p.fifo && p.landed) ||
    (p.kind != .acq && (match p.kind with | .fence _ => false | _ => true) &&
      c.ops.any fun f => f.lingers && f.rslot == p.rslot && decide (f.id < p.id))

/-- Earlier accesses of the ray that a FENCE orders are outstanding (R190). -/
def State.fenceOlder (s : State) (core : Nat) (o : Op) : List Op :=
  (s.core core).ops.filter fun p => decide (p.id < o.id) && p.rslot == o.rslot && p.fenceWaits

/-- An earlier access of the ray that a FENCE orders is outstanding (R190). -/
def State.fenceWaits (s : State) (core : Nat) (o : Op) : Bool := !(s.fenceOlder core o).isEmpty

/-- FENCE_COMPLETE (R190): the earlier accesses are performed at the scope and the later ones released. Where nothing is outstanding
but accesses at a FIFO bank and what is ordered after them, the FENCE completes and lingers: its hold ends, and the later loads, stores
and atomics wait on for them (R174, R248). (DEDUCED, log entry 115) -/
def execFenceComplete (core op : Nat) (s : State) : Out :=
  match (s.core core).op op with
  | none => .next s
  | some o =>
    match o.kind with
    | .fence scope =>
      if o.isOver || (s.fenceOlder core o).any (fun p => !(s.core core).behindFifo p) then .next s
      else if s.fenceWaits core o then
        .next ((s.updOp core op fun p => { p with done := true, accepted := true }).retire core)
      else
        let (s, _) := s.publish core scope (s.dirtyAbove core scope fun _ => true)
        .next (s.completeOp core o id)
    | _ => .next s

end Sys2Proof.Machine
end

