-- ==== Sys2Proof/Machine/Tiles.lean ====
section
/-!
DEFINITION. The coefficient domain: heads and data of scratchpad tiles (R54 to R59), the prism unit's transforms
(R60, R62), LDT, LDT.C and STH as they issue and complete (R68, R178 to R181).
-/
namespace Sys2Proof.Machine

/-! ### Heads (R54, R56, R58) -/

/-- A tile's head. -/
structure Head where
  tag : Nat
  fmt : Nat
  nlog : Nat
  ch : Nat
  count : Nat
  bitmap : Nat
  deriving DecidableEq, Repr

/-- LEVELS, AXIS and THR of a tag (R54). -/
def tagLevels (t : Nat) : Nat := t % 8
def tagAxis (t : Nat) : Nat := t / 8 % 2
def tagThr (t : Nat) : Nat := t / 16 % 16
/-- A tag as the device reads and writes it: one with LEVELS 0 is 0x00. -/
def tagNorm (t : Nat) : Nat := if tagLevels t = 0 then 0 else t

/-- The element format of a FMT code and its bytes. -/
def tileFmt (c : Nat) : Fmt := match c with | 0 => fmtF32 | 1 => fmtF16 | _ => fmtBf16
def tileBytes (c : Nat) : Nat := if c = 0 then 4 else 2

/-- Positions, units and channels of a head. -/
def Head.n (h : Head) : Nat := 2 ^ h.nlog
def Head.units (h : Head) : Nat := h.n * h.ch
/-- Whether a unit is present. -/
def Head.has (h : Head) (u : Nat) : Bool := h.bitmap.testBit u
/-- The number of present units below one. -/
def Head.before (h : Head) (u : Nat) : Nat := ((List.range u).filter h.has).length

/-- The head's fields, with whether its reserved fields are 0. -/
def headOf (bs : List Byte) : Head × Bool :=
  let x := leNat (bs.take 16)
  ({ tag := x % 256, fmt := nbits x 11 8, nlog := nbits x 23 16, ch := nbits x 31 24, count := nbits x 47 32
     bitmap := leNat (bs.drop 64) },
   nbits x 15 12 == 0 && nbits x 127 48 == 0 && leNat ((bs.take 64).drop 16) == 0)

/-- The rules that tag, format and sizes break (R58). -/
def shapeBad (tag fmt nlog ch : Nat) : Bool :=
  tagLevels tag == 7 || decide (2 < fmt) || nlog == 0 || decide (7 < nlog) || ch == 0 || decide (4 < ch) ||
    decide (nlog < tagLevels tag)

/-- A head that breaks a rule of R58. -/
def headBad (h : Head) (clean : Bool) : Bool :=
  !clean || shapeBad h.tag h.fmt h.nlog h.ch || decide (2 ^ h.units ≤ h.bitmap) ||
    (tagLevels h.tag != 0 && h.count != h.before h.units)

/-- The 128 bytes of a head. -/
def Head.bytes (h : Head) : List Byte :=
  leBytes 64 (h.tag + h.fmt * 2 ^ 8 + h.nlog * 2 ^ 16 + h.ch * 2 ^ 24 + h.count * 2 ^ 32) ++ leBytes 64 h.bitmap

/-! ### The prism unit (R60) -/

/-- RoundRNE of half of an exact sum. -/
def halfSum (x y : XVal) : Nat :=
  roundRne fmtF32 (match (x.add .rne y).1 with
    | .fin s n d => .fin s n (2 * d)
    | v => v)

/-- The pairs of a row. -/
def pairs {α : Type} : List α → List (α × α)
  | x :: y :: t => (x, y) :: pairs t
  | _ => []

/-- Forward: approximations of the last level, then its details, then those of the levels before. -/
def forward : (levels : Nat) → List Nat → List Nat
  | 0, s => s
  | l + 1, s =>
    let v (c : Nat) : XVal := f32val (BitVec.ofNat 32 c)
    forward l ((pairs s).map fun (x, y) => halfSum (v x) (v y)) ++ (pairs s).map fun (x, y) => halfSum (v x) (v y).neg

/-- Inverse of the transform, by the pseudocode of R60: a sample of -0 from a = -0 and d = +0 comes back as +0, though R61 says bit for
bit. (DEDUCED, log entry 87) -/
def inverse : (levels : Nat) → List Nat → List Nat
  | 0, c => c
  | l + 1, c =>
    let m := c.length / 2
    let v (x : Nat) : XVal := f32val (BitVec.ofNat 32 x)
    ((inverse l (c.take m)).zip (c.drop m)).flatMap fun (s, d) =>
      [roundRne fmtF32 ((v s).add .rne (v d)).1, roundRne fmtF32 ((v s).add .rne (v d).neg).1]

/-- An element read exactly into FP32; a NaN is the canonical one of sign 0. -/
def elemF32 (fmt code : Nat) : Nat := roundRne fmtF32 ((tileFmt fmt).decode false code).1

/-- The largest magnitude of a unit's coefficients is below the threshold (R62). -/
def unitDrops (h : XVal) (xs : List XVal) : Bool :=
  (match h with | .fin s n _ => !s && n != 0 | .inf s => !s | .nan _ => false) &&
  xs.all fun x => match x with
    | .fin _ n d => (XVal.fin false n d).lt h
    | _ => false

/-- The stored form of a tile of FP32 values, value c p for channel and position; fwd says whether they are spatial values
to transform or coefficients already. Answers head and data (R57, R62). -/
def buildTile (fwd : Bool) (tag fmt nlog ch : Nat) (thr : XVal) (value : Nat → Nat → Nat) : Head × List Byte :=
  let n := 2 ^ nlog
  let tag := tagNorm tag
  let l := tagLevels tag
  let f := tileFmt fmt
  let rows : List (List Nat) := (List.range (32 * ch)).map fun c =>
    (forward (if fwd then l else 0) ((List.range n).map (value c))).map fun x => roundRne f (f32val (BitVec.ofNat 32 x))
  let code (c p : Nat) : Nat := ((rows.getD c []).getD p 0)
  let unit (u : Nat) : List Nat := (List.range 32).map fun i => code (32 * (u / n) + i) (u % n)
  let keep (u : Nat) : Bool :=
    l == 0 || decide (u % n < n / 2 ^ l) || !unitDrops thr ((unit u).map fun x => (f.decode false x).1)
  let us := (List.range (n * ch)).filter keep
  ({ tag := tag, fmt := fmt, nlog := nlog, ch := ch, count := us.length, bitmap := us.foldl (fun b u => b + 2 ^ u) 0 },
   us.flatMap fun u => (unit u).flatMap fun x => leBytes (tileBytes fmt) x)

/-! ### Reading tiles -/

/-- The offset in the data of a unit's first byte (R57). -/
def Head.unitOfs (h : Head) (u : Nat) : Nat := (if tagLevels h.tag = 0 then u else h.before u) * 32 * tileBytes h.fmt

/-- The stored element of a channel of a unit, in FP32; +0 of a dropped unit. (DEDUCED, log entry 34) -/
def State.unitElem (s : State) (cl base : Nat) (h : Head) (u i : Nat) : Nat :=
  if tagLevels h.tag = 0 ∨ h.has u then
    elemF32 h.fmt (s.scratchN cl (base + 128 + h.unitOfs u + i * tileBytes h.fmt) (tileBytes h.fmt))
  else 0

/-- The value that LDT delivers for a channel of a unit: the element of a spatial tile, or Inverse (R180). -/
def State.tileElem (s : State) (cl base : Nat) (h : Head) (u i : Nat) : Nat :=
  let l := tagLevels h.tag
  if l = 0 then s.unitElem cl base h u i
  else
    let n := h.n
    let row := (List.range n).map fun p => s.unitElem cl base h (u / n * n + p) i
    (inverse l row).getD (u % n) 0

/-- The data bytes that an LDT reads, as an offset from the data's start and a length. -/
def Head.span (h : Head) (coef : Bool) (u : Nat) : Nat × Nat :=
  let n := h.n
  if tagLevels h.tag = 0 then (h.unitOfs u, 32 * tileBytes h.fmt)
  else if coef then (h.unitOfs u, if h.has u then 32 * tileBytes h.fmt else 0)
  else (h.unitOfs (u / n * n), h.unitOfs ((u / n + 1) * n) - h.unitOfs (u / n * n))

/-! ### LDT, LDT.C and STH (R178 to R181) -/

/-- Scratchpad offset of a tile reference. -/
def refHead (x : DWord) : Nat := bits x 22 0

/-- A place for an operation that acts once per ray. -/
def oncePlace (act : Mask) (p : Place) : List Place := laneTab fun k => if lowest act = some k then p else .off

/-- A scratchpad instruction that acts once per ray with a reference in A: marks, space, alignment, then its own plan. -/
def refOp (i : Instr) (a : Opnd) (fields : DWord) (align : Nat) (dc : BitVec 3) (d : Opnd)
    (plan : State → Nat → Ray → Mask → DWord → Except Nat OpKind) (s : State) : Out :=
  match s.curRay with
  | none => .fault .noActor
  | some (core, rslot, r) =>
    match s.tokenWait i with
    | some q => .next (s.stallSlot (.token q))
    | none =>
      let act := r.th.active i.guard
      match lowest act with
      | none => .next (s.issueOp core rslot r i (s.newOp core rslot r i (some dc.toNat) d 0 [] [] [] .empty))
      | some k0 =>
        let x := r.th.rd64 false a k0
        let trap (c : Nat) : Out := .next (s.trapCur c act (if 0x30 ≤ c ∧ c ≤ 0x33 then x.toNat else 0) 0)
        if lanesWhere act (fun k => r.th.marked true a k) ≠ 0 then trap causeDomain
        else if s.badSpace core (s.ctxOf r.l) ⟨false, true, false, fields⟩ x then trap 0x33
        else if badAlign align x then trap 0x31
        else match plan s core r act x with
          | .error c => trap c
          | .ok kind => .next (s.issueOp core rslot r i (s.newOp core rslot r i (some dc.toNat) d act
              (laneTab fun _ => x) (oncePlace act (.scratch (refHead x))) [] kind))

/-- The checks of LDT and LDT.C: reach of the head, the head's rules, the unit, reach of the unit's bytes.
(DEDUCED, log entry 29) -/
def ldtPlan (coef : Bool) (s : State) (core : Nat) (r : Ray) (_ : Mask) (x : DWord) : Except Nat OpKind :=
  let o := refHead x
  let (h, clean) := headOf ((s.cluster (clusterOf core)).sram.readBytes o 128)
  let u := bits x 40 32
  let (at_, n) := h.span coef u
  if !s.inReach r.l r.pos o 128 then .error 0x32
  else if headBad h clean || decide (h.units ≤ u) || (coef && tagLevels h.tag == 0) then .error causeDomain
  else if !s.inReach r.l r.pos (o + 128 + at_) n then .error 0x32
  else .ok (.ldt coef x)

/-- The bits of a tile reference that carry UNIT, and those that carry TAG, CHM1, NLOG and FMT (R178). -/
def ldtFields : DWord := BitVec.ofNat 64 (0x1FF * 2 ^ 32)
def sthFields : DWord := BitVec.ofNat 64 (0x7FFF * 2 ^ 41)

/-- The number of a vector register operand. -/
def regOf (o : Opnd) : Nat := match o with | .v n => n.val | _ => 0

/-- A threshold register of a beam as a value (R31). -/
def State.threshold (s : State) (l pos i : Nat) : Word :=
  match s.beam l pos with | some b => b.h.getD i 0 | none => 0

/-- The checks and the work of STH: the reference as a head (R58), the registers' range, their marks, the tile as it
will be stored with the threshold read at the start, and its reach. (DEDUCED, log entry 28) -/
def sthPlan (d : Opnd) (s : State) (_ : Nat) (r : Ray) (act : Mask) (x : DWord) : Except Nat OpKind :=
  let tag := bits x 55 48
  let fmt := bits x 42 41
  let nlog := bits x 45 43
  let ch := bits x 47 46 + 1
  let n := 2 ^ nlog
  if shapeBad tag fmt nlog ch then .error causeDomain
  else if r.th.allot < regOf d + n * ch then .error 0x12
  else if lanesWhere act (fun k => (List.range (n * ch)).any fun u => r.th.vmark (regOf d + u) k) ≠ 0 then .error causeDomain
  else
    let (h, data) := buildTile true tag fmt nlog ch (f32val (s.threshold r.l r.pos (tagThr tag))) fun c p =>
      if bit act (c % 32) then (r.th.vreg (regOf d + c / 32 * n + p) (c % 32)).toNat else 0
    if s.inReach r.l r.pos (refHead x) (128 + data.length) then .ok (.sth h.bytes data) else .error 0x32

/-- STH (R181). -/
def execSth (g : Guard) (d a : Opnd) (dc : BitVec 3) (s : State) : Out :=
  refOp (.sth g d a dc) a sthFields 128 dc d (sthPlan d) s

/-- The bytes that an LDT reads, as its head stands: the head, and the unit's data where the head gives any (R180). -/
def State.ldtReads (s : State) (cl : Nat) (coef : Bool) (x : DWord) : List (Nat × Nat) :=
  let base := refHead x
  let (h, clean) := headOf ((s.cluster cl).sram.readBytes base 128)
  let (ofs, n) := h.span coef (bits x 40 32)
  (base, 128) :: if headBad h clean || decide (h.units ≤ bits x 40 32) then [] else [(base + 128 + ofs, n)]

/-- The read of an LDT's head and unit meets the errors of their words (R413). -/
def State.ldtMet (s : State) (core : Nat) (o : Op) : State :=
  match o.kind with
  | .ldt coef x =>
    let cl := clusterOf core
    (s.meetError ((s.ldtReads cl coef x).flatMap fun (ofs, n) => sramWords cl ofs n) 0x03 0 cl).1
  | _ => s

/-- LDT_COMPLETE (R180): the head and the unit are read as they stand now; where the head has changed into one that no
reader accepts, the values are unspecified (R68). An error of the words read is met as a load's is (R413). (DEDUCED, log entry 29;
DESIGN CHOICE, log entry 20) -/
def execLdtComplete (core op : Nat) (s : State) : Out :=
  match (s.core core).op op with
  | none => .next s
  | some o =>
    match o.kind with
    | .ldt coef x =>
      if o.done || !(s.core core).mayPerform o then .next s
      else
        let cl := clusterOf core
        let base := refHead x
        let (h, clean) := headOf ((s.cluster cl).sram.readBytes base 128)
        let u := bits x 40 32
        let bad := headBad h clean || decide (h.units ≤ u) || (coef && tagLevels h.tag == 0)
        let tick := s.tick
        let val (k : Nat) : BitVec 128 :=
          if bad then BitVec.ofNat 128 (Config.word (32 * tick + k)).toNat
          else BitVec.ofNat 128 (if coef then s.unitElem cl base h u k else s.tileElem cl base h u k)
        .next ((s.ldtMet core o).completeOp core o fun t => t.setLoad o.d 4 o.act val coef)
    | _ => .next s

/-- STH_COMPLETE (R181): head and data are written. -/
def execSthComplete (core op : Nat) (s : State) : Out :=
  match (s.core core).op op with
  | none => .next s
  | some o =>
    match o.kind, lowest o.act with
    | .sth head data, some k0 =>
      if o.done || !(s.core core).mayPerform o then .next s
      else match o.place.getD k0 .off with
        | .scratch base => .next ((s.writeScratch (clusterOf core) base none (head ++ data)).completeOp core o id)
        | _ => .next s
    | _, _ => .next s

end Sys2Proof.Machine
end

