-- ==== Sys2Proof/Machine/Barrier.lean ====
section
/-!
DEFINITION. Barriers, calendars and waits on other beams (R201 to R205, R250, R334): BAR, ARRIVE, CALADV and BWAIT as
they issue, BARRIER_ARRIVAL and BWAIT_COMPLETE.
-/
namespace Sys2Proof.Machine

/-! ### Barriers (R201, R203) -/

/-- A barrier whose count has reached its expected count releases (R201). -/
def Bar.settle (x : Bar) : Bar := if x.e ≤ x.count then { x with count := 0, phase := x.phase + 1 } else x

/-- One arrival (R201). -/
def Bar.arrive (x : Bar) : Bar := { x with count := x.count + 1 }.settle

/-- Changes a barrier of a beam. -/
def Beam.updBar (b : Beam) (k : Nat) (f : Bar → Bar) : Beam := { b with bars := setAt b.bars k (f (b.bar k)) }

/-- The barrier address of R203. -/
def barrierAddr (ctx pos serial k : Nat) : DWord :=
  BitVec.ofNat 64 (3 * 2 ^ 56 + ctx % 1024 * 2 ^ 46 + pos % 2 ^ 32 * 2 ^ 14 + serial % 2048 * 8 + k % 8)

/-- An instruction that acts once per ray and is no memory operation: a pending token, marks, its checks with the
lowest active lane's operands; then the state it makes, and the slot is over with a latch of 0. -/
def rayOp (i : Instr) (marks : List (Opnd × Bool)) (plan : State → Nat → Nat → Ray → Nat → Except Nat State) (s : State) : Out :=
  match s.curRay with
  | none => .fault .noActor
  | some (core, rslot, r) =>
    match s.tokenWait i with
    | some q => .next (s.stallSlot (.token q))
    | none =>
      let act := r.th.active i.guard
      match lowest act with
      | none => .next (s.finishSlot ((r.th.advance i.size).push Latch.zero))
      | some k0 =>
        if lanesWhere act (fun k => marks.any fun (o, w) => r.th.marked w o k) ≠ 0 then .next (s.trapCur causeDomain act 0 0)
        else match plan s core rslot r k0 with
          | .error c => .next (s.trapCur c act 0 0)
          | .ok s1 =>
            match s1.curThread with
            | none => .next s1
            | some t => .next (s1.finishSlot ((t.advance i.size).push Latch.zero))

/-- BAR.INIT (R201): E from 1 to 1024, or cause 0x35. -/
def execBarInit (g : Guard) (a : Opnd) (k : BitVec 3) (s : State) : Out :=
  rayOp (.barInit g a k) [(a, false)] (fun s _ _ r k0 =>
    let e := (r.th.rd32 a k0).toNat
    if e = 0 ∨ 1024 < e then .error 0x35
    else .ok (s.updBeam r.l r.pos fun b => b.updBar k.toNat fun x => { x with e := e }.settle)) s

/-- An arrival of a rank comes in its order within a clock: by %rayid for BAR.ARV, then the ARRIVEs and MSIGs, of rank 32 (R250).
One that would come after an arrival of a higher rank comes a clock later. (DEDUCED, log entry 113) -/
def State.inOrder (s : State) (b : Beam) (rank : Nat) : State :=
  if b.arrAt.1 = s.clock ∧ rank < b.arrAt.2 then s.pass 1 else s

/-- One arrival of a rank at a barrier of a beam, at a clock. -/
def Beam.arrive (b : Beam) (clock rank k : Nat) : Beam := { b.updBar k Bar.arrive with arrAt := (clock, rank) }

/-- BAR.ARV (R201, R250): one arrival, recorded as the ray's. -/
def execBarArv (g : Guard) (k : BitVec 3) (s : State) : Out :=
  rayOp (.barArv g k) [] (fun s core rslot r _ =>
    match s.beam r.l r.pos with
    | none => .ok s
    | some b =>
      let s := s.inOrder b r.rayId
      .ok ((s.setRay core rslot { r with arrival := some (k.toNat, (b.bar k.toNat).phase) }).updBeam r.l r.pos
        fun b => b.arrive s.clock r.rayId k.toNat)) s

/-- BAR.ADDR (R201, R203). -/
def execBarAddr (g : Guard) (d : Opnd) (k : BitVec 3) (s : State) : Out :=
  match s.curRay with
  | none => .fault .noActor
  | some (_, _, r) =>
    let serial := match s.launch r.l with | some x => x.serial | none => 0
    vecOp (.barAddr g d k) d true (fun _ _ => false) (fun _ _ => .pure (barrierAddr (s.ctxOf r.l) r.pos serial k.toNat)) s

/-! ### Arrivals at barrier addresses (R202, R203) -/

/-- The running launch of a context with a serial. -/
def State.launchBySerial (s : State) (ctx serial : Nat) : Option Nat :=
  (s.launches.find? fun (_, x) => x.ctx == ctx && x.serial % 2048 == serial && !x.isOver && x.begun).map (·.1)

/-- The beam that a barrier address names. -/
def State.addrBeam (s : State) (a : DWord) : Option (Nat × Nat) :=
  (s.launchBySerial (bits a 55 46) (bits a 13 3)).map fun l => (l, bits a 45 14)

/-- Decrements every counter of a save record that may be, in issue order (R24, R359). -/
def Saved.retire (v : Saved) : Saved :=
  let (os, ds) := retirePass v.ops []
  ds.foldl (fun v (k, n) => v.updRay k fun r => r.decDc n) { v with ops := os.filter fun o => !(o.isOver && o.counted) }

/-- An operation of a save record is done. -/
def Saved.complete (v : Saved) (id : Nat) : Saved :=
  Saved.retire { v with ops := v.ops.map fun o => if o.id = id then o.finish else o }

/-- Completes an operation that may have moved into a save record (R359). -/
def State.completeAnywhere (s : State) (core id : Nat) : State :=
  match (s.core core).op id with
  | some o => s.completeOp core o fun t => t
  | none => match s.savedOp core id with
    | some key => s.updSaved key fun v => v.complete id
    | none => s

/-- Counts an arrival at a beam's barrier, resident or in its save record (R202, R359). One at a beam that is neither, not released
yet, completed or poisoned, is discarded (R203). (DEDUCED, log entry 103) -/
def State.countArrival (s : State) (l pos k : Nat) : State :=
  match s.beam l pos with
  | some _ => s.updBeam l pos fun b => b.arrive s.clock 32 k
  | none => s.updSaved (beamKey l pos) fun v => { v with beam := v.beam.arrive s.clock 32 k }

/-- ARRIVE (R202): a space other than 0x03, or another context, raises cause 0x33. -/
def execArrive (g : Guard) (a : Opnd) (dc : BitVec 3) (s : State) : Out :=
  match s.curRay with
  | none => .fault .noActor
  | some (core, rslot, r) =>
    let i := Instr.arrive g a dc
    match s.tokenWait i with
    | some q => .next (s.stallSlot (.token q))
    | none =>
      let act := r.th.active g
      match lowest act with
      | none => .next (s.issueOp core rslot r i (s.newOp core rslot r i (some dc.toNat) .nul 0 [] [] [] .empty))
      | some k0 =>
        let x := r.th.rd64 false a k0
        if lanesWhere act (fun k => r.th.marked true a k) ≠ 0 then .next (s.trapCur causeDomain act 0 0)
        else if spaceOf x ≠ 3 ∨ bits x 55 46 ≠ s.ctxOf r.l then .next (s.trapCur 0x33 act x.toNat 0)
        else
          let o := s.newOp core rslot r i (some dc.toNat) .nul act (laneTab fun _ => x) [] [] .arrive
          let s1 := s.issueOp core rslot r i o
          .next { s1 with arrivals := s1.arrivals ++ [⟨x, none, some (core, o.id), none⟩] }

/-- BARRIER_ARRIVAL (R202, R250): the k-th arrival on its way is counted, or discarded where its address names no beam;
the ARRIVE that made it completes. -/
def execBarrierArrival (k : Nat) (s : State) : Out :=
  match s.arrivals[k]? with
  | none => .next s
  | some v =>
    let s := { s with arrivals := s.arrivals.eraseIdx k }
    let s := match (match v.target with | some t => some t | none => s.addrBeam v.addr) with
      | some (l, pos) => s.countArrival l pos (bits v.addr 2 0)
      | none => s
    match v.op with
    | some (core, id) => .next (s.completeAnywhere core id)
    | none => .next s

/-! ### Calendars (R204) -/

/-- A phase advanced, with saturation (R254). (DEDUCED, log entry 68) -/
def satAdd64 (x : DWord) (y : Word) : DWord := BitVec.ofNat 64 (min (2 ^ 64 - 1) (x.toNat + y.toNat))

/-- CALADV (R204, R254): the phase saturates at 2^64 − 1. (DEDUCED, log entry 68) -/
def execCaladv (g : Guard) (a : Opnd) (s : State) : Out :=
  rayOp (.caladv g a) [(a, false)] (fun s core rslot r k0 =>
    .ok (s.setRay core rslot { r with phase := satAdd64 r.phase (r.th.rd32 a k0), adv := true })) s

/-- CALADV.ALLOW (R204). -/
def execCaladvAllow (g : Guard) (a : Opnd) (s : State) : Out :=
  rayOp (.caladvAllow g a) [(a, false)] (fun s _ _ r k0 =>
    .ok (s.updBeam r.l r.pos fun b => { b with allow := (r.th.rd32 a k0).toNat })) s

/-! ### BWAIT (R205, R334) -/

/-- BWAIT (R205): its own position, or one outside the list, raises cause 0x36. -/
def execBwait (g : Guard) (d a : Opnd) (dc : BitVec 3) (s : State) : Out :=
  match s.curRay with
  | none => .fault .noActor
  | some (core, rslot, r) =>
    let i := Instr.bwait g d a dc
    match s.tokenWait i with
    | some q => .next (s.stallSlot (.token q))
    | none =>
      let act := r.th.active g
      match lowest act with
      | none => .next (s.issueOp core rslot r i (s.newOp core rslot r i (some dc.toNat) d 0 [] [] [] .empty))
      | some k0 =>
        let x := (r.th.rd32 a k0).toNat
        let nent := match s.launch r.l with | some y => y.nent | none => 0
        if lanesWhere act (anyMarked [a] r.th) ≠ 0 then .next (s.trapCur causeDomain act 0 0)
        else if x = r.pos ∨ nent ≤ x then .next (s.trapCur 0x36 act 0 0)
        else .next (s.issueOp core rslot r i (s.newOp core rslot r i (some dc.toNat) d act [] [] [] (.bwait x)))

/-- The result of an entry that is final, at the clock it became so. -/
def State.finalResult (s : State) (l pos : Nat) : Option (Nat × Nat) :=
  match (s.launch l).bind fun x => SMap.get? x.entries pos with
  | some e => if e.state = .final then some (e.result, e.finalClock) else none
  | none => none

/-- BWAIT_COMPLETE (R334): in the clock after the awaited entry became final, its result is written. -/
def execBwaitComplete (core op : Nat) (s : State) : Out :=
  match (s.core core).op op with
  | none => .next s
  | some o =>
    match o.kind with
    | .bwait target =>
      if o.done then .next s
      else match s.finalResult o.l target with
        | some (res, at_) =>
          if s.clock ≤ at_ then .next s
          else .next (s.completeOp core o fun t => t.setLoad o.d 4 o.act (fun _ => BitVec.ofNat 128 res) false)
        | none => .next s
    | _ => .next s

end Sys2Proof.Machine
end

