-- ==== Sys2Proof/Machine/Engine.lean ====
section
/-!
DEFINITION. The rays' side of the matrix sequencer (R207 to R213, R235): FORK, JOIN, FEED and TAKE.
-/
namespace Sys2Proof.Machine

/-! ### Rendezvous objects (R207) -/

/-- STATE and STATUS of the object at an offset. -/
def State.rvState (s : State) (cl ofs : Nat) : Nat := nbits (s.scratchN cl ofs 2) 1 0
def State.rvStatus (s : State) (cl ofs : Nat) : Nat := nbits (s.scratchN cl ofs 2) 15 8
/-- Sets STATE, with STATUS where one is given. -/
def State.setRv (s : State) (cl ofs st : Nat) (status : Option Nat) : State :=
  let x := s.scratchN cl ofs 2
  s.writeScratch cl ofs none (leBytes 2 (nbits x 7 2 * 4 + st + (status.getD (nbits x 15 8)) * 256))

/-! ### FORK (R208, R209) -/

/-- Gives back one place of the fork queue that the ray's clause took (R209). (DEDUCED, log entry 33) -/
def State.givePlace (s : State) (core rslot : Nat) : State :=
  s.updCluster (clusterOf core) fun c => { c with places := c.places.erase (core, rslot) }

/-- The checks of FORK after those of its address: its entry offset's mark, reach of the object, STATE (cause 0x37).
(DEDUCED, log entry 28) -/
def forkPlan (c : Opnd) (s : State) (core : Nat) (r : Ray) (act : Mask) (x : DWord) : Except Nat OpKind :=
  if lanesWhere act (anyMarked [c] r.th) ≠ 0 then .error causeDomain
  else if !s.inReach r.l r.pos (refHead x) 64 then .error 0x32
  else
    let st := s.rvState (clusterOf core) (refHead x)
    if st = 1 ∨ st = 2 then .error 0x37 else .ok .fork

/-- Enters the fork in the cluster's queue: STATE := 1, its place goes over to the queue entry.
(DEDUCED, log entry 33) -/
def State.enterFork (s : State) (core rslot : Nat) (r : Ray) (op : Nat) (arg obj : DWord) (entry : Word) : State :=
  let cl := clusterOf core
  let s := s.setRv cl (refHead obj) 1 none
  let s := s.updBeam r.l r.pos fun b => { b with streams := b.streams + 1 }
  s.updCluster cl fun c => { c with forks := c.forks ++ [⟨core, rslot, r.l, r.pos, s.ctxOf r.l, r.rayId, r.role, op, arg, obj, entry⟩] }

/-! ### JOIN (R210) -/

/-- A JOIN whose object is ended or idle completes: STATUS and STATE := 0, or 0xFF. (DEDUCED, log entry 37) -/
def State.settleJoin (s : State) (core : Nat) (o : Op) : State :=
  match o.kind, lowest o.act with
  | .join, some k0 =>
    if o.done || !(s.core core).mayPerform o then s
    else match o.place.getD k0 .off with
      | .scratch ofs =>
        let cl := clusterOf core
        let st := s.rvState cl ofs
        if st = 1 ∨ st = 2 then s
        else
          let v := if st = 3 then s.rvStatus cl ofs else 0xFF
          let s := if st = 3 then s.setRv cl ofs 0 none else s
          s.completeOp core o fun t => t.setLoad o.d 4 o.act (fun _ => BitVec.ofNat 128 v) false
      | _ => s
  | _, _ => s

/-- Every JOIN of a core that can complete does, in issue order. -/
def State.settleJoinsOf (s : State) (core : Nat) : State :=
  (s.core core).ops.foldl (fun s o => s.settleJoin core o) s

/-- Every JOIN of a cluster's four cores. (DEDUCED, log entry 37) -/
def State.settleJoins (s : State) (cl : Nat) : State :=
  (List.range 4).foldl (fun s j => s.settleJoinsOf (4 * cl + j)) s

/-- JOIN (R210). -/
def execJoin (g : Guard) (d a : Opnd) (dc : BitVec 3) (s : State) : Out :=
  match s.curRay with
  | none => .fault .noActor
  | some (core, _, _) =>
    match refOp (.join g d a dc) a 0 64 dc d
        (fun s _ r _ x => if s.inReach r.l r.pos (refHead x) 64 then .ok .join else .error 0x32) s with
    | .next s1 => .next (s1.settleJoinsOf core)
    | out => out

/-! ### FEED (R211, R212) -/

/-- The element width of a plane format, which is its plane count (R212). -/
def planeWidth (fmt : Nat) : Nat := if fmt ≤ 1 then 4 else if fmt ≤ 4 then 8 else 16

/-- A format word that is reserved. -/
def feedReserved (w : Word) : Bool := bits w 31 16 != 0 || bits w 7 6 != 0 || bits w 3 3 != 0

/-- The checks of FEED: the vote (R212), the reserved word, the registers' range, the marks (R67), reach. A lane counts as marked
if any of its registers is. (DEDUCED, log entry 28; DESIGN CHOICE, log entry 90) -/
def feedPlan (d c : Opnd) (s : State) (_ : Nat) (r : Ray) (act : Mask) (x : DWord) : Except Nat OpKind :=
  let ws := (lanesOf act).map (r.th.rd32 c)
  let w := ws.headD 0
  let n := planeWidth (bits w 3 0)
  let marked := lanesWhere act fun k => (List.range n).any fun j => r.th.vmark (regOf d + j) k
  let lv := bits w 10 8
  if lanesWhere act (anyMarked [c] r.th) ≠ 0 then .error causeDomain
  else if ws.any (· != w) then .error causeDiverge
  else if feedReserved w then .error 0x04
  else if r.th.allot < regOf d + n then .error 0x12
  else if marked ≠ 0 ∧ marked ≠ act then .error causeDiverge
  else if (if marked ≠ 0 then lv == 0 || lv == 7 else bits w 15 8 != 0) then .error causeDomain
  else if !s.inReach r.l r.pos (refHead x) (512 * n) then .error 0x32
  else .ok (.feed w.toNat n)

/-- The registers of a FEED as captured: four groups of four words per lane. -/
def Thread.feedData (t : Thread) (d : Opnd) : List (BitVec 128) :=
  (List.range 128).map fun j =>
    let k := j / 4
    let b := regOf d + 4 * (j % 4)
    BitVec.ofNat 128 ((t.vreg b k).toNat + (t.vreg (b + 1) k).toNat * 2 ^ 32 + (t.vreg (b + 2) k).toNat * 2 ^ 64
      + (t.vreg (b + 3) k).toNat * 2 ^ 96)

/-- FEED (R211). -/
def execFeed (g : Guard) (d a : Opnd) (dc : BitVec 3) (c : Opnd) (s : State) : Out :=
  match s.curRay with
  | none => .fault .noActor
  | some (core, _, r) =>
    let id := (s.core core).nextOp
    match refOp (.feed g d a dc c) a 0 512 dc d (feedPlan d c) s with
    | .next s1 => .next (s1.updOp core id fun o => match o.kind with | .feed .. => { o with data := r.th.feedData d } | _ => o)
    | out => out

/-- The row of a lane as a number: its registers in ascending order. -/
def feedRow (data : List (BitVec 128)) (k : Nat) : Nat :=
  (List.range 4).foldl (fun n j => n + (data.getD (4 * k + j) 0).toNat * 2 ^ (128 * j)) 0

/-- The row word of plane p: bit k is bit p of the code of element k (R212). -/
def planeWord (row w p : Nat) : Nat :=
  (List.range 32).foldl (fun n k => if row.testBit (k * w + p) then n + 2 ^ k else n) 0

/-- FEED_COMPLETE (R212, R235): the planes' rows and the granules' tag bytes are written. -/
def execFeedComplete (core op : Nat) (s : State) : Out :=
  match (s.core core).op op with
  | none => .next s
  | some o =>
    match o.kind, lowest o.act with
    | .feed word n, some k0 =>
      if o.done || !(s.core core).mayPerform o then .next s
      else match o.place.getD k0 .off with
        | .scratch base =>
          let cl := clusterOf core
          let q := nbits word 5 4
          let s := (List.range n).foldl (fun s p =>
            (lanesOf o.act).foldl (fun s k =>
              s.writeScratch cl (base + 512 * p + 4 * (32 * q + k)) none (leBytes 4 (planeWord (feedRow o.data k) n p))) s) s
          let s := s.updCluster cl fun c =>
            { c with gtags := (List.range n).foldl (fun m p => SMap.put m (base / 512 + p) (BitVec.ofNat 8 (nbits word 15 8))) c.gtags }
          .next (s.completeOp core o id)
        | _ => .next s
    | _, _ => .next s

/-! ### Slots that read scratchpad as they issue (R168, R180, R208, R209) -/

/-- An operation takes effect now, if it may. -/
def State.performOp (s : State) (core : Nat) (o : Op) : State :=
  let out : Out := match o.kind with
    | .load .. | .ldres _ => execLoadComplete core o.id s
    | .store .. | .stcon _ => execStoreCheck core o.id s
    | .atom .. => (List.range 32).foldl (fun out _ => match out with | .next s => execAtomicComplete core o.id s | out => out) (.next s)
    | .ldt .. => execLdtComplete core o.id s
    | .sth .. => execSthComplete core o.id s
    | .feed .. => execFeedComplete core o.id s
    | .join => .next (s.settleJoin core o)
    | .fence _ => execFenceComplete core o.id s
    | _ => .next s
  match out with | .next s => s | _ => s

/-- The ray's own earlier accesses to scratchpad take effect, in their order, as a slot that never stalls for them reads bytes there
(R168, R209, R248). (DEDUCED, log entry 69) -/
def State.performOwn (s : State) (core rslot : Nat) : State :=
  ((s.core core).ops.filter fun o => o.rslot == rslot && !o.done && o.ranges.any fun x => x.1 == 0).foldl (fun s o => s.performOp core o) s

/-- LDT's head as its slot finds it: the ray's own earlier accesses in place (R168). They take effect in their own time; only what the
slot reads looks past them. (DEDUCED, log entry 69) -/
def ldtSlot (coef : Bool) (s : State) (core : Nat) (r : Ray) (act : Mask) (x : DWord) : Except Nat OpKind :=
  match s.cur with
  | .ray _ rslot => ldtPlan coef (s.performOwn core rslot) core r act x
  | _ => ldtPlan coef s core r act x

/-- LDT (R180). -/
def execLdt (g : Guard) (d a : Opnd) (dc : BitVec 3) (s : State) : Out :=
  refOp (.ldt g d a dc) a ldtFields 128 dc d (ldtSlot false) s
/-- LDT.C (R180). -/
def execLdtC (g : Guard) (d a : Opnd) (dc : BitVec 3) (s : State) : Out :=
  refOp (.ldtC g d a dc) a ldtFields 128 dc d (ldtSlot true) s

/-- A FORK whose slot goes on: a FORK without an active lane, or that traps, gives its place back. -/
def forkNow (g : Guard) (d a : Opnd) (dc : BitVec 3) (c : Opnd) (s : State) : Out :=
  match s.curRay with
  | none => .fault .noActor
  | some (core, rslot, r) =>
    let id := (s.core core).nextOp
    match refOp (.fork g d a dc c) a 0 64 dc .nul (forkPlan c) s with
    | .next s1 =>
      let s1 := s1.givePlace core rslot
      match lowest (r.th.active g), (s1.core core).op id with
      | some k0, some o =>
        if o.kind = .fork then
          .next (s1.enterFork core rslot r id (r.th.rd64 false d k0) (r.th.rd64 false a k0) (r.th.rd32 c k0))
        else .next s1
      | _, _ => .next s1
    | out => out

/-- FORK (R208): the argument x is read as store data. The ray's own earlier accesses to the object, a JOIN of it among
them, take effect first (R168, R210). -/
def execFork (g : Guard) (d a : Opnd) (dc : BitVec 3) (c : Opnd) (s : State) : Out :=
  match s.curRay with
  | none => .fault .noActor
  | some (core, rslot, r) =>
    match s.tokenWait (.fork g d a dc c) with
    | some q => .next (s.stallSlot (.token q))
    | none =>
      let obj := match lowest (r.th.active g) with | some k0 => refHead (r.th.rd64 false a k0) | none => 0
      forkNow g d a dc c (if r.th.active g ≠ 0 ∧ (s.core core).ownAccess rslot (0, obj, 64) then s.performOwn core rslot else s)

/-! ### TAKE (R213) -/

/-- An element of an accumulator tile as a context reads it (R213, R219). -/
def State.takeElem (s : State) (cl ctx t row col : Nat) : Word :=
  let x := (s.cluster cl).tile t
  if x.owner = some ctx then SMap.get x.elems 0 (128 * row + col) else 0

/-- TAKE (R213): v(D + j) is element (32q + i, c + j) in lane i; the mark is 1 where the tile's tag is not 0. The latch
of a TAKE of several elements is not stated: a free value in the active lanes, v(D) in the others. (DEDUCED, log entry 12; DESIGN CHOICE, log entry 24) -/
def execTake (g : Guard) (d : Opnd) (t : BitVec 4) (q : BitVec 2) (c : BitVec 7) (n : BitVec 4) (s : State) : Out :=
  match s.curRay with
  | none => .fault .noActor
  | some (core, _, r) =>
    let i := Instr.take g d t q c n
    let act := r.th.active g
    let cl := clusterOf core
    let ctx := s.ctxOf r.l
    let tile := (s.cluster cl).tile t.toNat
    let mk := tile.owner == some ctx && tile.tag != 0
    let el (j k : Nat) : Word := s.takeElem cl ctx t.toNat (32 * q.toNat + k) (c.toNat + j)
    let th := (List.range (n.toNat + 1)).foldl (fun th j => th.setV (regOf d + j) act (el j) fun _ => mk) r.th
    let latch := if n = 0 then th.latchOf d false act (fun k => zext64 (el 0 k)) fun _ => mk
      else
        let old := th.latchOf d false 0 (fun _ => 0) fun _ => false
        ⟨laneTab fun k => if bit act k then zext64 (Config.word (32 * s.tick + k)) else laneGet old.vals 0 k,
          (old.mark &&& ~~~act) ||| (if mk then act else 0)⟩
    let th := if d = .nul then r.th else th
    .next (s.bump.finishSlot ((th.push latch).advance i.size))

end Sys2Proof.Machine
end

