-- ==== Sys2Proof/Machine/Copy.lean ====
section
/-!
DEFINITION. Copies and their tokens (R191 to R200, R282 to R284): XCOPY, XMCAST, FREAD, FWRITE and WAITC as they
issue, COPY_ACCEPT, COPY_CHUNK_COMPLETE and FLASH_PROGRAM_COMPLETE.
-/
namespace Sys2Proof.Machine

/-! ### Tokens (R191) -/

/-- A token word. -/
def tokenWord (done : Bool) (nch : Nat) (clip : Bool) (err : Nat) (chunks : List Nat) : DWord :=
  BitVec.ofNat 64 (b2n done * 2 ^ 63 + nch % 64 * 2 ^ 57 + b2n clip * 2 ^ 56 + err % 256 * 2 ^ 48
    + (chunks.foldl (fun n j => n ||| 2 ^ j) 0) % 2 ^ 48)

/-- The token as it stands in its register. -/
def Ray.token (r : Ray) (tok : Nat) : DWord := SMap.get r.th.s 0 tok

/-- Sets a token of the ray an operation belongs to. -/
def State.setToken (s : State) (core : Nat) (o : Op) (tok : Nat) (v : DWord) : State :=
  s.updRay core o.rslot fun r =>
    if r.l = o.l ∧ r.pos = o.pos then
      { r with th := { r.th with s := SMap.put r.th.s tok v }
               pend := if bit v 63 then r.pend.filter (· != tok) else r.pend }
    else r

/-- A token that ends with an error: its chunks stay as they are (R192). -/
def failToken (v : DWord) (err : Nat) : DWord :=
  BitVec.ofNat 64 (2 ^ 63 + v.toNat % 2 ^ 63 / 2 ^ 56 * 2 ^ 56 + err % 256 * 2 ^ 48 + v.toNat % 2 ^ 48)

/-! ### Issue -/

/-- A copy that is not over. -/
def Op.copying (o : Op) : Bool := !o.isOver && (match o.kind with | .copy _ => true | _ => false)

/-- A copy that its engine has not accepted. -/
def Op.offered (o : Op) : Bool := match o.kind with | .copy c => !c.accepted | _ => false

/-- An own earlier operation that an ACQ copy waits for (R194): a write, but for FIFO elements, which it does not read. -/
def Op.delaysCopy (p : Op) : Bool :=
  p.writing || (!p.done && (match p.kind with | .sth .. | .feed .. => true | _ => false))

/-- An older operation of a ray holds a later one back: as Core.mayPerform and State.copyWaits have it. -/
def Op.holdsBack (p o : Op) : Bool :=
  decide (p.id < o.id) && p.rslot == o.rslot && (match o.kind with
    | .bwait _ | .arrive => false
    | .copy c => c.acq && !c.accepted && !p.done && p.delaysCopy
    | .fence _ => p.fenceWaits || p.holds o
    | _ => p.holds o)

/-- The operations of a saved beam that go on after its resume: those the save captured, and those that one of them holds back
(R358). (DEDUCED, log entry 56) -/
def Saved.crossing (v : Saved) : List Nat :=
  v.ops.foldl (fun ks o =>
    if !o.isOver && (o.replayable || v.ops.any fun p => ks.contains p.id && p.holdsBack o) then ks ++ [o.id] else ks) []

/-- The operations of a saved beam that complete into its record (R358). -/
def Saved.landing (v : Saved) : List Op := let ks := v.crossing; v.ops.filter fun o => !ks.contains o.id

/-- What a core's copy engine works on: operations of its rays, and of beams saved from it that complete into their records
(R282, R358). -/
def State.engineOps (s : State) (core : Nat) : List Op :=
  (s.core core).ops ++ s.saved.flatMap fun (_, v) => if v.beam.core = core then v.landing else []

/-- Copies that hold a place in a core's engine (R282). -/
def State.copies (s : State) (core : Nat) : Nat := ((s.engineOps core).filter Op.copying).length

/-- The number of a scalar register operand. -/
def scalarOf (o : Opnd) : Nat := match o with | .s n => n.val | _ => 0

/-- A pending token among some scalar registers (R20). -/
def Ray.pendingIn (r : Ray) (ns : List Nat) : Option Nat := ns.find? fun n => r.pend.contains n

/-- A copy instruction: pending tokens (R20), room in the engine (R282), the inactive ray (R197), marks, its checks;
then the tokens become pending and read 0, and the copy waits for acceptance. -/
def copyOp (i : Instr) (d a : Opnd) (dc : BitVec 3) (regs : List Nat) (marks : List Opnd)
    (plan : State → Nat → Ray → Nat → DWord → Except (Nat × DWord) Copy) (s : State) : Out :=
  match s.curRay with
  | none => .fault .noActor
  | some (core, rslot, r) =>
    match s.tokenWait i, r.pendingIn regs with
    | some q, _ | none, some q => .next (s.stallSlot (.token q))
    | none, none =>
      let act := r.th.active i.guard
      match lowest act with
      | none => .next (s.issueOp core rslot r i (s.newOp core rslot r i (some dc.toNat) d 0 [] [] [] .empty))
      | some k0 =>
        let x := r.th.rd64 false a k0
        if 16 ≤ s.copies core then .next (s.stallSlot .copyRoom)
        else if lanesWhere act (fun k => marks.any fun o => r.th.marked true o k) ≠ 0 then .next (s.trapCur causeDomain act 0 0)
        else match plan s core r k0 x with
          | .error (c, ea) => .next (s.trapCur c act ea.toNat 0)
          | .ok cp =>
            let toks := cp.tok :: cp.tok2.toList
            let r' := { r with
              th := { r.th with s := toks.foldl (fun m t => SMap.put m t 0) r.th.s }
              pend := r.pend ++ toks.filter fun t => !r.pend.contains t }
            .next (s.issueOp core rslot r' i (s.newOp core rslot r i (some dc.toNat) d act (laneTab fun _ => x) [] [] (.copy cp)))

/-- The bytes of the element types by index (R153); 1 for the nibble pairs of E2M1. -/
def elemBytes (e : Nat) : Nat := if e = 5 then 1 else typeWidth e / 8

/-- A signed 32-bit field. -/
def coordOf (x : DWord) (lo : Nat) : Int := (BitVec.ofNat 32 (bits x (lo + 31) lo)).toInt

/-- The coordinates and box extents of a descriptor group (R195). -/
def descCoords (d : List DWord) : List Int :=
  let g (j : Nat) : DWord := d.getD j 0
  [coordOf (g 1) 0, coordOf (g 1) 32, coordOf (g 2) 0, coordOf (g 2) 32, coordOf (g 3) 0]
def descBox (d : List DWord) : List Nat :=
  let g (j : Nat) : DWord := d.getD j 0
  [bits (g 3) 47 32, bits (g 3) 63 48, bits (g 4) 15 0, bits (g 4) 31 16, bits (g 4) 47 32]

/-- Bytes of a box of elements; E2M1 has half a byte each. -/
def boxBytes (elem : Nat) (box : List Nat) : Nat :=
  let n := box.foldl (· * ·) 1
  if elem = 5 then n / 2 else n * elemBytes elem

/-- A bank that a switch holds lies under some scratchpad bytes outside every window (R266). -/
def State.switching (s : State) (cl ofs n : Nat) : Bool :=
  (List.range 64).any fun b => ((s.cluster cl).bank b).sw && decide (ofs < (b + 1) * 0x20000) && decide (b * 0x20000 < ofs + n)

/-- The clusters a multicast names, those of the sender's die (R198). -/
def mcastClusters (core mask : Nat) : List Nat :=
  ((List.range 36).filter fun i => mask.testBit i).map fun i => dieOf (clusterOf core) * 36 + i

/-- The beam whose window holds an offset of a cluster. -/
def Cluster.windowAt (c : Cluster) (ofs : Nat) : Option Window :=
  c.windows.find? fun w => !w.reserved && decide (w.ofs ≤ ofs) && decide (ofs < w.ofs + w.size)

/-- The receiving beam of a multicast in a cluster, as the copy is accepted: the resident one whose window holds the offset, or else a
beam saved from there (R198, R359). (DESIGN CHOICE, log entry 92) -/
def State.receiver (s : State) (cl ofs : Nat) : Option (Nat × Nat) :=
  match (s.cluster cl).windowAt ofs with
  | some w => some (w.l, w.pos)
  | none => (s.saved.find? fun (_, v) => v.beam.cluster == cl && decide (v.beam.winOfs ≤ ofs) &&
      decide (ofs < v.beam.winOfs + v.beam.winSize)).map fun (k, _) => (k / 2 ^ 32, k % 2 ^ 32)

/-- A bank that a switch holds lies under the tile of a multicast in a cluster where it has a receiver (R198, R266). -/
def State.mcastSwitching (s : State) (core : Nat) (c : Copy) (n : Nat) : Bool :=
  match c.kind with
  | .mcast mask _ => (mcastClusters core mask).any fun cl =>
      (s.receiver cl (bits c.tile 22 0)).isSome && s.switching cl (bits c.tile 22 0) n
  | _ => false

/-- The tile side of a copy: its space, alignment and reach (R195); a switching bank is no trap (R266): the copy ends with ERR 0x01. -/
def State.badTile (s : State) (core : Nat) (r : Ray) (x : DWord) (n : Nat) : Option Nat :=
  if spaceOf x ≠ 1 ∨ bits x 55 23 ≠ 0 then some 0x33
  else if bits x 22 0 % 512 ≠ 0 then some 0x31
  else if s.inReach r.l r.pos (bits x 22 0) n || s.switching (clusterOf core) (bits x 22 0) n then none
  else some 0x32

/-- The bytes of a layout record as a number, read at a level; none where they do not translate. (DEDUCED, log entry 30) -/
def State.layoutRaw (s : State) (core level ctx : Nat) (va : Nat) : Option Nat :=
  (s.translate (some core) ctx va).map fun e => s.pointRead core level (e.key va) 128

/-- The checks of XCOPY and XMCAST at issue (R195), with the record as it then stands. A copy that names a bank that a switch holds
carries ERR 0x01, in a cluster where a multicast has a receiver too (R198, R266). (DEDUCED, log entry 30) -/
def xcopyPlan (c : Opnd) (n : Nat) (mk : DWord → List DWord → Copy) (s : State) (core : Nat) (r : Ray) (_ : Nat) (x : DWord) :
    Except (Nat × DWord) Copy :=
  let d := (List.range n).map fun j => SMap.get r.th.s 0 (scalarOf c + j)
  let tile := d.headD 0
  let size := match s.layoutRaw core 2 (s.ctxOf r.l) x.toNat with
    | some w => roundUp (boxBytes (nbits w 67 64) (descBox d)) 512
    | none => 0
  if spaceOf x ≠ 0 then .error (0x33, x)
  else if spaceOf tile ≠ 1 ∨ bits tile 55 23 ≠ 0 then .error (0x33, tile)
  else if x.toNat % 128 ≠ 0 then .error (0x31, x)
  else match s.badTile core r tile size with
    | some cause => .error (cause, tile)
    | none => .ok { mk x d with err := if s.switching (clusterOf core) (bits tile 22 0) size || s.mcastSwitching core (mk x d) size then 0x01 else 0 }

/-- The five or six registers of a descriptor group. -/
def groupRegs (c : Opnd) (n : Nat) : List Nat := (List.range n).map fun j => scalarOf c + j

/-- XCOPY.IN (R194). -/
def execXcopyIn (g : Guard) (d a : Opnd) (dc : BitVec 3) (c : Opnd) (acq rel : Bool) (scope : BitVec 3) (s : State) : Out :=
  copyOp (.xcopyIn g d a dc c acq rel scope) d a dc (groupRegs c 5) [a]
    (xcopyPlan c 5 fun x ds => ⟨.xin, scalarOf d, none, x, ds.headD 0, ds, scope.toNat, acq, rel, false, none, 0, [], 0, [], [], [], false, false⟩) s

/-- XCOPY.OUT (R194). -/
def execXcopyOut (g : Guard) (d a : Opnd) (dc : BitVec 3) (c : Opnd) (acq : Bool) (scope : BitVec 3) (t2 : BitVec 5) (s : State) : Out :=
  copyOp (.xcopyOut g d a dc c acq scope t2) d a dc (t2.toNat :: groupRegs c 5) [a]
    (xcopyPlan c 5 fun x ds =>
      ⟨.xout, scalarOf d, some t2.toNat, x, ds.headD 0, ds, scope.toNat, acq, false, false, none, 0, [], 0, [], [], [], false, false⟩) s

/-- XMCAST (R198). -/
def execXmcast (g : Guard) (d a : Opnd) (dc : BitVec 3) (c : Opnd) (acq rel : Bool) (scope rb : BitVec 3) (s : State) : Out :=
  copyOp (.xmcast g d a dc c acq rel scope rb) d a dc (groupRegs c 6) [a]
    (xcopyPlan c 6 fun x ds =>
      ⟨.mcast (bits (ds.getD 5 0) 35 0) rb.toNat, scalarOf d, none, x, ds.headD 0, ds, scope.toNat, acq, rel, false, none, 0, [], 0, [], [], [],
        false, false⟩) s

/-- The buffer of FREAD and FWRITE: space, alignment to 512, reach (R199). -/
def flashPlan (c : Opnd) (mk : DWord → DWord → Copy) (s : State) (core : Nat) (r : Ray) (k0 : Nat) (x : DWord) : Except (Nat × DWord) Copy :=
  let idx := r.th.rd64 false c k0
  if spaceOf x = 0 then if x.toNat % 512 ≠ 0 then .error (0x31, x) else .ok (mk x idx)
  else match s.badTile core r x 16384 with
    | some cause => .error (cause, x)
    | none => .ok { mk x idx with err := if s.switching (clusterOf core) (bits x 22 0) 16384 then 0x01 else 0 }

/-- FREAD (R199). -/
def execFread (g : Guard) (d a : Opnd) (dc : BitVec 3) (c : Opnd) (rel : Bool) (scope : BitVec 3) (s : State) : Out :=
  copyOp (.fread g d a dc c rel scope) d a dc [] [a, c]
    (flashPlan c fun x idx => ⟨.fread, scalarOf d, none, idx, x, [], scope.toNat, false, rel, false, none, 0, [], 0, [], [], [], false, false⟩) s

/-- FWRITE (R199). -/
def execFwrite (g : Guard) (d a : Opnd) (dc : BitVec 3) (c : Opnd) (t2 : BitVec 5) (s : State) : Out :=
  copyOp (.fwrite g d a dc c t2) d a dc [t2.toNat] [a, c]
    (flashPlan c fun x idx => ⟨.fwrite, scalarOf d, some t2.toNat, idx, x, [], 1, false, false, false, none, 0, [], 0, [], [], [], false, false⟩) s

/-- WAITC's condition in a lane (R200). -/
def waitcMet (tok mask : DWord) : Bool :=
  (tok &&& mask &&& 0xFFFFFFFFFFFF#64) == (mask &&& 0xFFFFFFFFFFFF#64) || (bit tok 63 && bits tok 55 48 != 0)

/-- WAITC (R200): the token in a is read without the stall of R20. -/
def execWaitc (g : Guard) (d a b : Opnd) (w : Bool) (s : State) : Out :=
  match s.curRay with
  | none => .fault .noActor
  | some (_, _, r) =>
    let i := Instr.waitc g d a b w
    let t := r.th
    let act := t.active g
    match r.pendingAmong [d, b] with
    | some q => .next (s.stallSlot (.token q))
    | none =>
      if lanesWhere act (fun k => t.marked true a k || t.marked true b k) ≠ 0 then .next (s.trapCur causeDomain act 0 0)
      else
        let met (k : Nat) : Bool := waitcMet (t.rd64 false a k) (t.rd64 false b k)
        if w ∧ lanesWhere act (fun k => !met k) ≠ 0 then .next (s.stallSlot .waitc)
        else
          let t1 := t.deliver d false act (fun k => if met k then 1 else 0) fun _ => false
          .next (s.finishSlot (t1.advance i.size))

/-! ### Layout records (R193) -/

/-- A record as read, or none for ERR 0x05. -/
def parseLayout (w : Nat) : Option Layout :=
  let elem := nbits w 67 64
  let ndim := nbits w 70 68
  let f (base k : Nat) : Nat := nbits w (base + 32 * k + 31) (base + 32 * k)
  let st (k : Nat) : Nat := nbits w (640 + 64 * k + 63) (640 + 64 * k)
  let base := nbits w 63 0
  let bad (k : Nat) : Bool :=
    if k < ndim then f 128 k == 0 || f 448 k == 0 || decide (f 128 k < f 448 k) || decide (f 128 k < f 288 k)
    else f 128 k != 0 || f 288 k != 0 || f 448 k != 0 || st k != 0
  if nbits w 95 71 ≠ 0 ∨ nbits w 639 608 ≠ 0 ∨ nbits w 1023 960 ≠ 0 then none
  else if 13 < elem ∨ ndim = 0 ∨ 5 < ndim then none
  else if 2 ^ 57 ≤ base then none
  else if (List.range 5).any bad then none
  else if elem = 5 ∧ (f 448 0 % 2 = 1 ∨ f 288 0 % 2 = 1) then none
  else some
    { base := base, elem := elem, ndim := ndim
      wrap := (List.range 5).map (f 288), clip := (List.range 5).map (f 448)
      stride := (List.range 5).map fun k => (BitVec.ofNat 64 (st k)).toInt, fill := nbits w 127 96 }

/-- The descriptor is invalid: ERR 0x04 (R192). -/
def descBad (lay : Layout) (mc : Bool) (d : List DWord) : Bool :=
  let box := descBox d
  let co := descCoords d
  bits (d.getD 4 0) 63 48 != 0 || (mc && bits (d.getD 5 0) 63 36 != 0) || box.any (· == 0) ||
    decide (24576 < boxBytes lay.elem box) ||
    (List.range 5).any (fun k => decide (lay.ndim ≤ k) && (decide (1 < box.getD k 0) || co.getD k 0 != 0)) ||
    (lay.elem == 5 && (box.getD 0 0 % 2 == 1 || co.getD 0 0 % 2 != 0))

/-! ### The mapping of R196 -/

/-- The mapping of a box in units of whole bytes: elements, or nibble pairs of E2M1, whose dimension 0 is halved. -/
structure BoxMap where
  ebytes : Nat
  base : Nat
  box : List Nat
  co : List Int
  wrap : List Nat
  clip : List Nat
  stride : List Int
  ndim : Nat
  fill : Nat
  deriving DecidableEq, Repr

def boxMap (lay : Layout) (d : List DWord) : BoxMap :=
  let half (l : List Nat) : List Nat := if lay.elem = 5 then l.zipIdx.map fun (x, k) => if k = 0 then x / 2 else x else l
  let co := descCoords d
  { ebytes := elemBytes lay.elem, base := lay.base, box := half (descBox d)
    co := if lay.elem = 5 then co.zipIdx.map fun (x, k) => if k = 0 then x / 2 else x else co
    wrap := half lay.wrap, clip := half lay.clip, stride := lay.stride, ndim := lay.ndim
    fill := if lay.elem = 5 then lay.fill % 16 * 17 else lay.fill }

/-- The number of units. -/
def BoxMap.count (m : BoxMap) : Nat := m.box.foldl (· * ·) 1

/-- The wrapped coordinates of unit e, dimension by dimension. -/
def boxCoords : (e : Nat) → List Nat → List Int → List Nat → List Int
  | e, b :: bs, c :: cs, w :: ws =>
    let q := c + ((e % b : Nat) : Int)
    (if w = 0 then q else q % (w : Int)) :: boxCoords (e / b) bs cs ws
  | _, _, _, _ => []

/-- The address of unit e, or none where it lies outside the clip box (R196). -/
def BoxMap.addr (m : BoxMap) (e : Nat) : Option Nat :=
  let q := (boxCoords e m.box m.co m.wrap).take m.ndim
  if (q.zip m.clip).all fun (x, c) => decide (0 ≤ x) && decide (x < (c : Int)) then
    some (((m.base : Int) + (q.zip m.stride).foldl (fun a (x, st) => a + x * st) 0) % (2 ^ 64 : Int)).toNat
  else none

/-- The units of chunk j. -/
def BoxMap.units (m : BoxMap) (j : Nat) : List Nat :=
  (List.range (512 / m.ebytes)).filterMap fun i =>
    let e := j * (512 / m.ebytes) + i
    if e < m.count then some e else none

/-- The chunk has no inside unit (R197). -/
def BoxMap.outside (m : BoxMap) (j : Nat) : Bool := (m.units j).all fun e => (m.addr e).isNone

/-! ### The tensor and buffer side -/

/-- Where a byte of the global or scratchpad side of an accepted copy lies: a key, a scratchpad offset, or an error (R192, R283). A switch
of its bank waits for the copy (R266). -/
def State.copyByte (s : State) (core : Nat) (o : Op) (write : Bool) (scratch : Bool) (a : Nat) : Except Nat Place :=
  if scratch then
    let ofs := a % 2 ^ 56
    if a / 2 ^ 56 = 1 ∧ ofs < sramEnd ∧ s.byteReach true o.l o.pos ofs then .ok (.scratch ofs) else .error 0x02
  else match s.translate (some core) o.ctx a with
    | none => .error 0x01
    | some e =>
      if write && !e.w then .error 0x02
      else if !e.host && decide (hbmEnd ≤ e.pa + (a - e.va)) then .error 0x01
      else .ok (.phys e.host (e.pa + (a - e.va)) e.nc)

/-- The level at which an engine reads: the scope's point with ACQ, the cluster cache without (R194). -/
def Copy.readLevel (c : Copy) : Nat := if c.acq then max 1 c.scope else 2
/-- The level at which an engine's global writes land. (DEDUCED, log entry 32) -/
def Copy.writeLevel (c : Copy) : Nat := match c.kind with | .fread => if c.rel then max 1 c.scope else 1 | _ => max 1 c.scope

/-- Reads one byte of a side. -/
def State.readPlace (s : State) (core level : Nat) (p : Place) : Byte :=
  match p with
  | .scratch ofs => (s.cluster (clusterOf core)).sram.read ofs
  | .phys h a _ => BitVec.ofNat 8 (s.pointRead core level (physKey h a) 1)
  | _ => 0

/-- Writes bytes to a side, each at its own place, with its address: a page with NC set is not kept in the L1 (R275), and a bound
object written so has a GEN that is unspecified (R187). -/
def State.writePlaces (s : State) (core level : Nat) (tag : Nat → StoreTag) (ps : List ((Nat × Place) × Byte)) : State :=
  let s := ps.foldl (fun s ((va, p), b) =>
    match p with
    | .scratch ofs => s.writeScratch (clusterOf core) ofs none [b]
    | .phys h a nc =>
      let k := physKey h a
      let level := if nc then max 2 level else level
      (s.toPoint core level k 1).pointWrite core level k (some (tag va)) none [b]
    | _ => s) s
  s.spoilGen (ps.filterMap fun ((_, p), _) => match p with | .phys h a _ => some (physKey h a, 1) | _ => none)

/-- The bytes of chunk j's inside units: tile byte in the chunk and address on the tensor side. -/
def BoxMap.bytes (m : BoxMap) (j : Nat) : List (Nat × Nat) :=
  (m.units j).flatMap fun e =>
    match m.addr e with
    | none => []
    | some a => (List.range m.ebytes).map fun i => (e * m.ebytes - 512 * j + i, (a + i) % 2 ^ 64)

/-- Those bytes with their places. -/
def State.chunkPlaces (s : State) (core : Nat) (o : Op) (m : BoxMap) (write : Bool) (j : Nat) : Except Nat (List (Nat × Nat × Place)) :=
  (m.bytes j).mapM fun (x : Nat × Nat) =>
    match s.copyByte core o write (decide (2 ^ 56 ≤ m.base)) x.2 with
    | .ok p => .ok (x.1, x.2, p)
    | .error c => .error c

/-- The fill of a chunk: FILL in every byte of its units; of a 64-bit element the upper half is 0 (R193).
(DESIGN CHOICE, log entry 108) -/
def BoxMap.fillBytes (m : BoxMap) (j : Nat) : List Byte := (m.units j).flatMap fun _ => leBytes m.ebytes m.fill

/-- A chunk's bytes with some of them replaced. -/
def patch (bs : List Byte) (xs : List (Nat × Byte)) : List Byte := xs.foldl (fun l (i, b) => setAt l i b) bs

/-! ### The copy's progress -/

/-- Changes the copy of an operation. -/
def State.updCopy (s : State) (core id : Nat) (f : Copy → Copy) : State :=
  s.updOp core id fun o => match o.kind with | .copy c => { o with kind := .copy (f c) } | _ => o

/-- A copy that fails (R192): both tokens end with the error; the operation is over. -/
def State.failCopy (s : State) (core : Nat) (o : Op) (c : Copy) (err : Nat) : State :=
  let tokenNow (t : Nat) : DWord := match s.ray core o.rslot with | some r => r.token t | none => 0
  let s1 := if c.ended1 then s else s.setToken core o c.tok (failToken (tokenNow c.tok) err)
  let s1 := match c.tok2 with
    | some t => if c.ended2 then s1 else s1.setToken core o t (failToken (tokenNow t) err)
    | none => s1
  (s1.updOp core o.id fun p => { p with kind := .copy { c with accepted := true, ended1 := true, ended2 := true }
                                        done := true, accepted := true, isOver := true }).retire core

/-- The token words of a copy's progress, and whether it is over. -/
def State.settleCopy (s : State) (core : Nat) (o : Op) (c : Copy) (clip : Bool) : State :=
  let e1 := decide (c.nch ≤ c.done1.eraseDups.length)
  let e2 := c.tok2.isNone || decide (c.nch ≤ c.done2.eraseDups.length)
  let word (ds : List Nat) (e : Bool) : DWord := tokenWord e c.nch clip (if e then c.err else 0) ds
  let s := if c.ended1 then s else s.setToken core o c.tok (word c.done1 e1)
  let s := match c.tok2 with
    | some t => if c.ended2 then s else s.setToken core o t (word c.done2 e2)
    | none => s
  (s.updOp core o.id fun p => { p with kind := .copy { c with ended1 := e1, ended2 := e2 }
                                       done := true, accepted := true, isOver := e1 && e2 }).retire core

/-- CLIP of a copy's token as it stands. -/
def State.clipOf (s : State) (core : Nat) (o : Op) (c : Copy) : Bool :=
  match s.ray core o.rslot with | some r => bit (r.token c.tok) 56 | none => false

/-- The context has faulted: copies of it are aborted (R192, R387). -/
def State.ctxFaulted (s : State) (ctx : Nat) : Bool := match SMap.get? s.ctxs ctx with | some c => c.faulted | none => true

/-! ### Flash pages (R199, R317, R403) -/

/-- The pages of flash that hold data, by page index. -/
def State.flashData (s : State) (ctx idx : Nat) : Option (List Byte) :=
  match SMap.get? s.ctxs ctx with
  | some c =>
    if idx < 2 ^ 34 ∧ c.flBase ≤ idx ∧ idx < c.flBase + c.flCount then (SMap.get? s.module.flash idx).map (·.data) else none
  | none => none

/-- A page index is in the context's range (R192). -/
def State.flashInRange (s : State) (ctx idx : Nat) : Bool :=
  match SMap.get? s.ctxs ctx with
  | some c => decide (idx < 2 ^ 34) && decide (c.flBase ≤ idx) && decide (idx < c.flBase + c.flCount)
  | none => false

/-- The step of the retry table that corrects a page, if one does (R318). -/
def State.flashCorrects (s : State) : Option Nat := (List.range (s.module.retrySteps + 1)).find? fun k => Config.corrects (s.tick * 16 + k)

/-- Spare blocks left (R404). -/
def Module.spare (m : Module) : Nat := Config.wear 0 - m.spareUsed
/-- A programming or an erase may raise the largest and the mean program-erase count (R404). (DESIGN CHOICE, log entry 66) -/
def Module.worn (m : Module) (tick : Nat) : Module :=
  { m with peMax := m.peMax + Config.wearUp (2 * tick), peMean := m.peMean + Config.wearUp (2 * tick + 1) }
/-- The state of the flash (R404): 2, read only, below 2 % of the initial spare; 1, low, below 5 %; else 0. -/
def Module.flashState (m : Module) : Nat :=
  if 50 * m.spare < Config.wear 0 then 2 else if 20 * m.spare < Config.wear 0 then 1 else 0

/-! ### COPY_ACCEPT (R282) -/

/-- The number of the oldest copy of a core that its engine has not accepted. -/
def State.nextCopy (s : State) (core : Nat) : Option Nat :=
  ((s.engineOps core).filter Op.offered).foldl (fun m o => some (match m with | some k => min k o.id | none => o.id)) none

/-- The ray's earlier writes that an ACQ copy waits for (R194). -/
def State.copyWaits (s : State) (core : Nat) (o : Op) : Bool :=
  (s.core core).ops.any fun p => decide (p.id < o.id) && p.rslot == o.rslot && p.delaysCopy

/-- An ACQ copy reads after the ray's earlier writes have been performed at its scope (R194). -/
def State.copyAcquires (s : State) (core : Nat) (c : Copy) : State :=
  if c.acq then (s.publish core c.scope (s.dirtyAbove core c.scope fun _ => true)).1 else s

/-- The addresses among some that the core's TLB does not translate. -/
def State.engineMisses (s : State) (core ctx : Nat) (vas : List Nat) : List Nat :=
  ((vas.map fun va => va / 65536 * 65536).eraseDups).filter fun va => ((s.core core).tlbFind ctx va).isNone

/-- All 16 walkers of a core's die are taken (R273). -/
def State.walkersBusy (s : State) (core : Nat) : Bool := decide (16 ≤ (SMap.get s.walks [] (dieOf (clusterOf core))).length)

/-- The die's walkers fill the core's TLB for an engine; a walk that cannot be resolved leaves nothing (R283). -/
def State.engineFill (s : State) (core ctx : Nat) (vas : List Nat) : State :=
  vas.foldl (fun s va => match s.walk ctx va with
    | some e => s.updCore core fun c => if (c.tlbFind ctx va).isNone then c.tlbAdd e else c
    | none => s) s

/-- A bank that a switch holds lies under the tensor side of a copy (R266). -/
def State.tensorSwitching (s : State) (core : Nat) (lay : Layout) (d : List DWord) : Bool :=
  let m := boxMap lay d
  decide (2 ^ 56 ≤ lay.base) && (List.range m.count).any fun e => match m.addr e with
    | some a => s.switching (clusterOf core) (a % 2 ^ 56) m.ebytes
    | none => false

/-- What acceptance finds: the record and the chunks without an inside element, or an error. The tile's bytes are held against
reach with the NCH of the record as read now. (DEDUCED, log entry 30) -/
def State.acceptTensor (s : State) (core : Nat) (o : Op) (c : Copy) (mc : Bool) : Except Nat (Layout × BoxMap) :=
  match s.layoutRaw core c.readLevel o.ctx c.record.toNat with
  | none => .error 0x01
  | some w =>
    match parseLayout w with
    | none => .error 0x05
    | some lay =>
      let n := roundUp (boxBytes lay.elem (descBox c.desc)) 512
      if descBad lay mc c.desc then .error 0x04
      else if s.switching (clusterOf core) (bits c.tile 22 0) n || s.mcastSwitching core c n || s.tensorSwitching core lay c.desc then
        .error 0x01
      else if !s.inReach o.l o.pos (bits c.tile 22 0) n then .error 0x02
      else .ok (lay, boxMap lay c.desc)

/-- The read of a copy's layout record meets its errors: an uncorrectable one ends the copy with ERR 0x03 (R192, R413). -/
def State.meetRecord (s : State) (core : Nat) (o : Op) (c : Copy) : State × Bool :=
  match s.translate (some core) o.ctx c.record.toNat with
  | some e => s.meetHbm (e.key c.record.toNat) 128
  | none => (s, false)

/-- Bytes land in the window of a beam: in its cluster, or in the image of its save record (R359), of which only the bytes beyond the
window are written in the cluster. A beam that has completed receives nothing. (DESIGN CHOICE, log entry 92) -/
def State.writeWindow (s : State) (l pos ofs : Nat) (bs : List Byte) : State :=
  match s.beam l pos, SMap.get? s.saved (beamKey l pos) with
  | some b, _ => s.writeScratch b.cluster ofs none bs
  | none, some v =>
    let n := v.beam.winOfs + v.beam.winSize - ofs
    let at0 := ofs - v.beam.winOfs
    let s := s.updSaved (beamKey l pos) fun v => { v with
      window := v.window.take at0 ++ bs.take n ++ v.window.drop (at0 + (bs.take n).length)
      gtags := v.gtags.filter fun (g, _) => !(decide (ofs / 512 ≤ g) && decide (g ≤ (ofs + (bs.take n).length - 1) / 512)) }
    if (bs.drop n).isEmpty then s else s.writeScratch v.beam.cluster (ofs + n) none (bs.drop n)
  | none, none => s

/-- Writes a landed chunk of a tile: in the sender's cluster, or for every receiver. -/
def State.landChunk (s : State) (core : Nat) (c : Copy) (j : Nat) (bs : List Byte) : State :=
  let ofs := bits c.tile 22 0
  match c.kind with
  | .mcast .. => c.recv.foldl (fun s (l, pos) => s.writeWindow l pos (ofs + 512 * j) bs) s
  | _ => s.writeScratch (clusterOf core) (ofs + 512 * j) none bs

/-- The arrivals of a multicast whose last chunk has landed, at its receivers (R198). (DESIGN CHOICE, log entry 92) -/
def State.mcastArrive (s : State) (c : Copy) : State :=
  match c.kind with
  | .mcast _ rb => { s with arrivals := s.arrivals ++ c.recv.map fun w => ⟨BitVec.ofNat 64 rb, some w, none, none⟩ }
  | _ => s

/-- A multicast as it is accepted knows its receivers; a cluster without one gives ERR 0x0A (R198). (DESIGN CHOICE, log entry 92) -/
def State.findReceivers (s : State) (core : Nat) (c : Copy) : Copy :=
  match c.kind with
  | .mcast mask _ =>
    let rs := (mcastClusters core mask).map fun cl => s.receiver cl (bits c.tile 22 0)
    { c with recv := rs.filterMap id, err := if rs.any Option.isNone then 0x0A else 0 }
  | _ => { c with err := 0 }

/-- The engine takes up a tensor copy whose record it has read (R195, R197): chunks with no inside element are filled and set. -/
def State.takeTensor (s : State) (core : Nat) (o : Op) (c : Copy) (lay : Layout) (m : BoxMap) : State :=
  let nch := ceilDiv (m.count * m.ebytes) 512
  let empty := (List.range nch).filter m.outside
  let clip := (List.range m.count).any fun e => (m.addr e).isNone
  let c := { s.findReceivers core c with accepted := true, lay := some lay, nch := nch, done1 := empty, done2 := empty }
  let s := match c.kind with
    | .xout => s
    | _ => empty.foldl (fun s j => s.landChunk core c j (m.fillBytes j)) s
  let s := if nch ≤ empty.length then s.mcastArrive c else s
  s.settleCopy core o c clip

/-- COPY_ACCEPT (R282): the engine takes the copy and reads the record, under ACQ after the ray's earlier writes and at SCOPE's
point (R194), once a walker is free for a miss (R283); the counter may be decremented (R195). -/
def execCopyAccept (core op : Nat) (s : State) : Out :=
  match (s.core core).op op, s.nextCopy core with
  | some o, some n =>
    if o.id ≠ n then .next s
    else match o.kind with
      | .copy c =>
        if s.ctxFaulted o.ctx then .next (s.failCopy core o c 0x09)
        else if c.err ≠ 0 then .next (s.failCopy core o c c.err)
        else match c.kind with
          | .fread | .fwrite =>
            if spaceOf c.tile = 1 ∧ s.switching (clusterOf core) (bits c.tile 22 0) 16384 then .next (s.failCopy core o c 0x01)
            else if bits c.record 63 48 ≠ 0 then .next (s.failCopy core o c 0x04)
            else if !s.flashInRange o.ctx (bits c.record 47 0) then .next (s.failCopy core o c 0x08)
            else if c.kind == .fread && (s.flashData o.ctx (bits c.record 47 0)).isNone then .next (s.failCopy core o c 0x08)
            else .next (s.settleCopy core o { c with accepted := true, nch := 32 } false)
          | kind =>
            let miss := s.engineMisses core o.ctx [c.record.toNat]
            if (c.acq && s.copyWaits core o) || (!miss.isEmpty && s.walkersBusy core) then .next s
            else
              let s := (s.engineFill core o.ctx miss).copyAcquires core c
              let (s, bad) := s.meetRecord core o c
              match (if bad then .error 0x03 else s.acceptTensor core o c (match kind with | .mcast .. => true | _ => false)) with
              | .error e => .next (s.failCopy core o c e)
              | .ok (lay, m) => .next (s.takeTensor core o c lay m)
      | _ => .next s
  | _, _ => .next s

/-! ### COPY_CHUNK_COMPLETE (R197) -/

/-- The bytes of chunk j of the tile side. -/
def State.tileChunk (s : State) (core : Nat) (c : Copy) (j n : Nat) : List Byte :=
  (s.cluster (clusterOf core)).sram.readBytes (bits c.tile 22 0 + 512 * j) n

/-- The addresses of 512 bytes of a flash buffer, and their places. -/
def Copy.bufferAddrs (c : Copy) (j : Nat) : List Nat := (List.range 512).map fun i => (c.tile.toNat + 512 * j + i) % 2 ^ 64

def State.bufferPlaces (s : State) (core : Nat) (o : Op) (c : Copy) (write : Bool) (j : Nat) : Except Nat (List (Nat × Place)) :=
  (c.bufferAddrs j).mapM fun a =>
    match s.copyByte core o write (spaceOf c.tile == 1) a with
    | .ok p => .ok (a, p)
    | .error e => .error e

/-- Free bytes, one fresh value each (log entry 31). -/
def State.freeBytes (s : State) (n : Nat) : List Byte := (List.range n).map fun i => Config.byte (s.tick + i)
/-- The state in which n fresh values have been taken. -/
def State.bumpBy (s : State) (n : Nat) : State := { s with tick := s.tick + n }

/-- The places that bytes of one side may be written to; one that cannot be written is left out. -/
def State.writable (s : State) (core : Nat) (o : Op) (scratch : Bool) (as : List Nat) : List (Nat × Place) :=
  as.filterMap fun a => match s.copyByte core o true scratch (a % 2 ^ 64) with | .ok p => some (a, p) | .error _ => none

/-- The addresses of the inside units of chunk j. -/
def BoxMap.addrs (m : BoxMap) (j : Nat) : List Nat :=
  (m.units j).flatMap fun e => match m.addr e with | none => [] | some a => (List.range m.ebytes).map (a + ·)

/-- The tags of what a copy writes (R383). -/
def State.copyTag (s : State) (core : Nat) (o : Op) (va : Nat) : StoreTag := o.tag core (s.roleOf core o) va

/-- Writes free bytes to the places given. -/
def State.spoilPlaces (s : State) (core : Nat) (o : Op) (c : Copy) (ps : List (Nat × Place)) : State :=
  (s.writePlaces core c.writeLevel (s.copyTag core o) (ps.zip (s.freeBytes ps.length))).bumpBy ps.length

/-- The contents of a destination's chunks that a failing copy has not set are unspecified (R192): their bytes take free
values. (DESIGN CHOICE, log entry 31) -/
def State.spoilCopy (s : State) (core : Nat) (o : Op) (c : Copy) : State :=
  let unset (ds : List Nat) : List Nat := (List.range c.nch).filter fun j => !ds.contains j
  match c.kind, c.lay with
  | .fread, _ =>
    let as := (unset c.done1).flatMap fun j => (List.range 512).map fun i => c.tile.toNat + 512 * j + i
    s.spoilPlaces core o c (s.writable core o (spaceOf c.tile == 1) as)
  | .fwrite, _ | _, none => s
  | .xout, some lay =>
    let m := boxMap lay c.desc
    s.spoilPlaces core o c (s.writable core o (decide (2 ^ 56 ≤ m.base)) ((unset c.done2).flatMap m.addrs))
  | _, some lay =>
    let m := boxMap lay c.desc
    (unset c.done1).foldl (fun s j =>
      let n := (m.units j).length * m.ebytes
      (s.landChunk core c j (s.freeBytes n)).bumpBy n) s

/-- A copy that fails after its acceptance (R192). (DESIGN CHOICE, log entry 31) -/
def State.breakCopy (s : State) (core : Nat) (o : Op) (c : Copy) (err : Nat) : State :=
  (s.spoilCopy core o c).failCopy core o c err

/-- A chunk of the tensor side is read into the tile, or the tile's chunk is taken up or written out. -/
def State.tensorChunk (s : State) (core : Nat) (o : Op) (c : Copy) (m : BoxMap) (j : Nat) (second : Bool) : State :=
  let clip := s.clipOf core o c
  match c.kind, second with
  | .xout, false =>
    let n := (m.units j).length * m.ebytes
    let (s, bad) := s.meetPlaces core 1 ((List.range n).map fun i => .scratch (bits c.tile 22 0 + 512 * j + i))
    if bad then s.breakCopy core o c 0x03
    else s.settleCopy core o { c with done1 := j :: c.done1, buf := SMap.put c.buf j (s.tileChunk core c j n) } clip
  | .xout, true =>
    match s.chunkPlaces core o m true j with
    | .error e => s.breakCopy core o c e
    | .ok ps =>
      let bs := SMap.get c.buf [] j
      let s := s.writePlaces core c.writeLevel (s.copyTag core o) (ps.map fun (i, va, p) => ((va, p), bs.getD i 0))
      s.settleCopy core o { c with done2 := j :: c.done2, buf := SMap.del c.buf j } clip
  | _, _ =>
    match s.chunkPlaces core o m false j with
    | .error e => s.breakCopy core o c e
    | .ok ps =>
      let (s, bad) := s.meetPlaces core 1 (ps.map (·.2.2))
      if bad then s.breakCopy core o c 0x03
      else
        let s := s.copyAcquires core c
        let bs := patch (m.fillBytes j) (ps.map fun (i, _, p) => (i, s.readPlace core c.readLevel p))
        let s := s.landChunk core c j bs
        let c := { c with done1 := j :: c.done1 }
        let s := if c.nch ≤ c.done1.length then s.mcastArrive c else s
        s.settleCopy core o c clip

/-- A flash page as it is sensed for FREAD: its data, or an error, with the counts of retried and uncorrectable pages (R318, R404). A
page that an erase or another owner has taken meanwhile is no longer there (R403). -/
def State.senseFlash (s : State) (ctx idx : Nat) : State × Except Nat (List Byte) :=
  match s.flashData ctx idx with
  | none => (s.bump, .error 0x08)
  | some d => match s.flashCorrects with
    | none => ({ s.bump with module := { s.module with uncorr := s.module.uncorr + 1 } }, .error 0x06)
    | some k => ({ s.bump with module := { s.module with retried := s.module.retried + (if k = 0 then 0 else 1) } }, .ok d)

/-- A chunk of a flash page lands in the buffer, or is read from it. The page is read whole with the first chunk. -/
def State.flashChunk (s : State) (core : Nat) (o : Op) (c : Copy) (j : Nat) : State :=
  match c.kind with
  | .fread =>
    let (s, page) := match SMap.get? c.buf 0 with
      | some p => (s.bump, Except.ok p)
      | none => s.senseFlash o.ctx (bits c.record 47 0)
    match page with
    | .error e => s.breakCopy core o c e
    | .ok p =>
      match s.bufferPlaces core o c true j with
      | .error e => s.breakCopy core o c e
      | .ok ps =>
        let s := s.writePlaces core c.writeLevel (s.copyTag core o) (ps.zip ((p.drop (512 * j)).take 512))
        s.settleCopy core o { c with done1 := j :: c.done1, buf := SMap.put c.buf 0 p } false
  | _ =>
    match s.bufferPlaces core o c false j with
    | .error e => s.breakCopy core o c e
    | .ok ps =>
      let (s, bad) := s.meetPlaces core 1 (ps.map (·.2))
      if bad then s.breakCopy core o c 0x03
      else s.settleCopy core o { c with done1 := j :: c.done1, buf := SMap.put c.buf j (ps.map fun x => s.readPlace core c.readLevel x.2) } false

/-- The global addresses that a chunk's turn translates (R283). -/
def Copy.chunkAddrs (c : Copy) (j : Nat) : List Nat :=
  match c.lay with
  | some lay => if 2 ^ 56 ≤ lay.base then [] else ((boxMap lay c.desc).bytes j).map (·.2)
  | none => if spaceOf c.tile = 0 then c.bufferAddrs j else []

/-- COPY_CHUNK_COMPLETE (R197): chunk j lands, is read, or becomes visible, once a walker is free for each miss (R283). An
uncorrectable error that it meets ends the copy (R192). (DESIGN CHOICE, log entry 95) -/
def execCopyChunkComplete (core op chunk : Nat) (second : Bool) (s : State) : Out :=
  match (s.core core).op op with
  | none => .next s
  | some o =>
    match o.kind with
    | .copy c =>
      let ds := if second then c.done2 else c.done1
      let miss := s.engineMisses core o.ctx (c.chunkAddrs chunk)
      let ready := c.accepted && !o.isOver && decide (chunk < c.nch) && !ds.contains chunk &&
        (!second || (c.kind == .xout && c.done1.contains chunk)) && !(c.acq && s.copyWaits core o) &&
        (miss.isEmpty || !s.walkersBusy core)
      if !ready then .next s
      else if s.ctxFaulted o.ctx then .next (s.breakCopy core o c 0x09)
      else
        let s := s.engineFill core o.ctx miss
        match c.lay with
        | some lay => .next (s.tensorChunk core o c (boxMap lay c.desc) chunk second)
        | none => .next (s.flashChunk core o c chunk)
    | _ => .next s

/-- A page is programmed (R404): its block may be retired by the firmware, and then a spare block takes its place. -/
def Module.programmed (m : Module) (retire : Bool) : Module :=
  if retire then { m with spareUsed := m.spareUsed + 1, retiredBlocks := m.retiredBlocks + 1 } else m

/-- FLASH_PROGRAM_COMPLETE (R199, R403, R404): the page is durably programmed, or its programming fails: ERR 0x07, always where the
flash is read only, or 0x08 where the range was erased or is no longer the context's. -/
def execFlashProgramComplete (core op : Nat) (s : State) : Out :=
  match (s.core core).op op with
  | none => .next s
  | some o =>
    match o.kind with
    | .copy c =>
      if c.kind != .fwrite || o.isOver || !c.ended1 then .next s
      else if s.ctxFaulted o.ctx then .next (s.failCopy core o c 0x09)
      else if c.err ≠ 0 then .next (s.failCopy core o c c.err)
      else if !s.flashInRange o.ctx (bits c.record 47 0) then .next (s.failCopy core o c 0x08)
      else if s.module.flashState = 2 || Config.programFails s.tick then .next (s.bump.failCopy core o c 0x07)
      else
        let page := (List.range 32).flatMap fun j => SMap.get c.buf [] j
        let m := (s.module.programmed (Config.retires s.tick)).worn s.tick
        .next ({ s.bump with module := { m with flash := SMap.put m.flash (bits c.record 47 0) ⟨page⟩ } }.settleCopy core o
          { c with done2 := List.range 32, buf := [] } false)
    | _ => .next s

end Sys2Proof.Machine
end

