-- ==== Sys2Proof/Machine/Sequencer.lean ====
section
/-!
DEFINITION. The matrix sequencer and the plane engine (R214 to R237): a stream's instructions as they issue, the tile
commands as the engine executes them, and a stream's beginning and end.
-/
namespace Sys2Proof.Machine

/-! ### Issue (R216 to R221) -/

/-- The stream that executes. -/
def State.curStream (s : State) : Option (Nat × Stream) :=
  match s.cur with
  | .stream cl => ((s.cluster cl).stream).map fun x => (cl, x)
  | _ => none

/-- The offset of the running instruction word of a thread. -/
def Thread.pcNow (t : Thread) : Nat := match t.clause with | some c => c.pc | none => 0

/-- An instruction of a stream: with a false guard it only advances (R216); its checks end the stream with a STATUS;
otherwise its effect, the advance, and a latch of 0. -/
def seqOp (i : Instr) (plan : State → Nat → Stream → Except Nat State) (s : State) : Out :=
  match s.curStream with
  | none => .fault .noActor
  | some (cl, x) =>
    let fin (s : State) : Out := match s.curThread with
      | some t => .next (s.finishSlot ((t.advance i.size).push Latch.zero))
      | none => .next s
    if x.th.active i.guard = 0 then fin s
    else match plan s cl x with
      | .error st => .next (s.streamFault cl st x.th.pcNow)
      | .ok s1 => fin s1

/-- A scratchpad operand as an offset, or none where it breaks R217. -/
def seqOfs (x : DWord) (align : Nat) : Option Nat :=
  if bits x 63 56 ≤ 1 ∧ bits x 55 23 = 0 ∧ bits x 22 0 % align = 0 then some (bits x 22 0) else none

/-- A range of the forking beam's reach, as a command issues. -/
def State.seqReach (s : State) (x : Stream) (ofs n : Nat) : Bool :=
  decide (ofs + n ≤ sramEnd) && s.inReach x.fork.l x.fork.pos ofs n

/-- A range of the forking beam's reach, as the engine finds it: a switch of a bank waits for the commands that are queued (R266). -/
def State.engineReach (s : State) (x : Stream) (ofs n : Nat) : Bool :=
  decide (ofs + n ≤ sramEnd) && s.rangeReach true x.fork.l x.fork.pos ofs n

/-- The scopes a tile command takes (R221). -/
def seqScope (scope : BitVec 3) : Bool := decide (2 ≤ scope.toNat) && decide (scope.toNat ≤ 5)

/-- Queues a tile command; a full queue stalls the stream, whose slot runs again (R220). Of several checks that fail the first
decides the STATUS: the scope, then those of the command in the order its meaning gives (R218). (DESIGN CHOICE, log entry 111) -/
def tileCmd (i : Instr) (scope : BitVec 3) (acq rel : Bool) (plan : State → Nat → Stream → Except Nat TileOp) (s : State) : Out :=
  match s.curStream with
  | none => .fault .noActor
  | some (cl, x) =>
    if x.th.active i.guard ≠ 0 ∧ 8 ≤ (s.cluster cl).cmds.length then .next s
    else seqOp i (fun s cl x =>
      if !seqScope scope then .error 0x40
      else match plan s cl x with
        | .error st => .error st
        | .ok op => .ok (s.updCluster cl fun c => { c with cmds := c.cmds ++ [⟨op, x.th.pcNow, acq, rel⟩] })) s

/-- A 64-bit operand of a stream. -/
def Stream.rd (x : Stream) (o : Opnd) : DWord := x.th.rd64 false o 0

/-! ### Operand descriptors (R222 to R224) -/

def Desc.fmt (d : Desc) : Nat := bits d.lo 63 60
def Desc.gs (d : Desc) : Nat := bits d.lo 59 58
def Desc.sc (d : Desc) : Bool := bit d.lo 57
def Desc.kb (d : Desc) : Nat := bits d.lo 56 48 + 1
def Desc.planes (d : Desc) : Nat := planeWidth d.fmt
def Desc.stride (d : Desc) : Nat := if bits d.lo 47 40 = 0 then d.planes else bits d.lo 47 40
def Desc.tile (d : Desc) : Bool := bit d.lo 39
def Desc.base (d : Desc) : Nat := bits d.lo 22 0
def Desc.sbase (d : Desc) : Nat := bits d.hi 22 0

/-- A descriptor that breaks R223 or R224; one without scales whose SBASE is not 0 does too (R222). (DESIGN CHOICE, log entry 118) -/
def Desc.bad (d : Desc) : Bool :=
  bits d.lo 38 23 != 0 || bits d.hi 63 23 != 0 || decide (7 < d.fmt) || (d.sc && decide (4 < d.fmt)) || d.gs == 3 ||
    (d.gs != 0 && !(d.sc && (d.fmt == 0 || d.fmt == 2))) || (d.tile && d.fmt != 5 && d.fmt != 6) ||
    (bits d.lo 47 40 != 0 && decide (bits d.lo 47 40 < d.planes)) || (!d.sc && d.sbase != 0)

/-- The scale bytes or group records: their length (R224). -/
def Desc.scaleBytes (d : Desc) : Nat :=
  if !d.sc then 0
  else if d.fmt = 0 ∨ d.fmt = 2 then 4 * 128 * ceilDiv (32 * d.kb) (32 * 2 ^ d.gs)
  else 128 * d.kb

/-- The ranges of an operand are in reach, and its blocks and scales aligned (R223); of a tile the head, whose data the engine
checks. -/
def State.descReach (s : State) (x : Stream) (d : Desc) (ofs : Nat) : Bool :=
  let b := d.base + ofs
  (if d.tile then s.seqReach x b 128
   else b % 512 == 0 && (List.range d.kb).all fun j => s.seqReach x (b + 512 * d.stride * j) (512 * d.planes)) &&
  (!d.sc || (d.sbase % 128 == 0 && s.seqReach x d.sbase d.scaleBytes))

/-- What MMA and MMAZ check and capture at issue. -/
def mmaPlan (z : Bool) (t : BitVec 4) (a b : Opnd) (da db : BitVec 4) (s : State) (_ : Nat) (x : Stream) : Except Nat TileOp :=
  match SMap.get? x.desc da.toNat, SMap.get? x.desc db.toNat with
  | some p, some q =>
    if p.bad || q.bad || p.kb != q.kb then .error 0x40
    else match seqOfs (x.rd a) 1, seqOfs (x.rd b) 1 with
      | some oa, some ob =>
        if s.descReach x p oa && s.descReach x q ob then .ok (.mma z t.toNat p q oa ob) else .error 0x41
      | _, _ => .error 0x41
  | _, _ => .error 0x40

/-- MMA (R225). -/
def execMma (g : Guard) (a b : Opnd) (scope : BitVec 3) (rel acq : Bool) (db da t : BitVec 4) (s : State) : Out :=
  tileCmd (.mma g a b scope rel acq db da t) scope acq rel (mmaPlan false t a b da db) s
/-- MMAZ (R225). -/
def execMmaz (g : Guard) (a b : Opnd) (scope : BitVec 3) (rel acq : Bool) (db da t : BitVec 4) (s : State) : Out :=
  tileCmd (.mmaz g a b scope rel acq db da t) scope acq rel (mmaPlan true t a b da db) s

/-- MZERO (R228). -/
def execMzero (g : Guard) (t : BitVec 4) (s : State) : Out :=
  tileCmd (.mzero g t) 2 false false (fun _ _ _ => .ok (.mzero t.toNat)) s

/-- The bytes of the largest tile: a head and 128 by 128 FP32 elements (R229). -/
def tileMax : Nat := 65664

/-- MHAAR (R229): the threshold is captured at issue (R220). -/
def execMhaar (g : Guard) (a b : Opnd) (scope : BitVec 3) (rel : Bool) (t : BitVec 4) (s : State) : Out :=
  tileCmd (.mhaar g a b scope rel t) scope false rel (fun s _ x =>
    let w := x.rd b
    match seqOfs (x.rd a) 128 with
    | none => .error 0x41
    | some h =>
      if bits w 63 10 ≠ 0 ∨ bits w 9 8 = 3 then .error 0x40
      else if !s.seqReach x h tileMax then .error 0x41
      else .ok (.mhaar t.toNat h (BitVec.ofNat 8 (bits w 7 0)) (bits w 9 8) (s.threshold x.fork.l x.fork.pos (bits w 7 4)))) s

/-- MIHAAR with K = 1 (R230). -/
def execMihaarTile (g : Guard) (scope : BitVec 3) (rel : Bool) (t : BitVec 4) (s : State) : Out :=
  tileCmd (.mihaarTile g scope rel t) scope false rel (fun _ _ _ => .ok (.mihaarTile t.toNat)) s

/-- MIHAAR with K = 0 (R230): the ranges that the source's head sizes are checked once the engine has read it. -/
def execMihaar (g : Guard) (a b : Opnd) (scope : BitVec 3) (rel : Bool) (s : State) : Out :=
  tileCmd (.mihaar g a b scope rel) scope false rel (fun s _ x =>
    match seqOfs (x.rd a) 128, seqOfs (x.rd b) 128 with
    | some src, some dst => if s.seqReach x src 128 then .ok (.mihaar src dst) else .error 0x41
    | _, _ => .error 0x41) s

/-- MTHR.SET (R231): a threshold register of the forking beam is written as it issues, and
stands over a ray's write of the same clock (R31). -/
def execMthrSet (g : Guard) (a : Opnd) (i : BitVec 4) (s : State) : Out :=
  seqOp (.mthrSet g a i) (fun s _ x =>
    .ok (s.updBeam x.fork.l x.fork.pos fun b => b.setH s.clock 32 i.toNat (lo32 (x.rd a)))) s

/-- MTHR.TILE (R231): all sixteen threshold registers are captured (R220). -/
def execMthrTile (g : Guard) (a : Opnd) (scope : BitVec 3) (rel : Bool) (s : State) : Out :=
  tileCmd (.mthrTile g a scope rel) scope false rel (fun s _ x =>
    match seqOfs (x.rd a) 1 with
    | some h =>
      if s.seqReach x h 128 then .ok (.mthrTile h ((List.range 16).map (s.threshold x.fork.l x.fork.pos))) else .error 0x41
    | none => .error 0x41) s

/-- MSIG (R232): an address of another space or context ends the stream (R203). -/
def execMsig (g : Guard) (a : Opnd) (s : State) : Out :=
  tileCmd (.msig g a) 2 false false (fun _ _ x =>
    if spaceOf (x.rd a) ≠ 3 ∨ bits (x.rd a) 55 46 ≠ x.fork.ctx then .error 0x46 else .ok (.msig (x.rd a))) s

/-- The flag of an MWAIT has reached its value (R233). -/
def State.flagMet (s : State) (cl f : Nat) (v : DWord) (eq : Bool) : Bool :=
  let x := s.scratchN cl f 8
  if eq then x == v.toNat else decide (v.toNat ≤ x)

/-- MWAIT (R233). -/
def execMwait (g : Guard) (a b : Opnd) (e : Bool) (s : State) : Out :=
  seqOp (.mwait g a b e) (fun s cl x =>
    match seqOfs (x.rd a) 8 with
    | none => .error 0x41
    | some f =>
      if !s.seqReach x f 8 then .error 0x41
      else if s.flagMet cl f (x.rd b) e then .ok s
      else .ok (s.updCluster cl fun c => { c with stream := c.stream.map fun y => { y with state := .mwait f (x.rd b) e } })) s

/-- MDESC (R233). -/
def execMdesc (g : Guard) (a b : Opnd) (j : BitVec 4) (s : State) : Out :=
  seqOp (.mdesc g a b j) (fun s cl x =>
    .ok (s.updCluster cl fun c => { c with stream := c.stream.map fun y =>
      { y with desc := SMap.put y.desc j.toNat ⟨x.rd a, x.rd b⟩ } })) s

/-- MEND (R234). -/
def execMend (g : Guard) (s : State) : Out :=
  seqOp (.mend g) (fun s cl _ =>
    .ok (s.updCluster cl fun c => { c with stream := c.stream.map fun y => { y with state := .ended, status := 0 } })) s

/-- MWAIT_RELEASE (R233): the flag, read at the cluster's point of coherence, has reached the value. -/
def execMwaitRelease (cl : Nat) (s : State) : Out :=
  match (s.cluster cl).stream with
  | some x =>
    match x.state with
    | .mwait f v eq =>
      if s.flagMet cl f v eq then
        .next (s.updCluster cl fun c => { c with stream := c.stream.map fun y => { y with state := .running } })
      else .next s
    | _ => .next s
  | none => .next s

/-! ### Operands in the engine (R224, R227) -/

/-- An operand as the engine sees it: its tag, absent lines, and exact element values. -/
structure Operand where
  tag : Nat
  absent : Nat → Nat → Bool
  value : Nat → Nat → Nat → XVal

/-- The code of element k in line r of a plane-form block. -/
def planeCode (m : Mem) (b planes r k : Nat) : Nat :=
  (List.range planes).foldl (fun n p => if (m.readN (b + 512 * p + 4 * r) 4).testBit k then n + 2 ^ p else n) 0

/-- A code's exact value (R34, R35, R47). -/
def codeValue (fmt c : Nat) : XVal :=
  match fmt with
  | 0 => .ofInt (BitVec.ofNat 4 c).toInt
  | 1 => (fmtE2m1.decode false c).1
  | 2 => .ofInt (BitVec.ofNat 8 c).toInt
  | 3 => (fmtE4m3.decode false c).1
  | 4 => (fmtE5m2.decode false c).1
  | 5 => (fmtBf16.decode false c).1
  | 6 => (fmtF16.decode false c).1
  | _ => .ofInt (BitVec.ofNat 16 c).toInt

/-- A scaled value (R45, R48, R224): j the K-block, r the line. -/
def scaledValue (m : Mem) (d : Desc) (j r c : Nat) : XVal :=
  if d.fmt = 0 ∨ d.fmt = 2 then
    let g := 32 * j / (32 * 2 ^ d.gs)
    let w := m.readN (d.sbase + 4 * (128 * g + r)) 4
    let z := if d.fmt = 0 then nbits w 19 16 else nbits w 23 16
    ((fmtF16.decode false (w % 65536)).1.mul (.ofInt ((c : Int) - z))).1
  else
    let x := (m.read (d.sbase + 128 * j + r)).toNat
    if x = 0xFF then .nan false
    else match codeValue d.fmt c with
      | .fin neg n e => let (a, b) := scale2 n e ((x : Int) - 127); .fin neg a b
      | v => v

/-- A plane-form operand; none where its granules' tag bytes differ, or name LEVELS 0b111 (R227). -/
def planeOperand (c : Cluster) (d : Desc) (ofs : Nat) : Option Operand :=
  let b (j : Nat) : Nat := d.base + ofs + 512 * d.stride * j
  let tags := (List.range d.kb).flatMap fun j => (List.range d.planes).map fun p =>
    (SMap.get c.gtags 0 (b j / 512 + p)).toNat
  let tag := tagNorm (tags.headD 0)
  if tags.any (· != tags.headD 0) ∨ tagLevels tag = 7 then none
  else some
    { tag := tag
      absent := fun j r => tag != 0 && (List.range d.planes).all fun p => c.sram.readN (b j + 512 * p + 4 * r) 4 == 0
      value := fun j r k =>
        let x := planeCode c.sram (b j) d.planes r k
        if d.sc then scaledValue c.sram d j r x else codeValue d.fmt x }

/-- The status of a KIND 1 operand: its head breaks R58, CH differs from the K-blocks, or its data is out of reach.
Lines at and above N are absent, of an untagged tile too (R224, R226). (DEDUCED, log entry 34; DESIGN CHOICE, log entry 110) -/
def State.tileOperand (s : State) (x : Stream) (cl : Nat) (d : Desc) (ofs : Nat) : Except Nat Operand :=
  let base := d.base + ofs
  let (h, clean) := headOf ((s.cluster cl).sram.readBytes base 128)
  let tag := tagNorm h.tag
  if headBad h clean || h.ch != d.kb then .error 0x42
  else if !s.engineReach x (base + 128) (h.unitOfs h.units) then .error 0x41
  else .ok
    { tag := tag
      absent := fun j r => decide (h.n ≤ r) || (tag != 0 && !h.has (j * h.n + r))
      value := fun j r k =>
        if h.n ≤ r then .fin false 0 1 else f32val (BitVec.ofNat 32 (s.unitElem cl base h (j * h.n + r) k)) }

/-- An operand of a command. -/
def State.operand (s : State) (x : Stream) (cl : Nat) (d : Desc) (ofs : Nat) : Except Nat Operand :=
  if d.tile then s.tileOperand x cl d ofs
  else match planeOperand (s.cluster cl) d ofs with
    | some o => .ok o
    | none => .error 0x42

/-- The lines of an operand that are positions: 128 of a plane-form block, N of a tile. -/
def State.operandLines (s : State) (cl : Nat) (d : Desc) (ofs : Nat) : Nat :=
  if d.tile then (headOf ((s.cluster cl).sram.readBytes (d.base + ofs) 128)).1.n else 128

/-- B reconstructed with Inverse over its positions, each K-block and channel on its own (R227): of values rounded to FP32.
(DESIGN CHOICE, log entry 110) -/
def Operand.reconstruct (o : Operand) (n : Nat) : Operand :=
  { o with
    absent := fun _ r => decide (n ≤ r)
    value := fun j r k =>
      if n ≤ r then .fin false 0 1
      else
        let row := (List.range n).map fun p => if o.absent j p then 0 else roundRne fmtF32 (o.value j p k)
        f32val (BitVec.ofNat 32 ((inverse (tagLevels o.tag) row).getD r 0)) }

/-- The product tag (R227). -/
def productTag (a b : Nat) : Nat :=
  if a ≠ 0 then a / 16 * 16 + 8 + a % 8 else if b ≠ 0 then b / 16 * 16 + b % 8 else 0

/-- A value that rounds beyond the range of FP32 is an infinity; any other stays exact. -/
def XVal.inF32 (x : XVal) : XVal := match f32val (BitVec.ofNat 32 (roundRne fmtF32 x)) with | .inf s => .inf s | _ => x

/-- The sum of a K-group: exact, but ±infinity beyond the range of FP32 (R50, R226). -/
def groupSum (a b : Operand) (j m n : Nat) : XVal :=
  XVal.inF32 ((List.range 32).foldl (fun s k => (s.add .rne ((a.value j m k).mul (b.value j n k)).1).1) (XVal.fin false 0 1))

/-- One element of the product added to the accumulator, group by group in ascending order (R50, R226). (DESIGN CHOICE, log entry 110) -/
def mmaElem (a b : Operand) (kb m n : Nat) (acc : Word) : Word :=
  (List.range kb).foldl (fun acc j =>
    if a.absent j m || b.absent j n then acc
    else BitVec.ofNat 32 (roundRne fmtF32 ((f32val acc).add .rne (groupSum a b j m n)).1)) acc

/-- A tile's elements from a rule. -/
def tileOf (f : Nat → Nat → Word) : SMap Word :=
  (List.range 16384).filterMap fun e => let v := f (e / 128) (e % 128); if v = 0 then none else some (e, v)

/-- An element of a tile. -/
def Tile.elem (t : Tile) (m n : Nat) : Word := SMap.get t.elems 0 (128 * m + n)

/-- A tile as a context's command finds it: a tile of another owner is zeroed first (R219). -/
def Tile.ownedBy (t : Tile) (ctx : Nat) : Tile :=
  if t.owner = some ctx ∨ t.owner.isNone then { t with owner := some ctx } else { Tile.reset with owner := some ctx }

/-- MMA and MMAZ in the engine (R226, R227). A command that fails leaves the tile and its owner as they were (R218, R219).
(DESIGN CHOICE, log entry 111) -/
def State.runMma (s : State) (x : Stream) (cl : Nat) (z : Bool) (t : Nat) (da db : Desc) (oa ob : Nat) : Except Nat State :=
  match s.operand x cl da oa, s.operand x cl db ob with
  | .error e, _ => .error e
  | _, .error e => .error e
  | .ok a, .ok b =>
    let b' := if a.tag ≠ 0 ∧ b.tag ≠ 0 then b.reconstruct (s.operandLines cl db ob) else b
    let old := ((s.cluster cl).tile t).ownedBy x.fork.ctx
    let tile := if z then { old with elems := [], tag := 0, empty := true } else old
    let tag := productTag a.tag b.tag
    if !tile.empty && tile.tag.toNat != tag then .error 0x42
    else .ok (s.updCluster cl fun c => c.setTile t
      { tile with elems := tileOf fun m n => mmaElem a b' da.kb m n (tile.elem m n), tag := BitVec.ofNat 8 tag, empty := false })

/-- The element of a tile that holds channel c at position p under an axis (R55). -/
def Tile.at_ (t : Tile) (axis c p : Nat) : Nat := (if axis = 0 then t.elem c p else t.elem p c).toNat

/-- MHAAR in the engine (R229). -/
def State.runMhaar (s : State) (x : Stream) (cl t h : Nat) (tag : Nat) (fmt : Nat) (thr : Word) : Except Nat State :=
  let tile := ((s.cluster cl).tile t).ownedBy x.fork.ctx
  let tag := tagNorm tag
  let spatial := tile.empty || tile.tag == 0
  if tagLevels tag = 7 ∨ (¬ spatial ∧ tile.tag.toNat ≠ tag) then .error 0x42
  else
    let (hd, data) := buildTile spatial tag fmt 7 4 (f32val thr) (tile.at_ (tagAxis tag))
    .ok ((s.updCluster cl fun c => c.setTile t tile).writeScratch cl h none (hd.bytes ++ data))

/-- MIHAAR with K = 1 in the engine (R230). -/
def State.runMihaarTile (s : State) (x : Stream) (cl t : Nat) : State :=
  let tile := ((s.cluster cl).tile t).ownedBy x.fork.ctx
  if tile.tag = 0 then s.updCluster cl fun c => c.setTile t tile
  else
    let ax := tagAxis tile.tag.toNat
    let rows := (List.range 128).map fun c => inverse (tagLevels tile.tag.toNat) ((List.range 128).map (tile.at_ ax c))
    s.updCluster cl fun c => c.setTile t
      { tile with
        elems := tileOf fun m n => BitVec.ofNat 32 (if ax = 0 then (rows.getD m []).getD n 0 else (rows.getD n []).getD m 0)
        tag := 0, empty := false }

/-- MIHAAR with K = 0 in the engine (R230). -/
def State.runMihaar (s : State) (x : Stream) (cl src dst : Nat) : Except Nat State :=
  let (h, clean) := headOf ((s.cluster cl).sram.readBytes src 128)
  let srcN := 128 + h.unitOfs h.units
  let dstN := 128 + h.units * 32 * tileBytes h.fmt
  if headBad h clean then .error 0x42
  else if !s.engineReach x src srcN || !s.engineReach x dst dstN || (decide (src < dst + dstN) && decide (dst < src + srcN)) then .error 0x41
  else
    let rows := (List.range (32 * h.ch)).map fun c =>
      inverse (tagLevels h.tag) ((List.range h.n).map fun p => s.unitElem cl src h (c / 32 * h.n + p) (c % 32))
    let (hd, data) := buildTile false 0 h.fmt h.nlog h.ch (.fin false 0 1) fun c p => (rows.getD c []).getD p 0
    .ok (s.writeScratch cl dst none (hd.bytes ++ data))

/-- MTHR.TILE in the engine (R231): the present units tested again and compacted. -/
def State.runMthrTile (s : State) (x : Stream) (cl h : Nat) (hs : List Word) : Except Nat State :=
  let (hd, clean) := headOf ((s.cluster cl).sram.readBytes h 128)
  let n := 32 * tileBytes hd.fmt
  if headBad hd clean then .error 0x42
  else if !s.engineReach x h (128 + hd.unitOfs hd.units) then .error 0x41
  else if tagLevels hd.tag = 0 then .ok s
  else
    let thr := f32val (hs.getD (tagThr hd.tag) 0)
    let approx := hd.n / 2 ^ tagLevels hd.tag
    let keep (u : Nat) : Bool := hd.has u &&
      (decide (u % hd.n < approx) || !unitDrops thr ((List.range 32).map fun i => f32val (BitVec.ofNat 32 (s.unitElem cl h hd u i))))
    let us := (List.range hd.units).filter keep
    let data := us.flatMap fun u => (s.cluster cl).sram.readBytes (h + 128 + hd.unitOfs u) n
    .ok (s.writeScratch cl h none ({ hd with count := us.length, bitmap := us.foldl (fun b u => b + 2 ^ u) 0 }.bytes ++ data))

/-- A tile command as the engine executes it (R220). -/
def State.runCmd (s : State) (x : Stream) (cl : Nat) (op : TileOp) : Except Nat State :=
  match op with
  | .mma z t da db oa ob => s.runMma x cl z t da db oa ob
  | .mzero t => .ok (s.updCluster cl fun c => c.setTile t { Tile.reset with owner := some x.fork.ctx })
  | .mhaar t h tag fmt thr => s.runMhaar x cl t h tag.toNat fmt thr
  | .mihaarTile t => .ok (s.runMihaarTile x cl t)
  | .mihaar src dst => s.runMihaar x cl src dst
  | .mthrTile h hs => s.runMthrTile x cl h hs
  | .msig addr => .ok { s with arrivals := s.arrivals ++ [⟨addr, none, none, some cl⟩] }

/-- A clause of a resident ray of the cluster has begun and has yet to TAKE a tile (R213); what the held clause of a saved beam's parked
ray has yet to TAKE holds nothing back. (DESIGN CHOICE, log entry 130) -/
def State.takePending (s : State) (cl t : Nat) : Bool :=
  (List.range 4).any fun j => (s.core (4 * cl + j)).rays.any fun (_, r) =>
    match r.th.clause with
    | some c => (clauseInstrs 16 (c.slots.drop c.next)).any fun i => match i with | .take _ _ u _ _ _ => u.toNat == t | _ => false
    | none => false

/-- The words of an accumulator tile as its error marks name it (R413). -/
def accWord (cl t : Nat) : Nat × Nat := (cl + 145, t)

/-- The words of a scratchpad tile: its head and data. -/
def State.tileWords (s : State) (cl base : Nat) : List (Nat × Nat) :=
  let (h, clean) := headOf ((s.cluster cl).sram.readBytes base 128)
  sramWords cl base (128 + if headBad h clean then 0 else h.unitOfs h.units)

/-- The words of a descriptor's operand: its tile, or its K-blocks and scales. -/
def State.operandWords (s : State) (cl : Nat) (d : Desc) (ofs : Nat) : List (Nat × Nat) :=
  if d.tile then s.tileWords cl (d.base + ofs)
  else ((List.range d.kb).flatMap fun j => sramWords cl (d.base + ofs + 512 * d.stride * j) (512 * d.planes)) ++
    (if d.sc then sramWords cl d.sbase d.scaleBytes else [])

/-- The words of scratchpad and of accumulators that a tile command of a context reads; a tile of another owner is zeroed and not
read (R219). -/
def State.cmdReads (s : State) (cl ctx : Nat) (op : TileOp) : List (Nat × Nat) :=
  let acc (t : Nat) : List (Nat × Nat) := if ((s.cluster cl).tile t).owner = some ctx then [accWord cl t] else []
  match op with
  | .mma z t da db oa ob => s.operandWords cl da oa ++ s.operandWords cl db ob ++ (if z then [] else acc t)
  | .mhaar t .. | .mihaarTile t => acc t
  | .mihaar src _ => s.tileWords cl src
  | .mthrTile h _ => s.tileWords cl h
  | .mzero _ | .msig _ => []

/-- An accumulator that a command has written or zeroed holds no error (R413). -/
def State.cleanTile (s : State) (cl : Nat) (op : TileOp) : State :=
  match op.tile with
  | some t => { s with poison := s.poison.filter (· != accWord cl t) }
  | none => s

/-- TILE_COMMAND_EXECUTE (R220): the next command executes and retires, or fails and every command behind it is
discarded (R218). An uncorrectable error of the SRAM or the accumulator that it reads ends the stream with STATUS 0x44 (R413).
(DEDUCED, log entry 36; DESIGN CHOICE, log entry 95) -/
def execTileCommandExecute (cl : Nat) (s : State) : Out :=
  match (s.cluster cl).cmds, (s.cluster cl).stream with
  | k :: rest, some x =>
    if s.module.throttled || (match k.op.tile with | some t => s.takePending cl t | none => false) then .next s
    else
      let ws := s.cmdReads cl x.fork.ctx k.op
      let (s, ecc) := if ws.isEmpty then (s, false) else s.meetError ws 0x03 0 cl
      match (if ecc then .error 0x44 else s.runCmd x cl k.op) with
      | .ok s1 => .next ((s1.cleanTile cl k.op).updCluster cl fun c => { c with cmds := rest })
      | .error st => .next ((s.updCluster cl fun c => { c with cmds := [] }).streamFault cl st k.pc)
  | _, _ => .next s

/-! ### Streams (R214, R215, R218, R234) -/

/-- The state of a stream as it begins (R214). -/
def Thread.ofFork (f : Fork) (span : Nat) : Thread :=
  { kind := .stream, v := [], marks := [], s := [], m := [(0, f.arg), (1, f.obj)], p := []
    vpc := laneTab fun k => if k = 0 then f.entry else 0xFFFFFFFC#32
    live := 1, flags := laneTab fun _ => 0, fmode := 0, latches := [], ret := [], level := laneTab fun _ => 0, depth := 16
    allot := 0, retired := 0, clause := none, span := span }

/-- A write that the forking ray issued before FORK is outstanding (R208). -/
def State.forkWaits (s : State) (f : Fork) : Bool :=
  (s.core f.core).ops.any fun p => decide (p.id < f.op) && p.rslot == f.rslot && p.l == f.l && p.pos == f.pos &&
    (p.writing || (!p.done && (match p.kind with | .sth .. | .feed .. => true | _ => false)))

/-- STREAM_BEGIN (R208, R215): the oldest fork's stream begins once the previous one has ended and retired. An entry
offset that is no clause header of the span ends it at once with STATUS 0x07. -/
def execStreamBegin (cl : Nat) (s : State) : Out :=
  let c := s.cluster cl
  match c.stream, c.cmds, c.forks with
  | none, [], f :: rest =>
    if s.forkWaits f then .next s
    else
      let span := match s.launch f.l with | some x => x.header.codeSize | none => 0
      let (s, _) := s.publish f.core 2 (s.dirtyAbove f.core 2 fun _ => true)
      let s := s.setRv cl (refHead f.obj) 2 none
      let bad := f.entry.toNat % 4 != 0 || decide (span ≤ f.entry.toNat)
      let x : Stream := { th := Thread.ofFork f span, fork := f, state := if bad then .ended else .running, desc := []
                          status := if bad then 0x07 else 0, failPc := f.entry.toNat }
      .next ((s.updCluster cl fun c => { c with stream := some x, forks := rest }).completeAnywhere f.core f.op)
  | _, _, _ => .next s

/-- The sequencer fault word (R385). -/
def seqFaultWord (ctx status pc : Nat) : DWord := BitVec.ofNat 64 (ctx % 1024 * 2 ^ 54 + status % 256 * 2 ^ 32 + pc % 2 ^ 32)

/-- The event of KIND 0x6 of a stream that ended with a fault: to the core of the forking beam (R385). -/
def State.streamEvent (s : State) (x : Stream) : State :=
  let f := x.fork
  let r := match s.ray f.core f.rslot with | some r => if r.l = f.l ∧ r.pos = f.pos ∧ r.th.live ≠ 0 then some r else none | none => none
  s.queueEvent f.core (eventRec f.ctx f.rslot f.rayId f.role r.isNone 6 0 x.status 0
    (match r with | some r => (r.th.issue).getD 0 | none => 0) 0 (seqFaultWord f.ctx x.status x.failPc).toNat)

/-- STREAM_END (R218, R234): once the commands have retired and every MSIG has arrived, STATUS and STATE 3 are written;
the fault word is kept and its event queued, but for an abort. Waiting JOINs complete. -/
def execStreamEnd (cl : Nat) (s : State) : Out :=
  let c := s.cluster cl
  match c.stream with
  | some x =>
    if x.state ≠ .ended ∨ ¬ c.cmds.isEmpty ∨ s.arrivals.any (fun a => a.msig == some cl) then .next s
    else
      let s := s.setRv cl (refHead x.fork.obj) 3 (some x.status)
      let s := s.updCluster cl fun c =>
        { c with stream := none, seqFault := if x.status = 0 then c.seqFault else seqFaultWord x.fork.ctx x.status x.failPc }
      let s := s.updBeam x.fork.l x.fork.pos fun b => { b with streams := b.streams - 1 }
      let s := if x.status = 0 ∨ x.status = 0x45 then s else s.streamEvent x
      .next (s.settleJoins cl)
  | none => .next s

/-- A stream enters its next clause: fetched at its offset, decoded and checked; a failing check ends the stream with
the cause as STATUS (R216, R218). A fetch that does not translate ends it with a status the spec leaves open.
(DESIGN CHOICE, log entry 35) -/
def State.streamClause (s : State) (cl : Nat) : State :=
  match (s.cluster cl).stream with
  | none => s
  | some x =>
    if x.state ≠ .running ∨ x.th.clause.isSome then s
    else match x.th.issue with
      | none => s
      | some a =>
        let base := s.codeBase x.fork.l x.fork.pos
        let word (o : Nat) : Option Word := s.peekWord x.fork.core x.fork.ctx (base + o)
        if x.th.span < a + 4 then s.streamFault cl 0x01 a
        else match word a with
          | none => s.bump.streamFault cl (1 + (Config.byte s.tick).toNat % 255) a
          | some w =>
            match (List.range (hdrCount w)).mapM fun i => word (a + 4 * (i + 1)) with
            | none =>
              match headerCauses ⟨true, 0, x.th.span, a, w⟩ with
              | [] => s.bump.streamFault cl (1 + (Config.byte s.tick).toNat % 255) a
              | cs => s.streamFault cl (leastCause cs) a
            | some ws =>
              match clauseFail ⟨true, 0, x.th.span, a, w⟩ ws with
              | some (slot, cause) => s.streamFault cl cause (a + 4 * slot)
              | none => s.updCluster cl fun c => { c with stream := c.stream.map fun y =>
                  { y with th := { y.th.setPc 1 (fun _ => BitVec.ofNat 32 (a + 4)) with clause := some ⟨a, w, ws, 0, 1, 1, []⟩, latches := [] } } }

end Sys2Proof.Machine
end

