-- ==== Sys2Proof/Machine/System.lean ====
section
/-!
DEFINITION. Termination of rays and beams (R387) as shared operations; the system instructions BKPT, SVCALL, TRET, TERM
(R389) and LNSEND (R365), LNCLR (R369) as they issue; the end of a slot's stall (R248); translation by the walkers
(R172, R273, R388); the loupe's reports (R258).
-/
namespace Sys2Proof.Machine

/-! ### Termination (R387) -/

/-- A ray whose lanes have all stopped being live (R387): its vpc reads 0xFFFFFFFC, its reservations are lost, it is
inside no handler, holds no clause and waits for nothing but the event of a PARK. -/
def Ray.ended (r : Ray) : Ray :=
  { r with
    th := { r.th with live := 0, vpc := laneTab fun _ => 0xFFFFFFFC#32, clause := none, latches := [] }
    parked := none, rewritten := false, vpcWritten := 0, awaiting := false, resv := [], stall := none
    unresolved := [], adv := false
    waiting := none, readySince := none, starved := false, yieldTo := []
    lantern := { r.lantern with inHandler := false } }

/-- The number of no slot: the sender of a lantern whose ray has gone. -/
def noSlot : Nat := 127

/-- The lanterns that some slots of a core have sent have no sender left that waits for their status (R365, R387). -/
def State.dropSender (s : State) (core : Nat) (ks : List Nat) : State :=
  { s with lnsends := s.lnsends.map fun x => match x.sender with
      | .ray ctx c k => if c = core ∧ ks.contains k then { x with sender := .ray ctx c noSlot } else x
      | _ => x }

/-- Terminates a ray: its clause ends, its quarter pipe and its clause's places in the fork queue are free; what it issued goes on, and
the event of a PARK still to come has ENDED set (R380). -/
def State.killRay (s : State) (core rslot : Nat) : State :=
  match s.ray core rslot with
  | none => s
  | some r =>
    let s := s.updCore core fun c =>
      { c with rays := SMap.put c.rays rslot r.ended
               pipes := c.freePipeOf r.pipe rslot }
    ((((s.leftClause r r.ended).dropPlaces core [rslot]).dropSender core [rslot]).reportEnded core rslot).parkIfDue core rslot

/-- Ends the streams of a beam (R236, R387): a running one with STATUS 0x45, its queued commands discarded; its forks
still in the queue are removed, their objects return to STATE 0 and their FORKs complete. (DEDUCED, log entry 67) -/
def State.killStreams (s : State) (cl l pos : Nat) : State :=
  let c := s.cluster cl
  let mine := c.forks.filter fun f => f.l == l && f.pos == pos
  let s := mine.foldl (fun s f => (s.setRv cl (refHead f.obj) 0 none).completeAnywhere f.core f.op) s
  let s := s.updBeam l pos fun b => { b with streams := b.streams - mine.length }
  let s := s.updCluster cl fun c => { c with forks := c.forks.filter fun f => !(f.l == l && f.pos == pos) }
  match c.stream with
  | some x =>
    if x.fork.l = l ∧ x.fork.pos = pos ∧ x.status = 0 then
      (s.updCluster cl fun c => { c with cmds := [] }).streamFault cl 0x45 (match x.th.clause with | some c => c.pc | none => x.failPc)
    else s
  | none => s

/-- BWAITs of a terminated beam are over, so that a cycle of waits ends with the termination (R335).
(DEDUCED, log entry 38) -/
def State.dropBwaits (s : State) (core l pos : Nat) : State :=
  (s.core core).ops.foldl (fun s o => match o.kind with
    | .bwait _ => if o.l = l ∧ o.pos = pos ∧ !o.done then s.completeOp core o id else s
    | _ => s) s

/-- A beam's result when it is terminated (R387): 2 by a fault, 3 aborted, whatever state it is in. (DEDUCED, log entry 38) -/
def Beam.terminated (b : Beam) (result : Nat) : Beam := { b with result := max b.result result, choice := none, halted := true }

/-- A saved beam terminated (R387): its rays have ended, its replay entries are never issued again, its BWAITs are over, and what
else it issued completes into its record; a store failure that still waits for a slot is reported as it takes one. -/
def Saved.terminated (v : Saved) (result : Nat) : Saved :=
  { v with beam := v.beam.terminated result, rays := v.rays.map fun r => { r.ended with parkReq := false, dueStore := [], dueWb := [] }, replay := []
           ops := v.ops.filter fun o => !o.replayable && (match o.kind with | .bwait _ => false | _ => true) }

/-- The reports still to come of a terminated saved beam's rays are made on the core it last ran on, whose record slots they hold, with
ENDED set (R381, R387). -/
def State.orphanDues (s : State) (v : Saved) : State := v.rays.foldl (fun s r => s.queueDues v.beam.core r) s

/-- Terminates a resident or saved beam (R387). (DEDUCED, log entry 38) -/
def State.termBeam (s : State) (l pos result : Nat) : State :=
  match s.beam l pos with
  | some b =>
    let s := s.updBeam l pos (·.terminated result)
    let s := b.rays.foldl (fun s k => s.killRay b.core k) s
    (s.killStreams b.cluster l pos).dropBwaits b.core l pos
  | none =>
    let s := match SMap.get? s.saved (beamKey l pos) with | some v => s.orphanDues v | none => s
    s.updSaved (beamKey l pos) (·.terminated result)

/-! ### BKPT, SVCALL, TRET, TERM (R389) -/

/-- A system instruction: with no active lane it only passes (R89); with one it has its effect. -/
def systemOp (g : Guard) (size : Nat) (f : State → Nat → Nat → Ray → Mask → State) (s : State) : Out :=
  match s.curRay with
  | none => .fault .noActor
  | some (core, rslot, r) =>
    let act := r.th.active g
    if act = 0 then .next (s.finishSlot ((r.th.advance size).push Latch.zero))
    else .next (f s core rslot r act)

/-- BKPT (R389): the precise trap with cause 0x60 and INFO n. -/
def execBkpt (g : Guard) (n : BitVec 16) (s : State) : Out :=
  systemOp g 2 (fun s _ _ _ act => s.trapCur 0x60 act 0 n.toNat) s

/-- SVCALL (R379, R389): its slot is over, then the ray is parked with cause 0x61 and INFO n, its vpc at the next
clause header; PC is the SVCALL's. -/
def execSvcall (g : Guard) (n : BitVec 16) (s : State) : Out :=
  systemOp g 2 (fun s core rslot r act =>
    let pc := match r.th.clause with | some c => c.pc | none => 0
    let slot := match r.th.clause with | some c => c.next + 1 | none => 0
    (s.finishSlot ((r.th.advance 2).push Latch.zero)).takeTrap core rslot .svcall ⟨0x61, slot, pc, act, 0, n.toNat⟩) s

/-- TRET in a kernel (R389): the precise trap with cause 0x62. The resume microcode's TRET is part of BEAM_RESUME. -/
def execTret (g : Guard) (s : State) : Out :=
  systemOp g 2 (fun s _ _ _ act => s.trapCur 0x62 act 0 0) s

/-- TERM.RAY (R387, R389): the whole ray ends, whichever lanes are active. (DEDUCED, log entry 39) -/
def execTermRay (g : Guard) (s : State) : Out :=
  systemOp g 2 (fun s core rslot r _ => (s.finishSlot ((r.th.advance 2).push Latch.zero)).killRay core rslot) s

/-- TERM.BEAM (R387, R389). -/
def execTermBeam (g : Guard) (s : State) : Out :=
  systemOp g 2 (fun s _ _ r _ => (s.finishSlot ((r.th.advance 2).push Latch.zero)).termBeam r.l r.pos 2) s

/-! ### LNSEND and LNCLR -/

/-- LNSEND (R365): a reserved descriptor bit raises cause 0x35; else the send goes out and the slot waits for the
lantern unit's status, which is written once it has come. -/
def execLnsend (g : Guard) (d a b : Opnd) (s : State) : Out :=
  match s.curRay with
  | none => .fault .noActor
  | some (core, rslot, r) =>
    let t := r.th
    let act := t.active g
    match s.tokenWait (.lnsend g d a b) with
    | some q => .next (s.stallSlot (.token q))
    | none =>
      match lowest act with
      | none => .next (s.finishSlot ((t.deliver d false 0 (fun _ => 0) fun _ => false).advance 2))
      | some k0 =>
        match r.stall with
        | some (.answered st) =>
          .next (s.finishSlot ((t.deliver d false act (fun _ => BitVec.ofNat 64 st) fun _ => false).advance 2))
        | some .lnsend => .next s
        | _ =>
          let x := t.rd64 false a k0
          if lanesWhere act (fun k => t.marked true a k || t.marked true b k) ≠ 0 then .next (s.trapCur causeDomain act 0 0)
          else if bits x 63 37 ≠ 0 then .next (s.trapCur 0x35 act 0 0)
          else
            let s := s.stallSlot .lnsend
            .next { s with lnsends := s.lnsends ++ [⟨.ray (s.ctxOf r.l) core rslot, x, t.rd64 false b k0⟩] }

/-- The record of a lantern vector (R364). -/
def Ctx.vec (c : Ctx) (v : Nat) : Vec := SMap.get c.vecs ⟨0, 0, false⟩ v

/-- LNCLR (R369): a vector above 63 raises cause 0x35; s(d) and s(d + 1) take payload and count, and the vector's
pending bit, count and payload become 0. Of the two values written the latch takes the first, the payload's: R26 and R369 name
none. (DESIGN CHOICE, log entry 89) -/
def execLnclr (g : Guard) (d a : Opnd) (s : State) : Out :=
  match s.curRay with
  | none => .fault .noActor
  | some (_, _, r) =>
    let t := r.th
    let act := t.active g
    let n := scalarOf d
    match s.tokenWait (.lnclr g d a), r.pendingIn [n, n + 1] with
    | some q, _ | none, some q => .next (s.stallSlot (.token q))
    | none, none =>
      match lowest act with
      | none => .next (s.finishSlot ((t.deliver d true 0 (fun _ => 0) fun _ => false).advance 2))
      | some k0 =>
        let v := (t.rd32 a k0).toNat
        if lanesWhere act (anyMarked [a] t) ≠ 0 then .next (s.trapCur causeDomain act 0 0)
        else if 63 < v then .next (s.trapCur 0x35 act 0 0)
        else
          let ctx := s.ctxOf r.l
          let c? := SMap.get? s.ctxs ctx
          let pend := match c? with | some c => bit c.lnpend v | none => false
          let x := match c? with | some c => c.vec v | none => ⟨0, 0, false⟩
          let w1 : DWord := if pend then x.payload else 0
          let w2 : DWord := BitVec.ofNat 64 (b2n pend * 2 ^ 63 + v * 2 ^ 8 + x.count % 256)
          let s := s.updCtx ctx fun c =>
            { c with lnpend := c.lnpend &&& ~~~(BitVec.ofNat 64 (2 ^ v)), vecs := SMap.del c.vecs v }
          let t := ((t.setS n act fun _ => w1).setS (n + 1) act fun _ => w2).push ⟨laneTab fun _ => w1, 0⟩
          .next (s.finishSlot (t.advance 2))

/-! ### The end of a stall (R248) -/

/-- The instruction at the slot a ray stands before. -/
def Ray.heldInstr (r : Ray) : Option Instr :=
  match r.th.clause with
  | some c => match decode (c.slots.drop c.next) with | .ok (i, _) => some i | .error _ => none
  | none => none

/-- WAITC.W's condition holds in every active lane (R200). -/
def Ray.waitcOver (r : Ray) : Bool :=
  match r.heldInstr with
  | some (.waitc g _ a b _) => lanesWhere (r.th.active g) (fun k => !waitcMet (r.th.rd64 false a k) (r.th.rd64 false b k)) == 0
  | _ => true

/-- What a slot waits for has come. -/
def State.stallOver (s : State) (core rslot : Nat) (r : Ray) : Bool :=
  match r.stall with
  | none => false
  | some (.token q) => !r.pend.contains q
  | some .waitc => r.waitcOver
  | some .drain => match r.heldInstr with
    | some (.drainnt _) => !(s.core core).ntLeft rslot
    | _ => ((s.core core).oldestUnchecked rslot).isNone 
  | some .copyRoom => decide (s.copies core < 16)
  | some .recordSlots => decide ((s.core core).recs.length < 16)
  | some .walk | some .lnsend | some (.answered _) => false

/-- SLOT_STALL_END (R248): what the stalled slot waits for has come, and it goes on. A walk's end and a lantern's status
end their stalls themselves. -/
def execSlotStallEnd (core rslot : Nat) (s : State) : Out :=
  match s.ray core rslot with
  | some r => if s.stallOver core rslot r then .next (s.setRay core rslot { r with stall := none }) else .next s
  | none => .next s

/-! ### Translation (R172, R273, R388) -/

/-- The ray that waits for a walk goes on. -/
def State.endWalk (s : State) (q : WalkReq) (unresolved : List Nat) : State :=
  s.updRay q.core q.rslot fun r =>
    if r.stall = some .walk then { r with stall := none, unresolved := unresolved ++ r.unresolved } else r

/-- The event of a translation fault (R380, R388): its ray's, with ENDED set where that ray has ended or left its slot. -/
def State.walkEvent (s : State) (q : WalkReq) : BitVec 256 :=
  match s.ray q.core q.rslot with
  | some r =>
    if r.stall = some .walk ∨ r.th.live = 0 then
      eventRec q.ctx q.rslot r.rayId r.role (r.th.live == 0) 5 0 0 0 ((r.th.issue).getD 0) 0 q.va
    else eventRec q.ctx q.rslot 0 0 true 5 0 0 0 0 0 q.va
  | none => eventRec q.ctx q.rslot 0 0 true 5 0 0 0 0 0 q.va

/-- One walk: the TLB is filled and the slot goes on, or the core stalls with the event of KIND 0x5, whatever has become of its
ray (R172, R380, R388). -/
def State.serveWalk (s : State) (q : WalkReq) : State :=
  match s.walk q.ctx q.va with
  | some e => ((s.updCore q.core fun c => { (c.tlbAdd e) with xfault := none })).endWalk q []
  | none => (s.updCore q.core fun c => { c with xfault := some q }).queueEvent q.core (s.walkEvent q)

/-- PAGE_WALK (R273): a walker of a die serves the miss that came first, of those whose core has no fault outstanding. -/
def execPageWalk (die : Nat) (s : State) : Out :=
  let qs := SMap.get s.walks [] die
  match qs.find? fun q => (s.core q.core).xfault.isNone with
  | none => .next s
  | some q => .next ({ s with walks := SMap.put s.walks die (qs.erase q) }.serveWalk q)

/-! ### The loupe (R256 to R258) -/

/-- The loupe's record (R258). -/
def loupeRec (parked : Mask) (waitAddr issue kind ray role bar core : Nat) : Nat :=
  parked.toNat * 2 ^ 96 + waitAddr * 2 ^ 64 + issue * 2 ^ 32 + kind * 2 ^ 28 + ray % 32 * 2 ^ 21 + role % 4 * 2 ^ 19
    + bar % 8 * 2 ^ 16 + core % 1024

/-- Nothing that R390 puts before a loupe report is due at this boundary. -/
def State.loupeTurn (s : State) (core rslot : Nat) (r : Ray) : Bool :=
  r.parked.isNone && r.th.clause.isNone && r.th.live != 0 && !r.reportDue &&
    !(s.ready core rslot && s.entryTrap core r)

/-- Parks a ray by its loupe and queues the event of KIND 0x4. -/
def State.loupePark (s : State) (core rslot : Nat) (r : Ray) (detail : Nat) : State :=
  (s.setRay core rslot { r with parked := some .loupe }).queueEvent core
    (eventRec (s.ctxOf r.l) rslot r.rayId r.role false 4 0 0 0 ((r.th.issue).getD 0) 0 detail)

/-- LOUPE_FRONTIER_REPORT (R258). -/
def execLoupeFrontierReport (core rslot : Nat) (s : State) : Out :=
  match s.ray core rslot with
  | none => .next s
  | some r =>
    if s.loupeTurn core rslot r && s.frontierDue r then
      let parked := r.th.live &&& ~~~r.lastEntered
      let least := (lanesOf parked).foldl (fun m k => min m (r.th.pcOf k).toNat) 0xFFFFFFFF
      .next (s.loupePark core rslot r (loupeRec parked least ((r.th.issue).getD 0) 1 r.rayId r.role 0 core))
    else .next s

/-- LOUPE_WAIT_REPORT (R258). -/
def execLoupeWaitReport (core rslot : Nat) (s : State) : Out :=
  match s.ray core rslot with
  | none => .next s
  | some r =>
    match r.waiting with
    | some x =>
      if s.loupeTurn core rslot r && s.waitDue r && !s.frontierDue r then
        let kind := match x.kind with | .barrier _ => 2 | .calendar => 3 | .fifo => 4 | .join => 5
        let bar := match x.kind with | .barrier b => b | _ => 0
        .next (s.loupePark core rslot r (loupeRec 0 0 ((r.th.issue).getD 0) kind r.rayId r.role bar core))
      else .next s
    | none => .next s

end Sys2Proof.Machine
end

