-- ==== Sys2Proof/Machine/Banks.lean ====
section
/-!
DEFINITION. Bank modes (R262 to R269): the SELECT and SWITCH commands as rows of their own, the steps of an accepted
switch, and the banks the dispatcher takes and returns.
-/
namespace Sys2Proof.Machine

/-- BANKMODE_SELECT (R263): a SELECT command sets the issuing ray's bank selector and nothing else. -/
def execBankmodeSelect (cmd : DWord) (s : State) : Out :=
  match s.curRay with
  | none => .fault .noActor
  | some (core, rslot, r) =>
    if bits cmd 63 62 = 0 then .next (s.setRay core rslot { r with bankSel := bits cmd 5 0 }) else .next s

/-- BANKMODE_SWITCH (R263, R265): a SWITCH command is refused with cause 0x35, waits for its pending token (R20), or is
accepted or refused for all its banks together. -/
def execBankmodeSwitch (cmd : DWord) (s : State) : Out :=
  match s.curRay with
  | none => .fault .noActor
  | some (core, rslot, r) =>
    if bits cmd 63 62 = 0 then .next s
    else if badBankCmd cmd then .next (s.trapCur 0x35 (r.th.entering &&& r.th.live) 0 0)
    else if r.pend.contains (bits cmd 44 40) then .next (s.stallSlot (.token (bits cmd 44 40)))
    else .next (s.switchBanks core rslot r cmd)

/-! ### The steps of a switch (R266) -/

/-- An operation reads or writes a bank. (DEDUCED, log entry 82) -/
def Op.touches (o : Op) (b : Nat) : Bool :=
  (o.ranges.any fun x => rangesMeet x (0, b * 0x20000, 0x20000)) || o.place.contains (.fifo b) ||
  (match o.kind with
    | .copy c => c.accepted && ((spaceOf c.tile == 1 && (match c.kind with | .mcast .. => false | _ => true) &&
        rangesMeet (0, bits c.tile 22 0, 512 * max 1 c.nch) (0, b * 0x20000, 0x20000)) ||
        (match c.lay with
          | some lay => decide (2 ^ 56 ≤ lay.base) && (List.range c.nch).any fun j =>
              ((boxMap lay c.desc).addrs j).any fun a => a % 2 ^ 56 / 0x20000 == b
          | none => false))
    | _ => false)

/-- A multicast writes a bank of a receiver's cluster: its tile, but for what lands in the image of a saved beam's window (R198, R359). -/
def State.mcastTouches (s : State) (cl b : Nat) (o : Op) : Bool :=
  match o.kind with
  | .copy c =>
    let ofs := bits c.tile 22 0
    let n := 512 * max 1 c.nch
    (match c.kind with | .mcast .. => c.accepted && !o.isOver | _ => false) && c.recv.any fun (l, pos) =>
      match s.beam l pos, SMap.get? s.saved (beamKey l pos) with
      | some x, _ => x.cluster == cl && rangesMeet (0, ofs, n) (0, b * 0x20000, 0x20000)
      | none, some v =>
        let past := v.beam.winOfs + v.beam.winSize
        v.beam.cluster == cl && rangesMeet (0, past, ofs + n - past) (0, b * 0x20000, 0x20000)
      | none, none => false
  | _ => false

/-- An operation accepted before SW that touches the bank has not completed: tile commands still queued, a waiting MWAIT's flag
and the objects of forks whose streams have not ended are such too, multicasts of any cluster into this one (R198), and operations of
saved beams outside their windows (R358). (DEDUCED, log entry 82) -/
def State.bankBusy (s : State) (cl b : Nat) : Bool :=
  !(s.cluster cl).cmds.isEmpty ||
  (match (s.cluster cl).stream with
    | some x => refHead x.fork.obj / 0x20000 == b || (match x.state with | .mwait f _ _ => f / 0x20000 == b | _ => false)
    | none => false) ||
  (s.cluster cl).forks.any (fun f => refHead f.obj / 0x20000 == b) ||
  ((List.range 4).any fun j => (s.core (4 * cl + j)).ops.any fun o => !o.isOver && o.touches b) ||
  s.cores.any (fun (_, c) => c.ops.any (s.mcastTouches cl b)) || s.saved.any (fun (_, v) => v.ops.any (s.mcastTouches cl b)) ||
  s.saved.any fun (_, v) => v.beam.cluster == cl && v.ops.any fun o => !o.isOver && !o.replayable && o.touches b &&
    !(decide (v.beam.winOfs < (b + 1) * 0x20000) && decide (b * 0x20000 < v.beam.winOfs + v.beam.winSize))

/-- The cluster cache writes back every dirty sector and invalidates every line (R266). -/
def State.flushCluster (s : State) (cl : Nat) : State :=
  let s := (s.cluster cl).cache.dirtySectors.foldl (fun s sec => (s.wbCluster cl sec).1) s
  s.updCluster cl fun c => { c with cache := Cache.empty }

/-- A reservation is of a scratchpad granule that a range of offsets of a cluster touches. -/
def Granule.within (g : Granule) (cl ofs n : Nat) : Bool :=
  g.scratch && decide (ofs / 64 + cl * 2 ^ 32 ≤ g.number) && decide (g.number < (ofs + n + 63) / 64 + cl * 2 ^ 32)

/-- A ray loses the reservations that a condition names. -/
def Ray.loseIf (r : Ray) (f : Granule → Bool) : Ray :=
  { r with resv := r.resv.map fun x => match x with | some g => if f g then none else some g | none => none }

/-- Reservations of scratchpad granules in a range of offsets are lost (R185). -/
def State.loseScratch (s : State) (cl ofs n : Nat) : State :=
  { s with cores := SMap.mapVals (fun _ c => { c with rays := SMap.mapVals (fun _ r => r.loseIf fun g => g.within cl ofs n) c.rays }) s.cores }

/-- Zeroes a range of scratchpad, with the tag bytes of its granules. -/
def State.zeroScratch (s : State) (cl ofs n : Nat) : State :=
  let s := s.updCluster cl fun c =>
    { c with sram := c.sram.zeroRange ofs n
             gtags := c.gtags.filter fun (g, _) => !(decide (ofs / 512 ≤ g) && decide (g < (ofs + n + 511) / 512)) }
  { s with poison := s.poison.filter fun (u, w) => !(u == cl + 1 && decide (ofs ≤ 8 * w) && decide (8 * w + 8 ≤ ofs + n)) }.loseScratch cl ofs n

/-- The token of a switch ends, in the ray or in the save record of its beam (R265, R359). -/
def State.endSwitchToken (s : State) (w : Switch) : State :=
  match w.tok with
  | none => s
  | some tok =>
    let f (r : Ray) : Ray := { r with
      th := { r.th with s := SMap.put r.th.s tok (switchToken 0) }, pend := r.pend.filter (· != tok) }
    match s.ray w.core w.rslot with
    | some r => if r.l = w.l ∧ r.pos = w.pos then s.setRay w.core w.rslot (f r)
      else s.updSaved (beamKey w.l w.pos) fun v => v.updRay w.rslot f
    | none => s.updSaved (beamKey w.l w.pos) fun v => v.updRay w.rslot f

/-- BANK_SWITCH_STEP (R266): the next bank of a switch, once nothing accepted before SW still touches it: the cluster
cache is written back and invalidated on the way out of or into CACHE, the bank is zeroed, takes its mode and owner, and
SW clears; after the last bank the token ends. -/
def execBankSwitchStep (cl bank : Nat) (s : State) : Out :=
  match (s.cluster cl).switches.find? fun w => w.banks.head? == some bank with
  | none => .next s
  | some w =>
    if s.bankBusy cl bank then .next s
    else
      let old := ((s.cluster cl).bank bank).mode
      let s := if old = .cache ∨ w.mode = .cache then s.flushCluster cl else s
      let s := s.zeroScratch cl (bank * 0x20000) 0x20000
      let w' := { w with banks := w.banks.drop 1 }
      let s := s.updCluster cl fun c =>
        { (c.setBank bank ⟨w.mode, if w.mode = .cache then none else w.ctx, w.win && w.mode == .scratch, false, 0, 0, 0⟩) with
          switches := (c.switches.map fun x => if x = w then w' else x).filter fun x => !x.banks.isEmpty }
      .next (if w'.banks.isEmpty then s.endSwitchToken w else s)

/-- A window lies in a bank. -/
def Cluster.windowIn (c : Cluster) (b : Nat) : Bool :=
  c.windows.any fun w => decide (w.ofs < (b + 1) * 0x20000) && decide (b * 0x20000 < w.ofs + w.size)

/-- A switch of a bank by no ray: the dispatcher's, or of a context that ends (R268, R269). -/
def State.switchAlone (s : State) (cl bank : Nat) (m : BankMode) (win : Bool) : State :=
  s.updCluster cl fun c =>
    { (c.setBank bank { c.bank bank with sw := true }) with
      switches := c.switches ++ [⟨4 * cl, 64, 0, 0, none, m, none, win, [bank]⟩] }

/-- DISPATCHER_BANK_TAKE (R268): the dispatcher begins to switch a CACHE bank to window use, at least 8 staying in CACHE
mode, or returns a WIN bank in which no window lies. -/
def execDispatcherBankTake (cl bank : Nat) (s : State) : Out :=
  let c := s.cluster cl
  let k := c.bank bank
  if k.sw || decide (64 ≤ bank) then .next s
  else if k.mode = .cache then
    if 8 ≤ c.cacheAfter [bank] .scratch then .next (s.switchAlone cl bank .scratch true) else .next s
  else if k.win && !c.windowIn bank then .next (s.switchAlone cl bank .cache false)
  else .next s

end Sys2Proof.Machine
end

