-- ==== Sys2Proof/Machine/Queues.lean ====
section
/-!
DEFINITION. Queues, packets, signals and launches (R336 to R349): doorbells and the header poll, the taking of packets,
barrier packets and signal operations, SPAWN, the begin of a launch with its checks (R293 to R295, R311 to R314, R339,
R340, R344), the aggregator, and the end of an entry (R332) and of a launch (R344) as shared operations.
-/
namespace Sys2Proof.Machine

/-! ### The device's own writes -/

/-- A write of the device for a context at system scope: completion words, reports, status words, signals. Unmapped or
read-only bytes are not written, nor host memory after a loss of trust (R401). -/
def State.devWrite (s : State) (ctx va : Nat) (bs : List Byte) : State :=
  bs.zipIdx.foldl (fun s (b, i) =>
    match s.walk ctx (va + i) with
    | some e => if e.w && !(e.host && s.cutOff ctx) then s.storeSystem (e.key (va + i)) [b] else s
    | none => s) s

/-- Host memory as a function reads and writes it. (DEDUCED, log entry 44) -/
def State.hostRead (s : State) (a n : Nat) : List Byte := s.readSystem (physKey true a) n
def State.hostWrite (s : State) (a : Nat) (bs : List Byte) : State := s.storeSystem (physKey true a) bs

/-! ### Signals (R342) -/

/-- A signal as it stands; none where it cannot be read. -/
def State.signal (s : State) (ctx va : Nat) : Option Nat := (s.readVirt ctx va 8).map leNat

/-- Changes a signal; address 0 is none. One that does not translate, or is read-only, stays as it is, and what changes it goes on.
(DESIGN CHOICE, log entry 129) -/
def State.setSignal (s : State) (ctx va : Nat) (f : Nat → Nat) : State :=
  if va = 0 then s
  else match s.signal ctx va with
    | some v => s.devWrite ctx va (leBytes 8 (f v % 2 ^ 64))
    | none => s

/-- A normal completion subtracts 1; an abort sets bit 63. -/
def sigDec (v : Nat) : Nat := v + 2 ^ 64 - 1
def sigAbort (v : Nat) : Nat := v ||| 2 ^ 63

/-- The operation of a signal packet (R342). -/
def sigOp (op value v : Nat) : Nat :=
  match op with
  | 0 => v + value
  | 1 => v + 2 ^ 64 - value
  | 2 => value
  | _ => sigAbort v

/-! ### Queues (R337, R338) -/

def State.updQueue (s : State) (q : Nat) (f : Queue → Queue) : State := { s with queues := SMap.upd s.queues q f }
/-- The size of the ring. -/
def Queue.size (x : Queue) : Nat := 2 ^ x.log2n
/-- The address of packet k. -/
def Queue.at_ (x : Queue) (k : Nat) : Nat := x.base + 64 * (k % x.size)

/-- The device writes WR, RD and HALT back to the record in host memory (R337). -/
def State.syncQueue (s : State) (q : Nat) : State :=
  match SMap.get? s.queues q with
  | none => s
  | some x =>
    if s.cutOff x.ctx then s
    else ((s.hostWrite (x.addr + 24) (leBytes 8 x.wr)).hostWrite (x.addr + 16) (leBytes 8 x.rd)).hostWrite (x.addr + 9)
      [if x.halt then 1 else 0]

/-- The device reads the header of packet RD (R338). -/
def State.readHeader (s : State) (q : Nat) : State :=
  match SMap.get? s.queues q with
  | none => s
  | some x =>
    let h := if x.rd < x.wr then (match s.readVirt x.ctx (x.at_ x.rd) 8 with | some bs => leNat bs | none => 0) else 0
    s.updQueue q fun x => { x with header := BitVec.ofNat 64 h }

/-- WR is published (R346). -/
def State.publishWr (s : State) (q wr : Nat) : State :=
  (s.updQueue q fun x => { x with wr := wr, published := x.published ++ [(wr, s.clock)] }).syncQueue q

/-- QDOOR (R397): the largest value rung, unless it is below WR or beyond the ring, or the queue is a device queue or
of another function. The header is read again at once (R338). (DEDUCED, log entry 45) -/
def execQdoor (fn q : Nat) (wr : DWord) (s : State) : Out :=
  match SMap.get? s.queues q with
  | none => .next s
  | some x =>
    let owner := match SMap.get? s.ctxs x.ctx with | some c => c.fn == fn | none => false
    if !s.answers fn || x.dev || x.destroyed || !owner || decide (wr.toNat < x.wr) || decide (x.rd + x.size < wr.toNat) then .next s
    else .next (((if x.wr < wr.toNat then s.publishWr q wr.toNat else s)).readHeader q)

/-- QUEUE_HEADER_POLL (R338): the header of a packet not yet written is read again. -/
def execQueueHeaderPoll (q : Nat) (s : State) : Out := .next (s.readHeader q)

/-! ### The end of packets, entries and launches -/

/-- A queue's vector is raised (R399). -/
def State.raiseQueue (s : State) (q : Nat) : State :=
  match SMap.get? s.queues q with
  | some x => match SMap.get? s.ctxs x.ctx with
    | some c => if x.vector < 3 then s else s.raiseMsi c.fn x.vector
    | none => s
  | none => s

/-- A packet of a queue has completed or aborted: one with B = 1 lets the queue go on, or halts it if it aborted (R343, R345). -/
def State.packetOver (s : State) (q : Nat) (b aborted : Bool) : State :=
  let s := if b then (s.updQueue q fun x => { x with blocked := false, halt := x.halt || aborted }).syncQueue q else s
  if aborted then s.raiseQueue q else s

/-- A completion word (R332). -/
def complWord (result cause retry core : Nat) : Nat :=
  2 ^ 63 + result % 4 * 2 ^ 61 + cause % 256 * 2 ^ 48 + retry % 16 * 2 ^ 44 + core % 1024 * 2 ^ 32

/-- A beam's window goes back to the dispatcher (R261); a gang's reservation too (R329). -/
def State.freeWindow (s : State) (l pos : Nat) : State :=
  { s with clusters := SMap.mapVals (fun _ c => { c with windows := c.windows.filter fun w => !(w.l == l && w.pos == pos) }) s.clusters }

/-- A context's room for a save record is given back (R355). -/
def State.freeRoom (s : State) (ctx : Nat) (room : Option Nat) : State :=
  match room with
  | some b => s.updCtx ctx fun c => { c with rooms := c.rooms.filter fun x => x.1 != b }
  | none => s

/-- The completion words of a launch whose entries are FINAL (R332). -/
def State.writeCompl (s : State) (x : Launch) (es : SMap Entry) : State :=
  if x.compl = 0 then s
  else es.foldl (fun s (pos, e) => s.devWrite x.ctx (x.compl + 8 * pos) (leBytes 8 (complWord e.result e.cause e.retry e.core))) s

/-- An entry becomes FINAL (R317, R332): its completion word is written, that of a merged child when every child of the merge has
completed (R349), and it holds nothing more. -/
def State.finalEntry (s : State) (l pos : Nat) (e : Entry) (result cause core : Nat) : State :=
  match s.launch l with
  | none => s
  | some x =>
    let e' := { e with
      state := .final, result := result, cause := cause, core := core, finalClock := s.clock, data := [], slot := none
      buffer := none, winSize := 0, room := none }
    let s := (s.freeWindow l pos).freeRoom x.ctx e.room
    let s := if x.merge.isEmpty then s.writeCompl x [(pos, e')] else s
    s.updLaunch l fun x => { x with entries := SMap.put x.entries pos e' }

/-- The status word of a launch (R344). -/
def statusWord (code notNormal : Nat) : Nat := 2 ^ 63 + code % 256 * 2 ^ 48 + notNormal % 2 ^ 32

/-! ### Packets (R339 to R344) -/

/-- An address field that is misaligned or outside space 0x00. -/
def badAddr (a align : Nat) : Bool := a % align != 0 || decide (2 ^ 56 ≤ a)

/-- A launch packet breaks its map or R344: a reserved field, NENT 0, an address that breaks its alignment, or a signal
outside space 0x00 (R341). -/
def launchBad (w : Nat) : Bool :=
  nbits w 31 9 != 0 || nbits w 319 289 != 0 || nbits w 287 256 == 0 || nbits w 127 64 % 256 != 0 ||
    nbits w 191 128 % 64 != 0 || nbits w 255 192 % 8 != 0 || nbits w 383 320 % 8 != 0 ||
    badAddr (nbits w 447 384) 8 || nbits w 511 448 % 64 != 0

/-- An auxiliary record breaks its map. -/
def auxBad (w : Nat) (hsrc : Bool) : Bool :=
  nbits w 511 320 != 0 || nbits w 63 0 % 2 != 0 || nbits w 127 64 % 64 != 0 || nbits w 191 128 % 32 != 0 ||
    nbits w 255 192 % 16384 != 0 || nbits w 319 256 % 8 != 0 || (hsrc && nbits w 255 192 == 0)

/-- A header of no kernel, before a launch has read its own. -/
def Header.none : Header := ⟨[], 0, false, 1, 0, 0, 0, 0, 0, []⟩

/-- The auxiliary record at an address: 0 at address 0, none where it cannot be read, for want of a translation or by an
uncorrectable error of memory (R344). -/
def State.readAux (s : State) (ctx aux : Nat) : State × Option Nat :=
  if aux = 0 then (s, some 0)
  else match s.keyOf ctx aux, s.readVirt ctx aux 64 with
    | some k, some bs =>
      let (s, bad) := s.meetHbm k 64
      (s, if bad then none else some (leNat bs))
    | _, _ => (s, none)

/-- The launch of a packet, with its auxiliary record as read when the packet is taken (R344). -/
def State.newLaunch (s : State) (ctx q : Nat) (x : Queue) (w : Nat) (rec_ : Option Nat) : Launch :=
  let aux := nbits w 511 448
  let hsrc := nbits w 288 288 == 1
  let a := rec_.getD 0
  let c := SMap.get? s.ctxs ctx
  { ctx := ctx, queue := q, b := nbits w 8 8 == 1, child := x.dev, takenAt := s.clock, pri := x.pri, begun := false, isOver := false
    serial := 0, kernel := nbits w 127 64, params := BitVec.ofNat 64 (nbits w 191 128), plist := nbits w 255 192, nent := nbits w 287 256
    compl := nbits w 383 320, signal := nbits w 447 384, hsrc := hsrc, aux := aux
    bad := launchBad w || rec_.isNone || auxBad a hsrc || (match c with | some c => decide (c.maxPri < x.pri) | none => true)
    pmap := nbits a 63 0, thrb := nbits a 127 64, report := nbits a 191 128, srcBase := nbits a 255 192
    status := if nbits a 319 256 % 8 = 0 then nbits a 319 256 else 0
    header := Header.none, regions := [], nextPos := 0, entries := [], merge := [], acquired := [], coresUsed := [] }

/-- The five signals a barrier packet names, SIG0 first. -/
def barrierSigs (w : Nat) : List Nat := (List.range 5).map fun j => nbits w (128 + 64 * j + 63) (128 + 64 * j)

/-- A barrier packet breaks its map (R341). -/
def barrierBad (w : Nat) : Bool :=
  nbits w 31 9 != 0 || nbits w 127 64 != 0 || badAddr (nbits w 511 448) 8 || (barrierSigs w).any fun a => badAddr a 8

/-- A signal-operation packet breaks its map (R341). -/
def signalBad (w : Nat) : Bool :=
  nbits w 31 9 != 0 || nbits w 127 64 == 0 || badAddr (nbits w 127 64) 8 || nbits w 255 195 != 0 ||
    decide (3 < nbits w 194 192) || badAddr (nbits w 319 256) 8 || nbits w 511 320 != 0

/-- What an evaluation of a barrier packet comes to (R343): each signal is read once, SIG0 first. -/
inductive Verdict where
  | waits | done | aborts
  deriving DecidableEq, Repr

/-- The signals a barrier packet names. -/
def BarrierPkt.sigs (p : BarrierPkt) : List Nat := (barrierSigs (leNat p.bytes)).filter (· != 0)

/-- The values that an evaluation has read once it has read n signals more; a signal that cannot be read keeps the packet waiting.
(DEDUCED, log entry 47) -/
def State.readSigs (s : State) (ctx : Nat) (p : BarrierPkt) (n : Nat) : List Nat :=
  p.reads ++ ((p.sigs.drop p.reads.length).take n).map fun a => (s.signal ctx a).getD 1

/-- The verdict on the values read: any negative one aborts, all 0 completes. -/
def verdictOf (vs : List Nat) : Verdict :=
  if vs.any (·.testBit 63) then .aborts else if vs.all (· == 0) then .done else .waits

/-- The rest of an evaluation, read now (R343). -/
def State.evaluate (s : State) (ctx : Nat) (p : BarrierPkt) : Verdict := verdictOf (s.readSigs ctx p 5)

/-- A barrier packet that completes or aborts (R343). -/
def State.endBarrier (s : State) (q ctx : Nat) (p : BarrierPkt) (aborts : Bool) : State :=
  let w := leNat p.bytes
  let s := s.updQueue q fun x => { x with barriers := x.barriers.erase p }
  (s.setSignal ctx (nbits w 511 448) (if aborts then sigAbort else sigDec)).packetOver q (nbits w 8 8 == 1) aborts

/-- The first waiting barrier packet whose evaluation, begun now, does not keep it waiting. -/
def State.overBarrier (s : State) : Option (Nat × Nat × BarrierPkt × Verdict) :=
  s.queues.findSome? fun (q, x) => x.barriers.findSome? fun p =>
    match s.evaluate x.ctx { p with reads := [] } with
    | .waits => none
    | v => some (q, x.ctx, p, v)

/-- After a change that the device has made to a signal, the waiting barrier packets are evaluated at once, and those that follow
from one another's signals (R343). -/
def State.settleBarriers : Nat → State → State
  | 0, s => s
  | n + 1, s =>
    match s.overBarrier with
    | none => s
    | some (q, ctx, p, v) => (s.endBarrier q ctx p (v == .aborts)).settleBarriers n

/-- The barrier packets are evaluated after a change that the device has made to a signal (R343). -/
def State.signalled (s : State) : State := s.settleBarriers (s.queues.foldl (fun n (_, x) => n + x.barriers.length) 0)

/-- A turn of a packet's own evaluation, which reads some or all of the signals it has not yet read: another party may change them
meanwhile (R343). (DESIGN CHOICE, log entry 114) -/
def State.evaluateSome (s : State) (q ctx : Nat) (p : BarrierPkt) : State :=
  if !((SMap.get? s.queues q).any fun x => x.barriers.contains p) then s
  else
  let left := p.sigs.length - p.reads.length
  let n := if left ≤ 1 then left else Config.pick s.tick % left
  let put (vs : List Nat) : State :=
    s.bump.updQueue q fun x => { x with barriers := x.barriers.map fun y => if y = p then { p with reads := vs } else y }
  if left ≤ 1 ∨ n = 0 then
    match s.evaluate ctx p with
    | .waits => put []
    | v => (s.bump.endBarrier q ctx p (v == .aborts)).signalled
  else put (s.readSigs ctx p n)

/-- A packet that aborts as it is taken: bit 63 of its completion signal (R343); a misaligned one, or one outside space 0x00, is not
changed. (DESIGN CHOICE, log entry 129) -/
def State.abortPacket (s : State) (q ctx sig : Nat) (b : Bool) : State :=
  ((s.setSignal ctx (if badAddr sig 8 then 0 else sig) sigAbort).packetOver q b true).signalled

/-- A launch ends (R342, R344): the status word, then the change to SIGNAL; codes 0x02 to 0x05 abort the packet (R343). A misaligned
SIGNAL is changed where it stands. (DEDUCED, log entry 48; DESIGN CHOICE, log entry 129) -/
def State.endLaunch (s : State) (l code notNormal : Nat) : State :=
  match s.launch l with
  | none => s
  | some x =>
    let s := if x.status = 0 then s else s.devWrite x.ctx x.status (leBytes 8 (statusWord code notNormal))
    let s := s.setSignal x.ctx x.signal (if code < 2 then sigDec else sigAbort)
    let s := s.updLaunch l fun x => { x with isOver := true }
    let s := s.packetOver x.queue x.b (decide (2 ≤ code))
    (if code < 2 then s.raiseQueue x.queue else s).signalled

/-- What a taken packet starts (R338, R341 to R345). -/
def State.startPacket (s : State) (q : Nat) (x : Queue) (bs : List Byte) : State :=
  let w := leNat bs
  let b := nbits w 8 8 == 1
  match nbits w 7 0 with
  | 1 =>
    let (s, aux) := s.readAux x.ctx (nbits w 511 448)
    let y := s.newLaunch x.ctx q x w aux
    { s with launches := SMap.put s.launches s.nextLaunch y, nextLaunch := s.nextLaunch + 1 }
  | 2 =>
    if barrierBad w then s.abortPacket q x.ctx (nbits w 511 448) b
    else (s.updQueue q fun x => { x with barriers := x.barriers ++ [⟨bs, []⟩] }).signalled
  | 3 =>
    if signalBad w then s.abortPacket q x.ctx (nbits w 319 256) b
    else (((s.setSignal x.ctx (nbits w 127 64) (sigOp (nbits w 194 192) (nbits w 191 128))).signalled.setSignal x.ctx
      (nbits w 319 256) sigDec).packetOver q b false).signalled
  | _ => s.packetOver q b true

/-- A queue has a packet to take. -/
def Queue.takeable (x : Queue) : Bool :=
  decide (x.rd < x.wr) && !x.halt && !x.destroyed && !x.blocked && bits x.header 7 0 != 0

/-- The clock of the publication that covers packet RD (R346). -/
def Queue.publishedAt (x : Queue) : Nat :=
  match x.published.find? fun p => decide (x.rd < p.1) with | some p => p.2 | none => 0

/-- A takeable queue comes before another: by PRI, then by the earlier publication (R346). -/
def Queue.before (x y : Queue) : Bool := decide (y.pri < x.pri) || (x.pri == y.pri && decide (x.publishedAt < y.publishedAt))

/-- PACKET_TAKE (R338, R346): the packet is read, then TYPE := 0x00 and RD := RD + 1 at system scope; it starts. -/
def execPacketTake (q : Nat) (s : State) : Out :=
  match SMap.get? s.queues q with
  | none => .next s
  | some x =>
    if !x.takeable || s.queues.any (fun (k, y) => k != q && y.takeable && y.before x) then .next s
    else match s.readVirt x.ctx (x.at_ x.rd) 64 with
      | none => .next s
      | some bs =>
        let s := s.devWrite x.ctx (x.at_ x.rd) [0]
        let s := (s.updQueue q fun x =>
          { x with rd := x.rd + 1, published := x.published.filter fun p => decide (x.rd + 1 < p.1), blocked := nbits (leNat bs) 8 8 == 1 }).syncQueue q
        .next ((s.startPacket q x bs).readHeader q)

/-- BARRIER_PACKET_EVALUATE (R343): the queue's barrier packets go on reading their signals, and complete, abort or keep waiting. -/
def execBarrierPacketEvaluate (q : Nat) (s : State) : Out :=
  match SMap.get? s.queues q with
  | none => .next s
  | some x => .next (x.barriers.foldl (fun s bs => s.evaluateSome q x.ctx bs) s)

/-! ### SPAWN (R206, R348) -/

/-- SPAWN (R206): each active lane's global address of a packet, aligned to 64. -/
def execSpawn (g : Guard) (d a : Opnd) (dc : BitVec 3) (s : State) : Out :=
  memOp { i := .spawn g d a dc, ea := fun t k => t.rd64 false a k, size := 64, align := 64, reach := ⟨true, false, false, 0⟩
          addrs := [(a, true)], once := false, chks := [], store := false, writes := false, recs := false }
    (some dc.toNat) d (fun _ _ => 0) (fun _ _ => .spawn [] []) s

/-- The device queue of a context. -/
def State.deviceQueue (s : State) (ctx : Nat) : Option (Nat × Queue) :=
  match SMap.get? s.ctxs ctx with
  | some c => match c.dq with
    | some q => (SMap.get? s.queues q).map fun x => (q, x)
    | none => none
  | none => none

/-- A lane's packet is submitted (R344, R348): 0x3 not permitted, 0x2 invalid, 0x1 full, in this order,
or 0x0 and it stands in the queue. A DQ that names no device queue there is gives 0x3, and another context's device queue is taken.
(DESIGN CHOICE, log entry 109) -/
def State.submit (s : State) (ctx : Nat) (bs : List Byte) : State × Nat :=
  match s.deviceQueue ctx, SMap.get? s.ctxs ctx with
  | some (q, x), some c =>
    let w := leNat bs
    let (s, aux) := s.readAux ctx (nbits w 511 448)
    let bad := nbits w 7 0 != 1 || launchBad w || (match aux with | some r => auxBad r (nbits w 288 288 == 1) | none => true)
    if x.destroyed || !x.dev || decide (c.maxPri < x.pri) then (s, 3)
    else if bad then (s, 2)
    else if x.size ≤ x.wr - x.rd then (s, 1)
    else (((s.devWrite ctx (x.at_ x.wr) bs).publishWr q (x.wr + 1)).readHeader q, 0)
  | _, _ => (s, 3)

/-- SPAWN_COMPLETE (R348): the lanes' packets are taken or refused in ascending lane order and the statuses written. -/
def execSpawnComplete (core op : Nat) (s : State) : Out :=
  match (s.core core).op op with
  | none => .next s
  | some o =>
    match o.kind with
    | .spawn .. =>
      if o.done || !(s.core core).mayPerform o then .next s
      else
        let (s, st) := (List.range 32).foldl (fun (s, st) k =>
          match bit o.act k, o.place.getD k .off with
          | true, .phys h a _ =>
            let (s, v) := s.submit o.ctx ((List.range 64).map fun i => s.l1Byte core (physKey h a + i))
            (s, st ++ [v])
          | _, _ => (s, st ++ [0])) (s, ([] : List Nat))
        .next (s.completeOp core o fun t => t.setLoad o.d 4 o.act (fun k => BitVec.ofNat 128 (st.getD k 0)) false)
    | _ => .next s

/-! ### The kernel header (R311 to R314) -/

/-- A step word breaks R313. -/
def stepBad (w : Nat) : Bool :=
  nbits w 63 18 != 0 || nbits w 7 4 != 0 ||
  (match nbits w 3 0 with
    | 1 => decide (7 < nbits w 11 8) || nbits w 17 12 != 0
    | 2 => nbits w 10 8 == 0 || nbits w 10 8 == 7 || nbits w 17 16 == 3
    | 3 => nbits w 9 8 == 3 || nbits w 17 11 != 0
    | 4 => nbits w 9 8 == 3 || nbits w 17 11 != 0
    | _ => true)

/-- A selector's entry breaks R313: a bad step, or a step after a zero word. -/
def entryBad : List Nat → Bool
  | [] => false
  | w :: t => if w = 0 then t.any (· != 0) else stepBad w || entryBad t

/-- A role record breaks R312 or R314. -/
def roleBad (codeSize w : Nat) : Bool :=
  nbits w 63 45 != 0 || nbits w 44 38 < 8 || decide (96 < nbits w 44 38) || nbits w 44 38 % 8 != 0 ||
    decide (codeSize ≤ nbits w 31 0) || nbits w 31 0 % 4 != 0

/-- The registers a ray of a role occupies (R33). -/
def rayRegs (depth : Nat) (r : RoleRec) : Nat := roundUp (r.vregs + depth) 8
def Header.rays (h : Header) : Nat := h.roles.foldl (fun n r => n + r.rays) 0
def Header.regs (h : Header) : Nat := h.roles.foldl (fun n r => n + r.rays * rayRegs h.depth r) 0

/-- The binding table: four step words per selector; none where it cannot be read. -/
def State.bindings (s : State) (ctx at_ nsel : Nat) : Option (List (List DWord)) :=
  (List.range nsel).mapM fun j => (s.readVirt ctx (at_ + 32 * j) 32).map fun bs =>
    (List.range 4).map fun i => BitVec.ofNat 64 (leNat ((bs.drop (8 * i)).take 8))

/-- The header of a kernel as read and checked (R314); none where it is refused. (DEDUCED, log entry 47) -/
def State.kernelHeader (s : State) (ctx kernel : Nat) : Option Header :=
  match (s.readVirt ctx kernel 64).map leNat with
  | none => none
  | some w =>
    let n := nbits w 7 6 + 1
    let role (j : Nat) : Nat := nbits w (256 + 64 * j + 63) (256 + 64 * j)
    let codeSize := nbits w 191 160
    let nsel := nbits w 223 216
    let mode := nbits w 95 64
    if nbits w 63 13 ≠ 0 ∨ nbits w 12 9 = 0 ∨ 8 < nbits w 12 9 ∨ 32 < nbits w 5 0 ∨ 2 ^ 7 ≤ mode ∨ 4 < mode % 8 ∨
        nbits w 127 96 = 0 ∨ nbits w 159 128 % 256 ≠ 0 ∨ nbits w 255 224 % 8 ≠ 0 ∨ (nsel = 0 ∧ nbits w 255 224 ≠ 0) ∨
        (List.range 4).any (fun j => if j < n then roleBad codeSize (role j) else role j != 0) then none
    else match s.bindings ctx (kernel + nbits w 255 224) nsel with
      | none => none
      | some bs =>
        let h : Header :=
          { roles := (List.range n).map fun j => ⟨nbits (role j) 31 0, nbits (role j) 37 32 + 1, nbits (role j) 44 38⟩
            depth := nbits w 5 0, idem := nbits w 8 8 == 1, gang := nbits w 12 9, mode := BitVec.ofNat 32 mode
            expect := nbits w 127 96, codeOfs := nbits w 159 128, codeSize := codeSize, nsel := nsel, bindings := bs }
        if bs.any (fun e => entryBad (e.map (·.toNat))) || decide (32 < h.rays) || decide (4096 < h.regs) then none else some h

/-! ### The region binding table (R292 to R295) -/

/-- A valid entry breaks R293 or R294's first two rules; an OBJ that R293 does not allow is refused with them.
(DESIGN CHOICE, log entry 122) -/
def regionBad (w : Nat) : Bool :=
  nbits w 255 196 != 0 || nbits w 195 193 == 0 || decide (5 < nbits w 195 193) || badAddr (nbits w 191 128) 64 ||
    nbits w 127 64 == 0 || nbits w 127 64 % 256 != 0 || badAddr (nbits w 63 0) 256 || decide (2 ^ 56 < nbits w 63 0 + nbits w 127 64)

/-- Two ranges overlap. -/
def overlap (a n b m : Nat) : Bool := decide (a < b + m) && decide (b < a + n)

/-- The regions together break R294. -/
def regionsBad (rs : List Region) : Bool :=
  rs.zipIdx.any fun (r, i) => rs.zipIdx.any fun (q, j) =>
    (i != j && overlap r.base r.size q.base q.size) || overlap r.obj 64 q.base q.size || (r.obj == q.obj && r.scope != q.scope)

/-- The table of a context as read and checked; none where the launch is refused. (DEDUCED, log entry 47) -/
def State.regionTable (s : State) (ctx : Nat) : Option (List Region) :=
  match SMap.get? s.ctxs ctx with
  | none => none
  | some c =>
    match (List.range c.rbtn).mapM fun j => (s.readVirt ctx (c.rbt + 32 * j) 32).map leNat with
    | none => none
    | some ws =>
      let vs := ws.filter fun w => nbits w 192 192 == 1
      let rs : List Region := vs.map fun w => ⟨nbits w 63 0, nbits w 127 64, nbits w 191 128, nbits w 195 193⟩
      if vs.any regionBad || regionsBad rs then none else some rs

/-- Each bound object's SCOPE byte is written (R295). -/
def State.writeScopes (s : State) (ctx : Nat) (rs : List Region) : State :=
  rs.foldl (fun s r => s.devWrite ctx (r.obj + 8) [BitVec.ofNat 8 r.scope]) s

/-! ### LAUNCH_BEGIN and AGGREGATOR_MERGE -/

/-- The launches that begin together: a launch alone, or all of its merge (R349). -/
def State.together (s : State) (l : Nat) : List Nat :=
  match s.launch l with
  | some x => if x.merge.isEmpty then [l] else x.merge
  | none => []

/-- A launch that is refused alone leaves its merge (R349). -/
def State.leaveMerge (s : State) (l : Nat) : State :=
  (s.together l).foldl (fun s k => s.updLaunch k fun x => { x with merge := if k = l then [] else x.merge.filter (· != l) }) s

/-- A child launch that the aggregator may merge (R349). -/
def Launch.mergeable (x : Launch) : Bool :=
  x.child && !x.b && decide (x.nent ≤ 64) && x.pmap == 0 && !x.bad && !x.begun && !x.isOver && x.merge.isEmpty

/-- Two mergeable children of one device queue that agree in KERNEL, THRB and HSRC (R349). -/
def Launch.alike (x y : Launch) : Bool :=
  y.mergeable && x.queue == y.queue && x.kernel == y.kernel && x.thrb == y.thrb && x.hsrc == y.hsrc

/-- The children that merge with one: from the first like it, those taken within 4 µs (7,600 clocks) of that first, at most 64
(R349). -/
def State.children (s : State) (x : Launch) : List (Nat × Launch) :=
  let ys := s.launches.filter fun (_, y) => x.alike y
  (ys.filter fun (_, y) => match ys.head? with | some (_, z) => decide (y.takenAt ≤ z.takenAt + 7600) | none => false).take 64

/-- No further child can join: 4 µs have passed since the first, or there are 64. -/
def mergeClosed (clock : Nat) (ys : List (Nat × Launch)) : Bool :=
  decide (64 ≤ ys.length) || (match ys.head? with | some (_, z) => decide (z.takenAt + 7600 < clock) | none => false)

/-- A mergeable child begins only as part of its merge, or alone where no other joins it (R349). -/
def State.awaitsMerge (s : State) (l : Nat) (x : Launch) : Bool :=
  x.mergeable && !(mergeClosed s.clock (s.children x) && (s.children x).map (·.1) == [l])

/-- AGGREGATOR_MERGE (R349): the oldest mergeable child of a queue and those like it become one dispatch, once no further child
can join them. -/
def execAggregatorMerge (q : Nat) (s : State) : Out :=
  match s.launches.find? fun (_, x) => x.mergeable && x.queue == q && mergeClosed s.clock (s.children x) && decide (2 ≤ (s.children x).length) with
  | none => .next s
  | some (_, x) =>
    let ks := (s.children x).map (·.1)
    .next (ks.foldl (fun s k => s.updLaunch k fun y => { y with merge := ks }) s)

/-- A launch is accepted: it takes the next serial of its context and what was read for it (R203, R344). -/
def State.acceptLaunch (s : State) (h : Header) (rs : List Region) (l : Nat) : State :=
  match s.launch l with
  | none => s
  | some x =>
    let n := match SMap.get? s.ctxs x.ctx with | some c => c.serials | none => 0
    (s.updLaunch l fun y => { y with begun := true, serial := n, header := h, regions := rs }).updCtx x.ctx fun c =>
      { c with serials := (n + 1) % 2048 }

/-- LAUNCH_BEGIN (R294, R295, R314, R344): packet, header and region binding table are checked in this order, and the
launch is refused with CODE 0x04, 0x02 or 0x03, or begins and is given its serial (R203). One reading serves all children of a merge (R349). A launch
of a faulted context begins without a header, with those of its merge: each of its entries ends aborted (R387). (DEDUCED, log entry 49) -/
def execLaunchBegin (l : Nat) (s : State) : Out :=
  match s.launch l with
  | none => .next s
  | some x =>
    if x.begun || x.isOver || s.awaitsMerge l x then .next s
    else if x.bad then .next ((s.leaveMerge l).endLaunch l 4 0)
    else
      let ks := (s.together l).filter fun k => match s.launch k with | some y => !y.bad && !y.begun && !y.isOver | none => false
      if s.ctxFaulted x.ctx then .next (ks.foldl (fun s k => s.updLaunch k fun y => { y with begun := true }) s)
      else match s.kernelHeader x.ctx x.kernel with
      | none => .next (ks.foldl (fun s k => s.endLaunch k 2 0) s)
      | some h =>
        match s.regionTable x.ctx with
        | none => .next (ks.foldl (fun s k => s.endLaunch k 3 0) s)
        | some rs =>
          .next (ks.foldl (fun s k => s.acceptLaunch h rs k) (s.writeScopes x.ctx rs))

end Sys2Proof.Machine
end

