-- ==== Sys2Proof/Machine/Codecs.lean ====
section
/-!
DEFINITION. The stored forms of a page (R320 to R323: stream header, LZ4 block, CCSDS 121.0-B-3, coefficient tree) and
the transform steps of a binding (R324 to R326), as functions from bytes to bytes or the cause that fails the entry.
-/
namespace Sys2Proof.Machine

/-! ### CRC-32C -/

/-- One step of the reflected CRC-32C (polynomial 0x82F63B78). -/
def crcBit (c : Nat) : Nat := if c % 2 = 1 then (c / 2) ^^^ 0x82F63B78 else c / 2

/-- CRC-32C of bytes. -/
def crc32c (bs : List Byte) : Nat :=
  (bs.foldl (fun c b => (List.range 8).foldl (fun c _ => crcBit c) (c ^^^ b.toNat)) 0xFFFFFFFF) ^^^ 0xFFFFFFFF

/-! ### LZ4 block (R321) -/

/-- The bytes that extend a length of 15. -/
def lz4More : List Byte → Nat → Option (Nat × List Byte)
  | [], _ => none
  | b :: t, acc => if b = 255 then lz4More t (acc + 255) else some (acc + b.toNat, t)

/-- A length of a token's nibble. -/
def lz4Len (nib : Nat) (t : List Byte) : Option (Nat × List Byte) := if nib = 15 then lz4More t 15 else some (nib, t)

/-- Copies a match, byte by byte, onto output held last byte first. -/
def lz4Match (out : List Byte) (ofs : Nat) : Nat → List Byte
  | 0 => out
  | n + 1 => let o := lz4Match out ofs n; o.getD (ofs - 1) 0 :: o

/-- The sequences of a block: output last byte first; none for cause 0x05. -/
def lz4Seqs : (fuel : Nat) → List Byte → List Byte → (len dlen : Nat) → Option (List Byte × Nat)
  | 0, _, _, _, _ => none
  | _ + 1, [], out, len, _ => some (out, len)
  | fuel + 1, tok :: t, out, len, dlen =>
    match lz4Len (tok.toNat / 16) t with
    | none => none
    | some (n, t) =>
      if t.length < n ∨ dlen < len + n then none
      else
        let out := (t.take n).reverse ++ out
        let len := len + n
        match t.drop n with
        | [] => some (out, len)
        | [_] => none
        | a :: b :: t =>
          let ofs := a.toNat + 256 * b.toNat
          match lz4Len (tok.toNat % 16) t with
          | none => none
          | some (m, t) =>
            if ofs = 0 ∨ len < ofs ∨ dlen < len + m + 4 then none
            else lz4Seqs fuel t (lz4Match out ofs (m + 4)) (len + m + 4) dlen

/-- Decodes a block to exactly DLEN bytes. -/
def lz4 (body : List Byte) (dlen : Nat) : Option (List Byte) :=
  match lz4Seqs (body.length + 1) body [] 0 dlen with
  | some (out, len) => if len = dlen then some out.reverse else none
  | none => none

/-! ### CCSDS 121.0-B-3 (R322) -/

/-- The parameters of a Rice stream. -/
structure RiceP where
  n : Nat
  j : Nat
  r : Nat
  pre : Bool
  sgn : Bool
  restr : Bool
  deriving DecidableEq, Repr

/-- The bits of bytes, the most significant first. -/
def bitsMsb (bs : List Byte) : List Bool := bs.flatMap fun b => (List.range 8).map fun i => b.getLsbD (7 - i)

/-- A fundamental sequence: the zeros before the next 1. -/
def fsRead : List Bool → Nat → Option (Nat × List Bool)
  | [], _ => none
  | true :: t, k => some (k, t)
  | false :: t, k => fsRead t (k + 1)

/-- The next n bits as a number. -/
def numRead : Nat → List Bool → Nat → Option (Nat × List Bool)
  | 0, t, x => some (x, t)
  | _ + 1, [], _ => none
  | n + 1, b :: t, x => numRead n t (2 * x + b2n b)

/-- Reads several values with one reader. -/
def readMany (f : List Bool → Option (Nat × List Bool)) : Nat → List Bool → Option (List Nat × List Bool)
  | 0, t => some ([], t)
  | n + 1, t =>
    match f t with
    | none => none
    | some (x, t) => match readMany f n t with
      | none => none
      | some (xs, t) => some (x :: xs, t)

/-- A pair of the second extension: the sum s of its values from the code, then both. -/
def pairOf (code : Nat) : (fuel : Nat) → (s : Nat) → Nat × Nat
  | 0, s => (0, s)
  | fuel + 1, s => if code < (s + 1) * (s + 2) / 2 then (s - (code - s * (s + 1) / 2), code - s * (s + 1) / 2) else pairOf code fuel (s + 1)

/-- What one coded data set gives: mapped values of a block, or a run of zero blocks (none for the rest of the segment). -/
inductive Cds where
  | block (ds : List Nat)
  | zeros (count : Option Nat)
  deriving DecidableEq, Repr

/-- A coded data set with m mapped values wanted, ref of them replaced by the reference sample: the reference and the set. -/
def cdsRead (p : RiceP) (ref : Bool) (m : Nat) (t : List Bool) : Option (Nat × Cds × List Bool) :=
  let idLen := if p.restr then (if p.n ≤ 2 then 1 else 2) else if p.n ≤ 8 then 3 else 4
  let k := m - b2n ref
  match numRead idLen t 0 with
  | none => none
  | some (ident, t) =>
    let low := ident == 0
    match (if low then numRead 1 t 0 else some (0, t)) with
    | none => none
    | some (ext, t) =>
      match (if ref then numRead p.n t 0 else some (0, t)) with
      | none => none
      | some (x0, t) =>
        if low && ext == 0 then
          match fsRead t 0 with
          | none => none
          | some (z, t) => some (x0, .zeros (if z < 4 then some (z + 1) else if z = 4 then none else some z), t)
        else if low then
          match readMany (fun t => fsRead t 0) ((m + 1) / 2) t with
          | none => none
          | some (cs, t) =>
            let ds := (cs.flatMap fun c => let q := pairOf c (c + 1) 0; [q.1, q.2]).take m
            some (x0, .block (if ref then ds.drop 1 else ds), t)
        else if ident + 1 = 2 ^ idLen then
          match readMany (fun t => numRead p.n t 0) k t with
          | none => none
          | some (ds, t) => some (x0, .block ds, t)
        else
          match readMany (fun t => fsRead t 0) k t with
          | none => none
          | some (hs, t) =>
            match readMany (fun t => numRead (ident - 1) t 0) k t with
            | none => none
            | some (ls, t) => some (x0, .block ((hs.zip ls).map fun (h, l) => h * 2 ^ (ident - 1) + l), t)

/-- A reference sample, or a sample without preprocessing, as a value. -/
def RiceP.value (p : RiceP) (x : Nat) : Int := if p.sgn then (BitVec.ofNat p.n x).toInt else (x % 2 ^ p.n : Nat)

/-- The next sample from the one before and a mapped value: the standard mapper undone. -/
def RiceP.next (p : RiceP) (prev : Int) (d : Nat) : Int :=
  let lo : Int := if p.sgn then -(2 ^ (p.n - 1) : Int) else 0
  let hi : Int := if p.sgn then 2 ^ (p.n - 1) - 1 else 2 ^ p.n - 1
  let th := min (prev - lo) (hi - prev)
  let delta : Int := if (d : Int) ≤ 2 * th then (if d % 2 = 0 then (d / 2 : Nat) else -((d + 1) / 2 : Nat))
    else if th = prev - lo then (d : Int) - th else th - (d : Int)
  prev + delta

/-- Samples of a run of mapped values. (DEDUCED, log entry 54) -/
def RiceP.samples (p : RiceP) : Int → List Nat → List Int
  | _, [] => []
  | prev, d :: t => let x := if p.pre then p.next prev d else p.value d; x :: RiceP.samples p x t

/-- Decodes block b and those after it, left samples being wanted; prev is the sample before. Bits left after the last
sample are ignored. (DEDUCED, log entry 54; DESIGN CHOICE, log entry 131) -/
def riceBlocks (p : RiceP) : (fuel : Nat) → (b left : Nat) → Int → List Bool → Option (List Int)
  | 0, _, left, _, _ => if left = 0 then some [] else none
  | fuel + 1, b, left, prev, t =>
    if left = 0 then some []
    else
      let inInt := b % p.r
      let ref := p.pre && inInt == 0
      match cdsRead p ref (min p.j left) t with
      | none => none
      | some (x0, cds, t) =>
        let segLeft := min (64 - inInt % 64) (p.r - inInt)
        let blocks := match cds with | .block _ => 1 | .zeros (some c) => c | .zeros none => segLeft
        let count := min left (blocks * p.j)
        let ds := match cds with | .block ds => ds | .zeros _ => List.replicate (count - b2n ref) 0
        let first := p.value x0
        let xs := if ref then first :: p.samples first ds else p.samples prev ds
        if segLeft < blocks ∨ left + p.j ≤ (match cds with | .zeros (some c) => c * p.j | _ => 0) ∨ ds.any (fun d => decide (2 ^ p.n ≤ d)) then none
        else match riceBlocks p fuel (b + blocks) (left - count) (xs.getLastD prev) t with
          | none => none
          | some ys => some (xs ++ ys)

/-- PARAMS (R322); none where they break it. -/
def riceParams (w : Nat) : Option RiceP :=
  let n := nbits w 3 0 + 1
  if nbits w 4 4 ≠ 0 ∨ (nbits w 21 21 = 1 ∧ 4 < n) then none
  else some ⟨n, 8 * 2 ^ nbits w 7 6, nbits w 19 8 + 1, nbits w 20 20 == 1, nbits w 5 5 == 1, nbits w 21 21 == 1⟩

/-- Decodes a Rice stream to DLEN bytes. -/
def rice (p : RiceP) (body : List Byte) (dlen : Nat) : Option (List Byte) :=
  let w := if p.n ≤ 8 then 1 else 2
  if dlen % w ≠ 0 then none
  else (riceBlocks p (dlen + 1) 0 (dlen / w) 0 (bitsMsb body)).map fun xs =>
    xs.flatMap fun x => leBytes w (BitVec.ofInt 16 x).toNat

/-! ### Coefficient tree (R323) -/

/-- The exact value of a mantissa and an exponent byte. -/
def mantissa (m : Int) (e : Nat) : XVal :=
  if 127 ≤ e then .fin (decide (m < 0)) (m.natAbs * 2 ^ (e - 127)) 1 else .fin (decide (m < 0)) m.natAbs (2 ^ (127 - e))

/-- The unit records: the elements of each unit in the format FMT. Bytes left after the last record are ignored. (DEDUCED, log entry 55;
DESIGN CHOICE, log entry 131) -/
def unitRecords (fmt : Nat) : (count : Nat) → List Byte → Option (List Byte)
  | 0, _ => some []
  | n + 1, e :: w :: t =>
    let sz := w.toNat + 1
    if 1 < w.toNat ∨ t.length < 32 * sz then none
    else
      let el (i : Nat) : Int := let x := leNat ((t.drop (sz * i)).take sz); if sz = 1 then (BitVec.ofNat 8 x).toInt else (BitVec.ofNat 16 x).toInt
      match unitRecords fmt n (t.drop (32 * sz)) with
      | none => none
      | some rest => some ((List.range 32).flatMap (fun i =>
          leBytes (tileBytes fmt) (roundRne (tileFmt fmt) (mantissa (el i) e.toNat))) ++ rest)
  | _ + 1, _ => none

/-- A head as a writer of tiles writes it: a spatial tile has TAG 0x00 and every unit, with the bitmap all ones (R54, R57). -/
def Head.written (h : Head) : Head :=
  if tagLevels h.tag = 0 then { h with tag := 0, count := h.units, bitmap := 2 ^ h.units - 1 } else h

/-- Decodes a coefficient tree to a tile of DLEN bytes; of a spatial tile the bitmap and COUNT are ignored and every unit has a record
(R57, R323). (DEDUCED, log entry 55) -/
def coefTree (body : List Byte) (dlen : Nat) : Option (List Byte) :=
  let (h0, clean) := headOf (body.take 16 ++ List.replicate 48 0 ++ (body.drop 16).take 64)
  let h := h0.written
  if body.length < 80 ∨ headBad h0 clean ∨ dlen ≠ 128 + h.count * 32 * tileBytes h.fmt then none
  else (unitRecords h.fmt h.count (body.drop 80)).map fun d => h.bytes ++ d

/-! ### The stored forms together (R320) -/

/-- The decoded data of a page's user data, or the cause that fails the entry. -/
def decompress (codec : Nat) (page : List Byte) : Except Nat (List Byte) :=
  if codec = 0 then .ok page
  else
    let w := leNat (page.take 16)
    let dlen := nbits w 31 0
    let slen := nbits w 63 32
    let params := nbits w 85 64
    if dlen = 0 ∨ 131072 < dlen ∨ slen = 0 ∨ 16368 < slen ∨ nbits w 94 86 ≠ 0 ∨ (codec ≠ 2 ∧ params ≠ 0) ∨
        (codec = 2 ∧ riceParams params = none) then .error 4
    else
      let body := (page.drop 16).take slen
      match (match codec, riceParams params with
        | 1, _ => lz4 body dlen
        | 2, some p => rice p body dlen
        | _, _ => coefTree body dlen) with
      | none => .error 5
      | some out => if out.length ≠ dlen ∨ (nbits w 95 95 = 1 ∧ crc32c out ≠ nbits w 127 96) then .error 5 else .ok out

/-! ### Transform steps (R324) -/

/-- Chunks of n bytes. -/
def chunksOf (n count : Nat) (bs : List Byte) : List (List Byte) := (List.range count).map fun i => (bs.drop (n * i)).take n

/-- packplanes: the plane form of R212, K-block by K-block. -/
def packPlanes (fmt : Nat) (bs : List Byte) : Option (List Byte) :=
  let w := planeWidth fmt
  if bs.length % (512 * w) ≠ 0 then none
  else
    let nb := bs.length / (512 * w)
    some ((List.range nb).flatMap fun j => (List.range w).flatMap fun p => (List.range 128).flatMap fun r =>
      leBytes 4 (planeWord (leNat ((bs.drop (4 * w * (nb * r + j))).take (4 * w))) w p))

/-- haar: a spatial tile transformed, with units dropped against a threshold. -/
def haarStep (param : Nat) (thr : XVal) (bs : List Byte) : Option (List Byte) :=
  let (h, clean) := headOf (bs.take 128)
  let lv := nbits param 2 0
  let sz := tileBytes h.fmt
  if bs.length < 128 ∨ headBad h clean ∨ tagNorm h.tag ≠ 0 ∨ h.nlog < lv ∨ bs.length < 128 + h.units * 32 * sz then none
  else
    let value (c p : Nat) : Nat :=
      elemF32 h.fmt (leNat ((bs.drop (128 + ((c / 32 * h.n + p) * 32 + c % 32) * sz)).take sz))
    let (o, d) := buildTile true (nbits param 7 4 * 16 + nbits param 3 3 * 8 + lv) (nbits param 9 8) h.nlog h.ch thr value
    some (o.bytes ++ d)

/-- unpack: the pixels of R49 as halfwords. -/
def unpackStep (param : Nat) (bs : List Byte) : Option (List Byte) :=
  let w := 10 + 2 * nbits param 1 0
  if bs.length % (4 * w) ≠ 0 then none
  else some ((chunksOf (4 * w) (bs.length / (4 * w)) bs).flatMap fun c =>
    let x := leNat c
    (List.range 32).flatMap fun i => leBytes 2 (nbits x (w * i + w - 1) (w * i) * (if nbits param 2 2 = 1 then 2 ^ (16 - w) else 1)))

/-- widen16: each element extended, then saturated to its target. -/
def widenStep (param : Nat) (bs : List Byte) : Option (List Byte) :=
  let sz := if nbits param 1 0 = 2 then 2 else 1
  if bs.length % sz ≠ 0 then none
  else some ((chunksOf sz (bs.length / sz) bs).flatMap fun c =>
    let v : Int := if nbits param 1 0 = 0 then (BitVec.ofNat 8 (leNat c)).toInt else (leNat c : Nat)
    leBytes 4 (BitVec.ofInt 32 (if nbits param 2 2 = 1 then (satZ 32 v).1 else (satS 32 v).1)).toNat)

/-- One step word applied; none is cause 0x06. -/
def applyStep (w : Nat) (thr : Option XVal) (bs : List Byte) : Option (List Byte) :=
  let param := nbits w 17 8
  let out := match nbits w 3 0 with
    | 1 => packPlanes (nbits param 3 0) bs
    | 2 => match thr with | some t => haarStep param t bs | none => none
    | 3 => unpackStep param bs
    | 4 => widenStep param bs
    | _ => none
  match out with
  | some o => if 262144 < o.length then none else some o
  | none => none

end Sys2Proof.Machine
end

