-- ==== Sys2Proof/Machine/Pages.lean ====
section
/-!
DEFINITION. The page pipeline (R315 to R330): an entry's states from TAKEN to LANDED, each event one transition of
R317's table, with flash channels and prologue buffers as the only resources held, and the carving of windows.
-/
namespace Sys2Proof.Machine

/-! ### Entries -/

/-- The fields of an entry (R315). -/
def entryIndex (raw : DWord) : Nat := bits raw 47 0
def entrySel (raw : DWord) : Nat := bits raw 55 48
def entryCodec (raw : DWord) : Nat := bits raw 58 56
def entryNoPage (raw : DWord) : Bool := bit raw 59

/-- An entry of a launch. -/
def State.entry (s : State) (l pos : Nat) : Option (Launch × Entry) :=
  (s.launch l).bind fun x => (SMap.get? x.entries pos).map fun e => (x, e)

def State.setEntry (s : State) (l pos : Nat) (e : Entry) : State :=
  s.updLaunch l fun x => { x with entries := SMap.put x.entries pos e }

/-- A failed entry (R317, R332, R333): its completion is written as poisoned. -/
def State.failEntry (s : State) (l pos : Nat) (e : Entry) (cause : Nat) : State := s.finalEntry l pos e 1 cause 0x3FF

/-- An event of the pipeline on an entry that stands in a state that a condition names. -/
def onEntry (l pos : Nat) (st : EntryState → Bool) (f : State → Launch → Entry → State) (s : State) : Out :=
  match s.entry l pos with
  | some (x, e) => if st e.state then .next (f s x e) else .next s
  | none => .next s

/-- A launch comes before another for the dispatcher (R346). (DEDUCED, log entry 50) -/
def State.launchFirst (s : State) (l : Nat) (x : Launch) : Bool :=
  s.launches.all fun (k, y) => k == l || y.isOver || !y.begun || decide (y.nent ≤ y.nextPos) || decide (y.pri < x.pri) ||
    (y.pri == x.pri && decide (l < k))

/-- What TAKEN leads to (R317). (DEDUCED, log entry 49) -/
def State.fromTaken (s : State) (l pos : Nat) (x : Launch) (e : Entry) : State :=
  let r := e.raw
  if s.ctxFaulted x.ctx then s.finalEntry l pos e 3 8 0x3FF
  else if bits r 63 60 ≠ 0 ∨ 3 < entryCodec r ∨ (entryNoPage r ∧ (entryCodec r ≠ 0 ∨ entrySel r ≠ 0)) then s.failEntry l pos e 3
  else s.setEntry l pos { e with state := if entryNoPage r then .window else if x.hsrc then .fetch else .translate }

/-- A fresh entry. -/
def Entry.fresh (raw : DWord) : Entry :=
  { raw := raw, state := .taken, channel := 0, phys := 0, retry := 0, data := [], slot := none, buffer := none, cluster := 0
    winOfs := 0, winSize := 0, order := 0, landedAt := 0, result := 0, cause := 0, core := 0x3FF, finalClock := 0, die := 0, room := none, retired := 0 }

/-- PAGE_ENTRY_TAKE (R316, R317): the next position's entry is read once and checked; an entry that a flush returned to
TAKEN goes on from there with the value read. One that cannot be read fails as a bad entry.
(DEDUCED, log entry 85) -/
def execPageEntryTake (l pos : Nat) (s : State) : Out :=
  match s.launch l with
  | none => .next s
  | some x =>
    match SMap.get? x.entries pos with
    | some e => if e.state = .taken then .next (s.fromTaken l pos x e) else .next s
    | none =>
      if !x.begun || x.isOver || pos != x.nextPos || decide (x.nent ≤ pos) || !s.launchFirst l x then .next s
      else
        let s := s.updLaunch l fun x => { x with nextPos := pos + 1 }
        match s.readVirt x.ctx (x.plist + 8 * pos) 8 with
        | some bs => let e := Entry.fresh (BitVec.ofNat 64 (leNat bs)); .next ((s.setEntry l pos e).fromTaken l pos x e)
        | none => let e := Entry.fresh 0
          .next (if s.ctxFaulted x.ctx then s.finalEntry l pos e 3 8 0x3FF else s.failEntry l pos e 3)

/-- PAGE_TRANSLATE (R317): outside the flash, outside the context's range, or never written fails with cause 0x02. -/
def execPageTranslate (l pos : Nat) (s : State) : Out :=
  onEntry l pos (· == .translate) (fun s x e =>
    let idx := entryIndex e.raw
    if (s.flashData x.ctx idx).isNone then s.failEntry l pos e 2
    else s.setEntry l pos { e with state := .sense 0, channel := Config.flashChannel idx % 64, phys := Config.flashPhysical idx }) s

/-- All entries under way that meet a condition, counted. -/
def State.countEntries (s : State) (f : Entry → Bool) : Nat :=
  s.launches.foldl (fun n (_, x) => n + (x.entries.filter fun (_, e) => f e).length) 0

/-- FLASH_SENSE (R317, R318): with one of the channel's 8 slots the page is sensed with the thresholds of step k. A page
erased meanwhile fails as never written (R403). -/
def execFlashSense (l pos : Nat) (s : State) : Out :=
  onEntry l pos (fun st => match st with | .sense _ => true | _ => false) (fun s x e =>
    match e.state with
    | .sense k =>
      if e.slot.isNone && decide (8 ≤ s.countEntries fun y => y.slot == some e.channel) then s
      else match s.flashData x.ctx (entryIndex e.raw) with
        | none => s.failEntry l pos e 2
        | some d => s.setEntry l pos { e with state := .decode k, slot := some e.channel, data := d, retry := k }
    | _ => s) s

/-- LDPC_DECODE (R317): the codeword is corrected, or the next retry step senses again, or the page is uncorrectable. -/
def execLdpcDecode (l pos : Nat) (s : State) : Out :=
  onEntry l pos (fun st => match st with | .decode _ => true | _ => false) (fun s _ e =>
    match e.state with
    | .decode k =>
      let ok := Config.corrects s.tick
      let s := s.bump
      if ok then { s.setEntry l pos { e with state := .decompress } with
        module := { s.module with retried := s.module.retried + (if k = 0 then 0 else 1) } }
      else if k < s.module.retrySteps then s.setEntry l pos { e with state := .sense (k + 1), data := [] }
      else { s.failEntry l pos e 1 with module := { s.module with uncorr := s.module.uncorr + 1 } }
    | _ => s) s

/-- PAGE_FETCH (R317, R327): 16,384 bytes of the source granule at its home L2, under the acquire of R300; an uncorrectable error
among them poisons the page with cause 0x07. -/
def execPageFetch (l pos : Nat) (s : State) : Out :=
  onEntry l pos (· == .fetch) (fun s x e =>
    let va := x.srcBase + 16384 * entryIndex e.raw
    match s.walk x.ctx va with
    | none => s.failEntry l pos e 7
    | some t =>
      let k := t.key va
      let (s, ecc) := s.meetHbm k 16384
      if ecc || (!t.host && decide (hbmEnd < keyAddr k + 16384)) then s.failEntry l pos e 7
      else
        let s := if t.host then s.setL2 0 ((s.l2Of 0).dropClean fun q => decide (k ≤ q) && decide (q < k + 16384)) else s
        s.setEntry l pos { e with state := .decompress, data := (List.range 16384).map fun i => s.homeByte (k + i) }) s

/-- The die of an entry's source (R327). -/
def State.sourceDie (s : State) (x : Launch) (pos : Nat) (e : Entry) : Nat :=
  if entryNoPage e.raw then pos % 4
  else if x.hsrc then (match s.keyOf x.ctx (x.srcBase + 16384 * entryIndex e.raw) with | some k => keyDie k | none => 0)
  else e.channel / 16

/-- The state after DECOMPRESS or a step. -/
def nextStep (ws : List DWord) (i : Nat) : EntryState :=
  match ws[i]? with
  | some w => if w = 0 then .window else .transform (i + 1)
  | none => .window

/-- PAGE_DECOMPRESS (R317, R320): with one of the die's 16 prologue buffers the stored form is decoded; the channel's
slot is free. -/
def execPageDecompress (l pos : Nat) (s : State) : Out :=
  onEntry l pos (· == .decompress) (fun s x e =>
    let die := s.sourceDie x pos e
    if 16 ≤ s.countEntries fun y => y.buffer == some die then s
    else match decompress (entryCodec e.raw) e.data with
      | .error c => s.failEntry l pos e c
      | .ok d => s.setEntry l pos { e with
          state := if entrySel e.raw = 0 then .window else .transform 1, data := d, slot := none, buffer := some die }) s

/-- The threshold of a haar step (R325): +0 without a block; none where the block cannot be read. A block mapped beyond HBM is read
as what the model holds there. (DESIGN CHOICE, log entry 9) -/
def State.blockThr (s : State) (x : Launch) (w : DWord) : Option XVal :=
  if x.thrb = 0 then some (.fin false 0 1)
  else (s.readVirt x.ctx x.thrb 64).map fun bs => f32val (BitVec.ofNat 32 (leNat ((bs.drop (4 * bits w 15 12)).take 4)))

/-- PAGE_TRANSFORM (R317, R324): step i is applied in the prologue buffer. A read of the threshold block may meet an
uncorrectable error. -/
def execPageTransform (l pos : Nat) (s : State) : Out :=
  onEntry l pos (fun st => match st with | .transform _ => true | _ => false) (fun s x e =>
    match e.state with
    | .transform i =>
      let sel := entrySel e.raw
      let ws := x.header.bindings.getD (sel - 1) []
      let w := ws.getD (i - 1) 0
      let haar := bits w 3 0 == 2 && x.thrb != 0
      let block := if haar then s.keyOf x.ctx x.thrb else none
      let (s, ecc) := match block with
        | some k => s.meetHbm k 64
        | none => (s, false)
      if x.header.nsel < sel ∨ w = 0 then s.failEntry l pos e 6
      else match applyStep w.toNat (if ecc then none else s.blockThr x w) e.data with
        | none => s.failEntry l pos e 6
        | some d => s.setEntry l pos { e with state := nextStep ws i, data := d }
    | _ => s) s

/-! ### Windows (R261, R327 to R329) -/

/-- The size of a window for a landed size. -/
def windowSize (n : Nat) : Nat := max 0x8000 (roundUp n 0x8000)

/-- The offsets at which a window of a size can be carved: in banks held for windows, clear of every other window.
(DESIGN CHOICE, log entry 51) -/
def Cluster.carvable (c : Cluster) (size : Nat) : List Nat :=
  ((List.range 256).map (0x8000 * ·)).filter fun o =>
    decide (o + size ≤ sramEnd) &&
    (List.range (size / 0x8000)).all (fun j => let k := c.bank ((o + 0x8000 * j) / 0x20000); k.win && k.mode == .scratch && !k.sw) &&
    c.windows.all fun w => decide (o + size ≤ w.ofs) || decide (w.ofs + w.size ≤ o)

/-- A window carved at one of the offsets where it can be, which one being open. (DESIGN CHOICE, log entry 51) -/
def Cluster.carve (c : Cluster) (size l pos : Nat) (reserved : Bool) (choice : Nat) : Option Window :=
  match c.carvable size with
  | [] => none
  | o :: os => some ⟨(o :: os).getD (choice % (os.length + 1)) o, size, l, pos, reserved⟩

/-- The cluster the placement map names for a position, if it names one (R327); an entry that cannot be read is absent.
(DEDUCED, log entry 47) -/
def State.mapped (s : State) (x : Launch) (pos : Nat) : Option Nat :=
  if x.pmap = 0 then none
  else match s.readVirt x.ctx (x.pmap + 2 * pos) 2 with
    | some bs => let v := leNat bs; if v < 144 then some v else none
    | none => none

/-- The members of a gang: the positions of the group that lie in the list (R252). -/
def gangMembers (gang nent pos : Nat) : List Nat :=
  ((List.range gang).map (pos / gang * gang + ·)).filter fun q => decide (q < nent)

/-- Every member of a gang has landed or failed for good (R252). -/
def Launch.gangReady (x : Launch) (pos : Nat) : Bool :=
  (gangMembers x.header.gang x.nent pos).all fun q => match SMap.get? x.entries q with
    | some e => e.state == .landed || e.state == .final
    | none => false

/-- A landed beam waits for a core on a cluster; one of a gang once its gang may be placed (R252, R331). -/
def Launch.waitsFor (x : Launch) (cl pos : Nat) (e : Entry) : Bool :=
  e.state == .landed && e.cluster == cl && (decide (x.header.gang ≤ 1) || x.gangReady pos)

/-- Landed beams that wait for a core on a cluster (R328). -/
def State.waiting (s : State) (cl : Nat) : Nat :=
  s.launches.foldl (fun n (_, x) => n + (x.entries.filter fun (pos, e) => x.waitsFor cl pos e).length) 0

/-- Of a die's clusters that meet a condition, the one with the fewest landed beams that wait, the lowest number first (R328). -/
def State.leastWaiting (s : State) (die : Nat) (ok : Nat → Bool) : Option Nat :=
  (((List.range 36).map (36 * die + ·)).filter ok).foldl (fun m k =>
    match m with
    | none => some k
    | some j => if s.waiting k < s.waiting j then some k else some j) none

/-- Reserves 256 KiB on a cluster for each of n members, one after the other, anywhere it can be (R329); none where a member finds no
space. At choice 0 each takes the lowest offset, and then they fit whenever any places for them do. -/
def reserveSpace (c : Cluster) (l choice : Nat) : Nat → Option (List Nat)
  | 0 => some []
  | n + 1 =>
    match c.carve 0x40000 l 0 true choice with
    | none => none
    | some w => (reserveSpace { c with windows := c.windows ++ [w] } l choice n).map (insertLane id w.ofs)

/-- The reservations of a gang's members: in the order of %gangpos, which tells each beam the order of the gang's windows (R261,
R329). Where the open places leave a member without space, all take the lowest ones: a cluster that has room for them takes them (R328).
(DESIGN CHOICE, log entry 51) -/
def reserveAll (c : Cluster) (l choice : Nat) (ms : List Nat) : Option Cluster :=
  ((reserveSpace c l choice ms.length).orElse fun _ => reserveSpace c l 0 ms.length).map fun os =>
    { c with windows := c.windows ++ (ms.zip os).map fun (q, o) => ⟨o, 0x40000, l, q, true⟩ }

/-- The cluster that receives an entry's window, of those that can carve it (R327, R328). -/
def State.chooseCluster (s : State) (x : Launch) (mapPos pos : Nat) (e : Entry) (can : Nat → Bool) : Option Nat :=
  let die := s.sourceDie x pos e
  let free := s.leastWaiting die can
  match s.mapped x mapPos with
  | some c => if !x.hsrc && !entryNoPage e.raw && dieOf c != die then free else if can c then some c else none
  | none => free

/-- A beam's room in its context's save area, reserved while it runs or is saved (R355): the first that fits.
(DEDUCED, log entry 52) -/
def Ctx.findRoom (c : Ctx) (size : Nat) : Option Nat :=
  let bases := 0 :: c.rooms.map fun (b, n) => b + n
  (bases.filter fun b => decide (b + size ≤ c.saveSize * 2 ^ 20) &&
    c.rooms.all fun (a, n) => decide (b + size ≤ a) || decide (a + n ≤ b)).foldl
    (fun m b => match m with | none => some b | some x => some (min x b)) none

/-- The window is carved and zeroed; the entry goes on to LANDING. -/
def State.carveWindow (s : State) (l pos cl : Nat) (e : Entry) (w : Window) : State :=
  let s := s.freeWindow l pos
  let s := s.updCluster cl fun c => { c with windows := c.windows ++ [w] }
  (s.zeroScratch cl w.ofs w.size).setEntry l pos { e with state := .landing, cluster := cl, winOfs := w.ofs, winSize := w.size }

/-- WINDOW_CARVE (R317, R327 to R329): a window of the landed size on the chosen cluster. The first member of a gang that
comes here reserves 256 KiB for each member that has not failed; each member's window is then carved from its own. -/
def execWindowCarve (l pos : Nat) (s : State) : Out :=
  onEntry l pos (· == .window) (fun s x e =>
    let size := windowSize e.data.length
    let gang := x.header.gang
    if gang ≤ 1 then
      match s.chooseCluster x pos pos e (fun k => !((s.cluster k).carvable size).isEmpty) with
      | none => s
      | some cl =>
        match (s.cluster cl).carve size l pos false (Config.pick s.tick) with
        | none => s
        | some w => s.bump.carveWindow l pos cl e w
    else
      match s.clusters.findSome? fun (k, c) => (c.windows.find? fun w => w.reserved && w.l == l && w.pos == pos).map fun w => (k, w) with
      | some (cl, w) => s.carveWindow l pos cl e { w with size := size, reserved := false }
      | none =>
        let ms := (gangMembers gang x.nent pos).filter fun q =>
          match SMap.get? x.entries q with | some y => y.state != .final | none => true
        match s.chooseCluster x (pos / gang * gang) pos e (fun k => (reserveAll (s.cluster k) l (Config.pick s.tick) ms).isSome) with
        | none => s
        | some cl =>
          match reserveAll (s.cluster cl) l (Config.pick s.tick) ms with
          | none => s
          | some c =>
            let s := s.bump.setCluster cl c
            match c.windows.find? fun w => w.reserved && w.l == l && w.pos == pos with
            | some w => s.carveWindow l pos cl e { w with size := size, reserved := false }
            | none => s) s

/-- PAGE_LANDING (R330): the prologue buffer is written into the window's banks and freed; the entry has LANDED, and the
order of landings is kept (R331). -/
def execPageLanding (l pos : Nat) (s : State) : Out :=
  onEntry l pos (· == .landing) (fun s _ e =>
    let s := if e.data.isEmpty then s else s.writeScratch e.cluster e.winOfs none e.data
    { s.setEntry l pos { e with state := .landed, data := [], buffer := none, order := s.landings, landedAt := s.clock } with landings := s.landings + 1 }) s

end Sys2Proof.Machine
end

