-- ==== Sys2Proof/Machine/Beams.lean ====
section
/-!
DEFINITION. Beams and launches as they come and go (R13, R33, R241 to R243, R252, R253, R299, R300, R331 to R333, R347,
R355, R360, R374): placing and releasing, the completion of a beam, and the closing writes of a launch.
-/
namespace Sys2Proof.Machine

/-! ### Placing (R33, R241, R347) -/

/-- Bytes of a ray frame (R357). -/
def frameBytes (allot depth : Nat) : Nat := roundUp (2048 + 132 * allot + 128 * depth) 256

/-- The room a beam's save record can need: header, frames, 128 replay entries and the window (R355, R357).
(DEDUCED, log entry 52) -/
def Header.room (h : Header) (win : Nat) : Nat :=
  512 + h.roles.foldl (fun n r => n + r.rays * frameBytes r.vregs h.depth) 0 + 128 * 1024 + win

/-- A beam of a context drains on a core (R354). -/
def State.draining (s : State) (core ctx : Nat) : Bool :=
  s.beams.any fun (_, b) => b.core == core && b.ctx == ctx && (match b.choice with | some (.drain _) => true | _ => false)

/-- A core has registers and slots for a beam (R33). -/
def State.coreFits (s : State) (core ctx : Nat) (h : Header) : Bool :=
  let c := s.core core
  decide (h.regs ≤ c.freeRegs) && decide (c.rays.length + h.rays ≤ 64) && decide (h.rays ≤ 32) && !s.draining core ctx

/-- Of a cluster's cores that fit, the one with the most free registers, the lowest number first (R241). -/
def State.chooseFrom (s : State) (cl : Nat) (fits : Nat → Bool) : Option Nat :=
  (((List.range 4).map (4 * cl + ·)).filter fits).foldl (fun m k =>
    match m with
    | none => some k
    | some j => if (s.core j).freeRegs < (s.core k).freeRegs then some k else some j) none

/-- The core of a cluster that takes a beam (R241). -/
def State.chooseCore (s : State) (cl ctx : Nat) (h : Header) : Option Nat := s.chooseFrom cl fun k => s.coreFits k ctx h

/-- A context may have beams placed and resumed (R387, R398, R401). -/
def State.mayPlace (s : State) (ctx : Nat) : Bool :=
  match SMap.get? s.ctxs ctx with
  | some c => !c.faulted && !c.suspended && !s.module.tripped
  | none => false

/-- The quarter pipe that holds the fewest rays, the lowest index first (R242). -/
def Core.freePipe (c : Core) : Nat :=
  let n (p : Nat) : Nat := (c.rays.filter fun (_, r) => r.pipe == p).length
  (List.range 4).foldl (fun m p => if n p < n m then p else m) 0

/-- A ray's registers at release (R13). -/
def Thread.release (x : Launch) (r : RoleRec) (winOfs winSize : Nat) : Thread :=
  { kind := .ray, v := [], marks := [], s := [(0, x.params), (1, BitVec.ofNat 64 (2 ^ 56 + winOfs)), (2, BitVec.ofNat 64 winSize)]
    m := [], p := [], vpc := laneTab fun _ => BitVec.ofNat 32 r.entry, live := allLanes, flags := laneTab fun _ => 0
    fmode := x.header.mode, latches := [], ret := [], level := laneTab fun _ => 0, depth := x.header.depth, allot := r.vregs
    retired := 0, clause := none, span := x.header.codeSize }

/-- The lantern save registers at release. -/
def LanternSave.none : LanternSave := ⟨[], [], 0, [], false, 0⟩

/-- A ray at release. -/
def Ray.release (th : Thread) (l pos rayId role pipe clock : Nat) : Ray :=
  { th := th, l := l, pos := pos, rayId := rayId, role := role, pipe := pipe, releaseClock := clock
    dc := [0, 0, 0, 0, 0, 0], pend := [], laneMap := List.range 32, parked := none, parkReq := false, rewritten := false
    vpcWritten := 0, dueStore := [], awaiting := false, dueWb := [], arrival := none, phase := 0, adv := false, bankSel := 0, resv := []
    resvVa := [], slotEnd := 0, stall := none
    unresolved := [], frontier := 0, lastEntered := 0, waiting := none, readySince := none, starved := false, yieldTo := []
    yieldAt := 0, lantern := LanternSave.none }

/-- The role index of each ray in %rayid order (R242). -/
def Header.roleList (h : Header) : List (Nat × RoleRec) := h.roles.zipIdx.flatMap fun (r, i) => List.replicate r.rays (i, r)

/-- Seats a ray on a core: the fewest-rays pipe and the lowest free slot (R242). -/
def Core.seat (c : Core) (f : (pipe : Nat) → Ray) : Core × Nat :=
  let k := (SMap.firstFree c.rays 64).getD 64
  ({ c with rays := SMap.put c.rays k (f c.freePipe) }, k)

/-- A core's clean copies are dropped: those of its L1, its read-only path and its cluster's cache. -/
def State.dropCopies (s : State) (core : Nat) : State :=
  let s := s.updCore core fun c => { c with l1 := c.l1.dropClean fun _ => true, ro := [] }
  s.updCluster (clusterOf core) fun c => { c with cache := c.cache.dropClean fun _ => true }

/-- The start of a launch on a core is an acquire (R300): clean copies are dropped. (DEDUCED, log entry 53) -/
def State.acquireAt (s : State) (l core : Nat) : State :=
  match s.launch l with
  | none => s
  | some x =>
    if x.acquired.contains core then s
    else (s.dropCopies core).updLaunch l fun x => { x with acquired := core :: x.acquired
                                                           coresUsed := if x.coresUsed.contains core then x.coresUsed else core :: x.coresUsed }

/-- Seats a beam's rays on a core and takes its registers. -/
def State.seatAll (s : State) (core regs : Nat) (rays : List ((pipe : Nat) → Ray)) : State × List Nat :=
  let (c, ks) := rays.foldl (fun (c, ks) f => let (c, k) := c.seat f; (c, ks ++ [k])) (s.core core, ([] : List Nat))
  (s.setCore core { c with freeRegs := c.freeRegs - regs }, ks)

/-- A landed entry's beam is placed on a core of its cluster and released (R13, R33, R241 to R243, R355); none where no
core fits or the save area has no room. -/
def State.placeBeam (s : State) (l pos : Nat) (x : Launch) (e : Entry) : Option State :=
  match s.chooseCore e.cluster x.ctx x.header, (SMap.get? s.ctxs x.ctx).bind fun c => c.findRoom (x.header.room e.winSize) with
  | some core, some room =>
    let s := s.updCtx x.ctx fun c => { c with rooms := c.rooms ++ [(room, x.header.room e.winSize)] }
    let rays := x.header.roleList.zipIdx.map fun ((i, r), id) => fun pipe =>
      Ray.release (Thread.release x r e.winOfs e.winSize) l pos id i pipe s.clock
    let (s, ks) := s.seatAll core x.header.regs rays
    let s := s.acquireAt l core
    let s := s.updCore core fun c => { c with charge := if SMap.has c.charge x.ctx then c.charge else SMap.put c.charge x.ctx 0 }
    let b : Beam :=
      { ctx := x.ctx, core := core, cluster := e.cluster, rays := ks, h := List.replicate 16 0
        hAt := [], bars := List.replicate 8 ⟨x.header.rays, 0, 0⟩, arrAt := (0, 0), allow := 1, gangPos := pos % x.header.gang, winOfs := e.winOfs
        winSize := e.winSize, pageIdx := entryIndex e.raw, retry := e.retry, codeBase := x.kernel + x.header.codeOfs, streams := 0
        choice := none, cause := none, result := 0, halted := false }
    some ({ s with beams := SMap.put s.beams (beamKey l pos) b }.setEntry l pos
      { e with state := .running, core := core, die := dieOf e.cluster, room := some room })
  | _, _ => none

/-- Places members of a gang in ascending order, all or none (R252). -/
def placeGang (l : Nat) : List Nat → State → Option State
  | [], s => some s
  | q :: t, s =>
    match s.entry l q with
    | some (x, e) => if e.state = .landed then (s.placeBeam l q x e).bind (placeGang l t) else placeGang l t s
    | none => none

/-! ### The order of placement (R331, R347, R371) -/

/-- What waits for a core on a cluster: a landed beam, a gang whose pages have all landed or failed, or an eligible saved beam or
gang. -/
structure Candidate where
  /-- the beam, or the first member of the gang -/
  key : Nat
  /-- a lantern has woken it -/
  urgent : Bool
  pri : Nat
  /-- the clock of its landing, or of its becoming eligible to resume -/
  since : Nat
  /-- its place in the order of landings -/
  order : Nat
  deriving DecidableEq, Repr

/-- A candidate is placed before another: a woken one first, then by priority, then by the order of landing (R347, R371).
(DEDUCED, log entry 50) -/
def Candidate.before (a b : Candidate) : Bool :=
  if a.urgent != b.urgent then a.urgent
  else decide (b.pri < a.pri) || (a.pri == b.pri && (decide (a.since < b.since) || (a.since == b.since &&
    (decide (a.order < b.order) || (a.order == b.order && decide (a.key < b.key))))))

/-- The members of a gang at a position that are in a launch's entries. -/
def Launch.members (x : Launch) (pos : Nat) : List (Nat × Entry) :=
  (gangMembers x.header.gang x.nent pos).filterMap fun q => (SMap.get? x.entries q).map fun e => (q, e)

/-- A landed beam, or the gang of one whose members have all landed or failed, as a candidate: it counts from its last member's
landing (R331). -/
def Launch.candidate (x : Launch) (l pos : Nat) : Candidate :=
  let ms := x.members pos
  { key := beamKey l (pos / x.header.gang * x.header.gang), urgent := false, pri := x.pri
    since := ms.foldl (fun m (_, e) => max m (if e.state = .landed then e.landedAt else e.finalClock)) 0
    order := ms.foldl (fun m (_, e) => max m e.order) 0 }

/-- A context's save area has room for the records of some entries' beams (R355). -/
def Ctx.roomFor (h : Header) : List Entry → Ctx → Bool
  | [], _ => true
  | e :: t, c => match c.findRoom (h.room e.winSize) with
    | some b => Ctx.roomFor h t { c with rooms := c.rooms ++ [(b, h.room e.winSize)] }
    | none => false

/-- The landed entries that are placed together with one: its gang's, or itself alone. -/
def Launch.placedWith (x : Launch) (pos : Nat) (e : Entry) : List Entry :=
  if x.header.gang ≤ 1 then [e] else ((x.members pos).map (·.2)).filter fun y => y.state == .landed

/-- A landed beam waits for a core as a candidate, with its gang: one without room for its save record waits for that, and holds
nothing back (R331, R355). (DEDUCED, log entry 50) -/
def State.landedWaits (s : State) (cl pos : Nat) (x : Launch) (e : Entry) : Bool :=
  x.waitsFor cl pos e && s.mayPlace x.ctx &&
    (SMap.get? s.ctxs x.ctx).any fun c => Ctx.roomFor x.header (x.placedWith pos e) c

/-- The saved members of a beam's gang. -/
def State.savedGroup (s : State) (key : Nat) : List (Nat × Saved) :=
  match s.launch (key / 2 ^ 32) with
  | some x => (gangMembers x.header.gang x.nent (key % 2 ^ 32)).filterMap fun q =>
      (SMap.get? s.saved (beamKey (key / 2 ^ 32) q)).map fun v => (q, v)
  | none => []

/-- The rays of a saved beam have all ended: without operations to re-issue it only completes (R162, R387). -/
def Saved.dead (v : Saved) : Bool := v.rays.all fun r => r.th.live == 0

/-- Nothing is left that lands in a saved beam's record before it resumes (R359): what the save captured and what that holds back go
on after it, and so do a BWAIT, for which R356 has a beam wait under R335 alone, and a JOIN whose stream is not over.
(DEDUCED, log entry 56) -/
def Saved.settled (v : Saved) : Bool :=
  v.landing.all fun o => o.isOver || (match o.kind with | .bwait _ | .join => true | _ => false)

/-- Nothing of a saved beam's gang lands before a resume, and a member has something to go on with: one that only completes resumes with
the others (R253). (DEDUCED, log entry 56) -/
def State.mayResume (s : State) (key : Nat) : Bool :=
  let g := s.savedGroup key
  g.all (fun (_, v) => v.settled) && g.any fun (_, v) => !v.dead || !v.crossing.isEmpty

/-- A cluster can carve windows at the offsets of a saved gang's beams. (DEDUCED, log entry 77) -/
def Cluster.carvesAll (c : Cluster) (vs : List (Nat × Saved)) : Bool :=
  vs.all fun (_, v) => (c.carvable v.beam.winSize).contains v.beam.winOfs

/-- The cluster on which a saved beam or gang resumes (R356): the one it last ran on if that can carve its offsets, else another of
the die where it first ran, chosen as R328 chooses. -/
def State.resumeCluster (s : State) (key : Nat) : Option Nat :=
  match s.savedGroup key, s.entry (key / 2 ^ 32) (key % 2 ^ 32) with
  | (q, v) :: vs, some (_, e) =>
    if (s.cluster v.beam.cluster).carvesAll ((q, v) :: vs) then some v.beam.cluster
    else s.leastWaiting e.die fun k => k != v.beam.cluster && (s.cluster k).carvesAll ((q, v) :: vs)
  | _, _ => none

/-- A saved beam as a candidate (R347): it counts from the clock it became eligible; one that a lantern has woken goes ahead, as
if its priority were 3 (R371). -/
def State.savedCandidate (s : State) (key : Nat) (v : Saved) : Candidate :=
  let g := s.savedGroup key
  let urgent := g.any (·.2.urgent)
  { key := beamKey (key / 2 ^ 32) ((g.head?.map (·.1)).getD 0), urgent := urgent
    pri := if urgent then 3 else match s.launch (key / 2 ^ 32) with | some x => x.pri | none => 0
    since := v.eligible.getD s.clock, order := 0 }

/-- An eligible saved beam waits for a cluster: the one on which it would resume, or, woken and with a core that fits it, any of its
die (R371). -/
def State.savedWaits (s : State) (cl key : Nat) (v : Saved) : Bool :=
  v.eligible.isSome && s.mayResume key && (match s.launch (key / 2 ^ 32), s.resumeCluster key with
    | some x, some k => s.mayPlace x.ctx && (k == cl ||
        ((s.savedGroup key).any (·.2.urgent) && dieOf k == dieOf cl && (s.chooseCore k x.ctx x.header).isSome))
    | _, _ => false)

/-- What waits for a core on a cluster. -/
def State.candidates (s : State) (cl : Nat) : List Candidate :=
  (s.launches.flatMap fun (l, x) => x.entries.filterMap fun (pos, e) =>
    if s.landedWaits cl pos x e then some (x.candidate l pos) else none) ++
  s.saved.filterMap fun (k, v) => if s.savedWaits cl k v then some (s.savedCandidate k v) else none

/-- Nothing that waits for a cluster is placed before a candidate. -/
def State.isNext (s : State) (cl : Nat) (c : Candidate) : Bool := (s.candidates cl).all fun d => d.key == c.key || !d.before c

/-- BEAM_PLACE (R241, R331, R347): a landed beam of a kernel without gangs. -/
def execBeamPlace (l pos : Nat) (s : State) : Out :=
  onEntry l pos (· == .landed) (fun s x e =>
    if 1 < x.header.gang || !s.mayPlace x.ctx || !s.isNext e.cluster (x.candidate l pos) then s
    else (s.placeBeam l pos x e).getD s) s

/-- GANG_PLACE (R252, R253, R331): once every member has landed or failed for good, all landed ones are placed and released
together on the gang's cluster, in their turn. -/
def execGangPlace (l pos : Nat) (s : State) : Out :=
  onEntry l pos (· == .landed) (fun s x e =>
    if x.header.gang ≤ 1 || !x.gangReady pos || !s.mayPlace x.ctx || !s.isNext e.cluster (x.candidate l pos) then s
    else (placeGang l (gangMembers x.header.gang x.nent pos) s).getD s) s

/-! ### Completing (R162, R332) -/

/-- MASK, PEND, COUNT and PAYLOAD are written to the lantern table once no beam of the context is resident (R360).
(DEDUCED, log entry 61) -/
def State.lanternOut (s : State) (ctx : Nat) : State :=
  match SMap.get? s.ctxs ctx with
  | none => s
  | some c =>
    if c.lntab = 0 || s.beams.any (fun (_, b) => b.ctx == ctx) then s
    else
      let s := (s.devWrite ctx c.lntab (leBytes 8 c.lnmask.toNat)).devWrite ctx (c.lntab + 8) (leBytes 8 c.lnpend.toNat)
      (List.range 64).foldl (fun s v =>
        let x := SMap.get c.vecs ⟨0, 0, false⟩ v
        (s.devWrite ctx (c.lntab + 64 + 32 * v + 7) [BitVec.ofNat 8 x.count]).devWrite ctx (c.lntab + 64 + 32 * v + 24)
          (leBytes 8 x.payload.toNat)) s

/-- The reports due for a beam's rays are made as its rays end (R382, R383). -/
def State.reportBeam (s : State) (b : Beam) : State := b.rays.foldl (fun s k => s.reportEnded b.core k) s

/-- A beam leaves its core: its slots, registers and places of the fork queue are free, its walks and the senders of its lanterns
forgotten. -/
def State.unseat (s : State) (l pos : Nat) (b : Beam) : State :=
  let regs := match s.launch l with | some x => x.header.regs | none => 0
  let s := ((s.dropSender b.core b.rays).dropPlaces b.core b.rays).updCore b.core fun c =>
    { c with rays := c.rays.filter fun (k, _) => !b.rays.contains k
             pipes := c.pipes.filter fun (_, k) => !b.rays.contains k
             selected := match c.selected with | some k => if b.rays.contains k then none else some k | none => none
             freeRegs := c.freeRegs + regs }
  let s := { s with
    walks := SMap.mapVals (fun _ (qs : List WalkReq) => qs.filter fun q => !(q.core == b.core && b.rays.contains q.rslot)) s.walks
    beams := SMap.del s.beams (beamKey l pos) }
  s.lanternOut b.ctx

/-- Every operation of a beam has completed, its streams have ended and its rays have all ended (R162). -/
def State.beamDone (s : State) (l pos : Nat) (b : Beam) : Bool :=
  b.rays.all (fun k => match s.ray b.core k with | some r => r.th.live == 0 | none => true) &&
  (s.core b.core).ops.all (fun o => !(o.l == l && o.pos == pos) || o.isOver) && b.streams == 0 &&
  (s.core b.core).wbWait.all fun (_, t) => !(t.l == l && t.pos == pos)

/-- The slots that some rays have retired (R138). -/
def retiredSum (rs : List Ray) : Nat := rs.foldl (fun n r => n + r.th.retired.toNat) 0

/-- The rays of a resident beam. -/
def State.raysOf (s : State) (b : Beam) : List Ray := b.rays.filterMap fun k => s.ray b.core k

/-- BEAM_COMPLETE (R162, R332, R387, R392): a beam whose rays have ended and operations completed; a saved one whose rays have
ended, once its operations have completed into its record. -/
def execBeamComplete (l pos : Nat) (s : State) : Out :=
  match s.entry l pos with
  | none => .next s
  | some (_, e) =>
    match s.beam l pos, SMap.get? s.saved (beamKey l pos) with
    | some b, _ =>
      if s.beamDone l pos b then
        .next (((s.reportBeam b).unseat l pos b).finalEntry l pos { e with retired := retiredSum (s.raysOf b) } b.result (if b.result = 3 then 8 else 0) b.core)
      else .next s
    | none, some v =>
      if v.rays.all (fun r => r.th.live == 0) && v.ops.all (·.isOver) then
        .next ({ s with saved := SMap.del s.saved (beamKey l pos) }.finalEntry l pos { e with retired := retiredSum v.rays } v.beam.result
          (if v.beam.result = 3 then 8 else 0) v.beam.core)
      else .next s
    | none, none => .next s

/-! ### The end of a launch (R299, R333, R374) -/

/-- Every entry of a launch is FINAL. -/
def Launch.allFinal (x : Launch) : Bool :=
  x.begun && !x.isOver && decide (x.nent ≤ x.nextPos) && x.entries.all fun (_, e) => e.state == .final

/-- The entries with a result. -/
def Launch.withResult (x : Launch) (r : Nat) : Nat := (x.entries.filter fun (_, e) => e.result == r).length

/-- The page report (R333). -/
def Launch.pageReport (x : Launch) : Nat :=
  let firstBad := x.entries.foldl (fun m (p, e) => if e.result = 0 then m else min m p) 0xFFFFFFFF
  x.nent + (x.entries.foldl (fun m (_, e) => max m e.retry) 0) % 16 * 2 ^ 32 + x.withResult 0 * 2 ^ 64 + x.withResult 1 * 2 ^ 96
    + x.withResult 2 * 2 ^ 128 + x.withResult 3 * 2 ^ 160 + (x.entries.filter fun (_, e) => 0 < e.retry).length * 2 ^ 192
    + firstBad * 2 ^ 224

/-- The closing writes of one launch, in order (R374): the completion words of a merged child (R349), the report, the status word,
the change to SIGNAL. Entries of RESULT 3 make it aborted (CODE 0x05). (DEDUCED, log entry 48; DEDUCED, log entry 53) -/
def State.closeLaunch (s : State) (l : Nat) : State :=
  match s.launch l with
  | none => s
  | some x =>
    let bad := x.nent - x.withResult 0
    let code := if x.withResult 3 ≠ 0 then 5 else if bad ≠ 0 then 1 else 0
    let s := x.coresUsed.foldl State.publishAll s
    let s := if x.merge.isEmpty then s else s.writeCompl x x.entries
    let s := if x.report = 0 then s else s.devWrite x.ctx x.report (leBytes 32 x.pageReport)
    s.endLaunch l code bad

/-- LAUNCH_COMPLETE (R299, R349, R374): once every entry of the launch, and of every launch merged with it, is FINAL. -/
def execLaunchComplete (l : Nat) (s : State) : Out :=
  let ks := s.together l
  if !ks.isEmpty && ks.all (fun k => match s.launch k with | some x => x.allFinal || x.isOver | none => true) &&
      (match s.launch l with | some x => !x.isOver | none => false) then
    .next (ks.foldl (fun s k => match s.launch k with | some x => if x.isOver then s else s.closeLaunch k | none => s) s)
  else .next s

end Sys2Proof.Machine
end

