-- ==== Sys2Proof/Machine/Preempt.lean ====
section
/-!
DEFINITION. Pre-emption (R253, R335, R350 to R359): slices, the decision among drain, save and flush, the save record
as data and as the bytes of R357, replies into it, flush and resume.
-/
namespace Sys2Proof.Machine

/-! ### Gangs as one decision (R253) -/

/-- The positions decided together with one: its gang's members. -/
def State.groupOf (s : State) (l pos : Nat) : List Nat :=
  match s.launch l with
  | some x => gangMembers x.header.gang x.nent pos
  | none => []

/-- The resident beams among them. -/
def State.groupBeams (s : State) (l pos : Nat) : List (Nat × Beam) :=
  (s.groupOf l pos).filterMap fun q => (s.beam l q).map fun b => (q, b)

/-- Sets what was decided for a beam and its gang, but for a terminated member, which only completes (R387). -/
def State.setChoice (s : State) (l pos : Nat) (c : Option Choice) : State :=
  (s.groupBeams l pos).foldl (fun s (q, _) => s.updBeam l q fun b => if b.halted then b else { b with choice := c }) s

/-! ### The decision (R352, R353) -/

/-- The slots that the rays of a member of a gang have retired, resident, saved or completed; none of one whose beam never ran. -/
def State.memberRetired (s : State) (l q : Nat) : Option Nat :=
  match s.beam l q, SMap.get? s.saved (beamKey l q), s.entry l q with
  | some b, _, _ => some (retiredSum (s.raysOf b))
  | none, some v, _ => some (retiredSum v.rays)
  | none, none, some (_, e) => if e.state = .final ∧ e.core ≠ 0x3FF then some e.retired else none
  | none, none, none => none

/-- The progress estimate in units of 1/256 over the rays of the beam, or of all beams of the gang that have run (R352). With the default
EXPECT of 2^32 − 1 it is 0 for a shorter run (R81). (DEDUCED, log entry 91) -/
def State.progress (s : State) (l pos : Nat) : Nat :=
  match s.launch l with
  | none => 0
  | some x =>
    let ns := (s.groupOf l pos).filterMap (s.memberRetired l)
    let done := ns.foldl (· + ·) 0
    let rays := x.header.rays * ns.length
    if x.header.expect = 2 ^ 32 - 1 ∧ done < (2 ^ 32 - 1) * rays then 0 else min 255 (256 * done / (x.header.expect * rays))

/-- A stream of the beam or gang is forked or running. -/
def State.groupStreams (s : State) (l pos : Nat) : Bool := (s.groupBeams l pos).any fun (_, b) => b.streams != 0

/-- What the rules of R352 choose; none while a save under R335 still waits for a stream. -/
def State.decideChoice (s : State) (l pos : Nat) (t : Trigger) : Option Choice :=
  let p := s.progress l pos
  let idem := match s.launch l with | some x => x.header.idem | none => false
  let flush := idem && decide (p < s.module.flushLo)
  if t = .bwait then (if s.groupStreams l pos then none else some (.save true))
  else if s.groupStreams l pos then some (if flush then .flush else .drain s.clock)
  else if s.module.drainHi ≤ p then some (.drain s.clock)
  else if flush then some .flush
  else some (.save false)

/-- A decision on a core returns the charges on it to 0 (R350). -/
def State.clearCharges (s : State) (l pos : Nat) : State :=
  (s.groupBeams l pos).foldl (fun s (_, b) => s.updCore b.core fun c => { c with charge := SMap.mapVals (fun _ _ => 0) c.charge }) s

/-- The decision is taken once for a beam or gang (R352), whether or not its rays have ended; a terminated one only completes (R387). One
that has been decided to drain and then meets R335's condition drains on until DRAINMAX. (DEDUCED, log entry 58) -/
def State.decideBeam (s : State) (l pos : Nat) (t : Trigger) : State :=
  match s.beam l pos with
  | none => s
  | some b =>
    if b.choice.isSome ∨ b.halted then s
    else match s.decideChoice l pos t with
      | some c =>
        let s := s.setChoice l pos (some c)
        let s := (s.groupBeams l pos).foldl (fun s (q, _) => s.updBeam l q fun b => { b with cause := some t }) s
        s.clearCharges l pos
      | none => s

/-! ### Reports that go with a beam (R381, R382, R390) -/

/-- The reports due of a beam's rays that have ended are made; those of the others go with its save record, and their record slots stay
held on the core until SFFREE (R381). (DESIGN CHOICE, log entry 123) -/
def State.reportEndedOf (s : State) (core : Nat) (ks : List Nat) : State :=
  ks.foldl (fun s k => match s.ray core k with | some r => if r.th.live = 0 then s.reportEnded core k else s | none => s) s

/-- The record slots that a saved beam's reports still to come hold. -/
def Saved.duesLeft (v : Saved) : Nat :=
  v.rays.foldl (fun n r => n + (r.dueStore.filter (·.slot.isSome)).length + r.dueWb.length) 0

/-- A report's record in the slot it holds where its ray resumes on the same core, or in the lowest free slot of another core. -/
def Core.seatRecord (c : Core) (moved : Bool) (rslot k : Nat) (rec_ : BitVec 256) : Core × Nat × BitVec 256 :=
  if moved then
    let j := c.freeRec.getD 16
    ({ c with recs := SMap.put c.recs j (recordAt rec_ rslot j) }, j, recordAt rec_ rslot j)
  else ({ c with recs := if SMap.get? c.recs k = some rec_ then SMap.put c.recs k (recordAt rec_ rslot k) else c.recs }, k, recordAt rec_ rslot k)

/-- The reports that a resumed ray still has to make name its new slot, and record slots of its core. (DESIGN CHOICE, log entry 123) -/
def State.settleDues (s : State) (core rslot : Nat) (moved : Bool) : State :=
  match s.ray core rslot with
  | none => s
  | some r =>
    let (c, ds) := r.dueStore.foldl (fun (c, ds) d => match d.slot with
      | some k => let (c, k, x) := c.seatRecord moved rslot k d.record; (c, ds ++ [{ d with slot := some k, record := x }])
      | none => (c, ds ++ [d])) (s.core core, ([] : List StoreDue))
    let (c, ws) := r.dueWb.foldl (fun (c, ws) d =>
      let (c, k, x) := c.seatRecord moved rslot d.1 d.2; (c, ws ++ [(k, x)])) (c, ([] : List (Nat × BitVec 256)))
    (s.setCore core c).setRay core rslot { r with dueStore := ds, dueWb := ws }

/-! ### Restoring a saved beam (R356) -/

/-- The slot that takes a slot's place. -/
def reslot (old new : List Nat) (k : Nat) : Nat := match (old.zip new).find? fun p => p.1 == k with | some p => p.2 | none => k

/-- The save captured a store, STNT, STCON or REL, which is not issued again while all record slots are held (R358, R381). -/
def Saved.reissuesStore (v : Saved) : Bool :=
  v.ops.any fun o => o.replayable && (match o.kind with | .store .. | .stcon _ | .rel => true | _ => false)

/-- A core fits a saved beam: as it does a landed one, with places for its operations among the 128 not yet accepted and for its copies in
the engine, record slots for its reports still to come where it is not the core that holds them, and a free slot for the stores that it
issues again (R24, R282, R358, R381). (DESIGN CHOICE, log entry 123) -/
def State.coreResumes (s : State) (core ctx : Nat) (h : Header) (v : Saved) : Bool :=
  let c := s.core core
  let n := (v.ops.filter Op.copying).length
  s.coreFits core ctx h && decide (c.unaccepted + c.places + (v.ops.filter fun o => !o.accepted).length ≤ 128) &&
    (n == 0 || decide (s.copies core + n ≤ 16)) &&
    decide (c.recs.length + (if core = v.beam.core then 0 else v.duesLeft) + b2n v.reissuesStore ≤ 16)

/-- Restores one saved beam on a cluster: window, rays in fresh slots with the clock of the resumption, and its
operations, the replay entries re-issued in order with their captured operands (R356, R358). Clean copies on the core are
dropped, since the beam's acquires were made on another.
(DEDUCED, log entry 57) -/
def State.restoreBeam (s : State) (l pos cl : Nat) (v : Saved) : Option State :=
  match s.entry l pos with
  | none => none
  | some (x, e) =>
    let b := v.beam
    match (if (s.cluster cl).carvesAll [(pos, v)] then s.chooseFrom cl fun k => s.coreResumes k x.ctx x.header v else none) with
    | none => none
    | some core =>
      let s := s.updCluster cl fun c => { c with windows := c.windows ++ [⟨b.winOfs, b.winSize, l, pos, false⟩] }
      let s := s.writeScratch cl b.winOfs none v.window
      let s := s.updCluster cl fun c => { c with gtags := v.gtags.foldl (fun m (g, t) => SMap.put m g t) c.gtags }
      let base := (s.core core).nextOp
      let newId (id : Nat) : Nat := match v.ops.zipIdx.find? fun p => p.1.id == id with | some p => base + p.2 | none => base + v.ops.length
      let seat (r : Ray) (pipe : Nat) : Ray :=
        { r with pipe := pipe, releaseClock := s.clock, dueStore := r.dueStore.map fun d => { d with op := newId d.op } }
      let (s, ks) := s.seatAll core x.header.regs (v.rays.map seat)
      let s := ks.foldl (fun s k => s.settleDues core k (core != b.core)) s
      let s := (s.acquireAt l core).dropCopies core
      let slot := reslot b.rays ks
      let ops := v.ops.zipIdx.map fun (o, i) => { o with id := base + i, rslot := slot o.rslot }
      let s := s.updCore core fun c => { c with ops := c.ops ++ ops, nextOp := base + v.ops.length + 1 }
      let moved (p : Nat × Nat) : Nat × Nat := if p.1 = b.core ∧ v.ops.any (fun o => o.id == p.2) then (core, newId p.2) else p
      let arr := s.arrivals.map fun a => { a with op := a.op.map moved }
      let sw (w : Switch) : Switch := if w.l = l ∧ w.pos = pos then { w with core := core, rslot := slot w.rslot } else w
      let s := { s with
        arrivals := arr
        clusters := SMap.mapVals (fun _ (c : Cluster) => { c with switches := c.switches.map sw }) s.clusters
        beams := SMap.put s.beams (beamKey l pos) { b with core := core, cluster := cl, rays := ks, choice := none, cause := none }
        saved := SMap.del s.saved (beamKey l pos) }
      some (s.setEntry l pos { e with state := .running, core := core, cluster := cl })

/-- Restores the saved members of a gang on one cluster, all or none. -/
def restoreGroup (l cl : Nat) : List Nat → State → Option State
  | [], s => some s
  | q :: t, s =>
    match SMap.get? s.saved (beamKey l q) with
    | some v => (s.restoreBeam l q cl v).bind (restoreGroup l cl t)
    | none => restoreGroup l cl t s

/-! ### Triggers (R351) -/

/-- The priority of a beam's launch. -/
def State.priOf (s : State) (l : Nat) : Nat := match s.launch l with | some x => x.pri | none => 0

/-- An eligible saved beam waits for a core among the landed ones (R347); one that a lantern has woken pre-empts no beam (R371). -/
def State.savedRival (s : State) (cl key : Nat) (v : Saved) : Bool :=
  s.savedWaits cl key v && (s.savedGroup key).all fun (_, w) => !w.urgent

/-- A landed beam of another context, of equal or higher priority, waits for a core's cluster. -/
def State.rivalWaits (s : State) (core ctx pri : Nat) : Bool :=
  s.launches.any (fun (_, x) => x.ctx != ctx && decide (pri ≤ x.pri) && s.mayPlace x.ctx &&
    x.entries.any fun (pos, e) => x.waitsFor (clusterOf core) pos e) ||
  s.saved.any fun (k, v) => v.beam.ctx != ctx && decide (pri ≤ s.priOf (k / 2 ^ 32)) && s.savedRival (clusterOf core) k v

/-- A context's slice has expired on a core (R350). -/
def State.sliceOver (s : State) (core ctx : Nat) : Bool :=
  match SMap.get? s.ctxs ctx with
  | some c => c.slice != 0 && decide (c.slice * 1900 * 4 ≤ SMap.get (s.core core).charge 0 ctx)
  | none => false

/-- The youngest beam of the lowest priority on a core (R243, R351). -/
def State.victim (s : State) (core : Nat) : Option (Nat × Beam) :=
  let rel (b : Beam) : Nat := match b.rays.head?.bind (s.ray b.core) with | some r => r.releaseClock | none => 0
  (s.beams.filter fun (_, b) => b.core == core && b.choice.isNone && !b.halted).foldl (fun m (k, b) =>
    match m with
    | none => some (k, b)
    | some (j, a) =>
      let p := s.priOf (k / 2 ^ 32)
      let q := s.priOf (j / 2 ^ 32)
      if p < q ∨ (p = q ∧ (rel a < rel b ∨ (rel a = rel b ∧ j < k))) then some (k, b) else some (j, a)) none

/-- A landed beam, or its gang, can be placed now. -/
def State.fitsNow (s : State) (l pos : Nat) (x : Launch) (e : Entry) : Bool :=
  if x.header.gang ≤ 1 then (s.placeBeam l pos x e).isSome else (placeGang l (gangMembers x.header.gang x.nent pos) s).isSome

/-- A saved beam, or its gang, can be restored now. -/
def State.resumesNow (s : State) (cl key : Nat) : Bool :=
  (restoreGroup (key / 2 ^ 32) cl (s.groupOf (key / 2 ^ 32) (key % 2 ^ 32)) s).isSome

/-- A cluster's cores once what has been decided on it is carried out, and its terminated beams have completed. -/
def State.withoutDecided (s : State) (cl : Nat) : State :=
  s.beams.foldl (fun s (k, b) =>
    if b.cluster = cl ∧ (b.choice.isSome ∨ b.halted) then
      let regs := match s.launch (k / 2 ^ 32) with | some x => x.header.regs | none => 0
      { s.updCore b.core fun c => { c with rays := c.rays.filter fun (i, _) => !b.rays.contains i, freeRegs := c.freeRegs + regs } with
        beams := SMap.del s.beams k }
    else s) s

/-- A landed beam waits for a cluster whose cores hold only beams of lower priority, and neither fits there nor will once what has
been decided there is carried out (R351). -/
def State.priorityWaits (s : State) (cl : Nat) : Bool :=
  let lower (p : Nat) : Bool := s.beams.all fun (k, b) => b.cluster != cl || decide (s.priOf (k / 2 ^ 32) < p)
  s.launches.any (fun (l, x) => lower x.pri &&
    x.entries.any fun (pos, e) => s.landedWaits cl pos x e && !s.fitsNow l pos x e && !(s.withoutDecided cl).fitsNow l pos x e) ||
  s.saved.any fun (k, v) => lower (s.priOf (k / 2 ^ 32)) && s.savedRival cl k v && !s.resumesNow cl k && !(s.withoutDecided cl).resumesNow cl k

/-- The beams of no other core of a cluster are being pre-empted for priority: it is those of one core (R351).
(DEDUCED, log entry 104) -/
def State.priorityCore (s : State) (cl core : Nat) : Bool :=
  s.beams.all fun (_, b) => b.cluster != cl || b.core == core || b.choice.isNone || b.cause != some .priority

/-- The THRESH with which a ray's next clause waits on a counter (R25). -/
def State.waitsOn (s : State) (core : Nat) (r : Ray) (n : Nat) : Option Nat :=
  if r.th.live = 0 ∨ r.th.clause.isSome then none
  else match s.peekClause core r with
    | some (_, w, _) => if bit w (4 + n) && decide (hdrThresh w < r.dc.getD n 0) then some (hdrThresh w) else none
    | none => none

/-- A ray waits on a BWAIT that is not complete: on its counter, and not only on operations older than the THRESH youngest, of which the
BWAIT is one (R25, R205). -/
def State.waitsForBeam (s : State) (core : Nat) (o : Op) : Bool :=
  !o.done && (match o.kind, o.dc, s.ray core o.rslot with
    | .bwait _, some n, some r => (match s.waitsOn core r n with
      | some t => decide (t ≤ ((s.core core).ops.filter fun p => decide (o.id < p.id) && p.rslot == o.rslot && p.dc == some n && !p.counted).length)
      | none => false)
    | _, _, _ => false)

/-- A ray of a beam waits on a BWAIT for a beam that is not resident (R335). -/
def State.waitsAbsent (s : State) (l pos : Nat) (b : Beam) : Bool :=
  (s.core b.core).ops.any fun o => o.l == l && o.pos == pos && s.waitsForBeam b.core o &&
    (match o.kind with
      | .bwait t => (s.beam l t).isNone && (s.finalResult l t).isNone
      | _ => false)

/-- The condition of R335 for a beam, or for its whole gang: a wait for an absent beam, and no ready ray.
(DEDUCED, log entry 58) -/
def State.bwaitDue (s : State) (l pos : Nat) : Bool :=
  let bs := s.groupBeams l pos
  bs.any (fun (q, b) => s.waitsAbsent l q b) &&
    bs.all fun (_, b) => b.rays.all fun k => match s.ray b.core k with
      | some r => (r.th.clause.isNone || r.parked.isSome) && !s.rayReady b.core k
      | none => true

/-- A trigger holds for a beam. -/
def State.triggered (s : State) (l pos : Nat) (b : Beam) (t : Trigger) : Bool :=
  match t with
  | .slice => s.sliceOver b.core b.ctx && s.rivalWaits b.core b.ctx (s.priOf l)
  | .priority => s.priorityWaits b.cluster && s.priorityCore b.cluster b.core && ((s.victim b.core).map (·.1) == some (beamKey l pos))
  | .bwait => s.bwaitDue l pos
  | .suspend => match SMap.get? s.ctxs b.ctx with | some c => c.suspended | none => false

/-- The slice of a context has expired on a core: its beams there for which another waits are decided on (R350, R351). -/
def State.expireSlice (s : State) (core ctx : Nat) : State :=
  let ks := (s.beams.filter fun (k, b) => b.core == core && b.ctx == ctx && s.rivalWaits core ctx (s.priOf (k / 2 ^ 32))).map (·.1)
  if s.sliceOver core ctx then ks.foldl (fun s k => s.decideBeam (k / 2 ^ 32) (k % 2 ^ 32) .slice) s else s

/-- SLICE_EXPIRY (R350, R351): the charge of a context on a core has reached its slice while another waits. -/
def execSliceExpiry (core ctx : Nat) (s : State) : Out := .next (s.expireSlice core ctx)

/-- PREEMPT_DECISION (R351, R352): for a slice all the context's beams on the core are decided on. -/
def execPreemptDecision (l pos : Nat) (trigger : Trigger) (s : State) : Out :=
  match s.beam l pos with
  | some b =>
    if !s.triggered l pos b trigger then .next s
    else if trigger = .slice then .next (s.expireSlice b.core b.ctx)
    else .next (s.decideBeam l pos trigger)
  | none => .next s

/-- DRAIN_TIMEOUT (R352): a drain not complete DRAINMAX clocks after its decision becomes a save, unless a stream is
forked or running. -/
def execDrainTimeout (l pos : Nat) (s : State) : Out :=
  match s.beam l pos with
  | some b =>
    match b.choice with
    | some (.drain since) =>
      if since + s.module.drainMax ≤ s.clock ∧ ¬ s.groupStreams l pos then .next (s.setChoice l pos (some (.save false))) else .next s
    | _ => .next s
  | none => .next s

/-! ### Operations at a save (R358) -/

/-- A beam's operations. -/
def State.opsOf (s : State) (l pos : Nat) (b : Beam) : List Op := (s.core b.core).ops.filter fun o => o.l == l && o.pos == pos

/-- Every ray stands at a clause boundary, or is parked inside a clause, by a precise trap or by DRAINST's report (R91, R177, R357). -/
def State.atBoundary (s : State) (b : Beam) : Bool :=
  b.rays.all fun k => match s.ray b.core k with
    | some r => r.th.clause.isNone || r.parked.isSome
    | none => true

/-- A failed store that waits for a record slot, whose ray's event is not yet made (R381). -/
def Op.awaitsSlot (o : Op) : Bool := !o.done && o.failed != 0 && o.recSlot.isNone

/-- A beam can be saved now: its rays are stopped and their reports made (R382), but for those of parked rays, no stream is left, and no
failed store waits for a record slot; what R358 does not capture goes on into the record. (DEDUCED, log entry 56) -/
def State.savable (s : State) (l pos : Nat) (b : Beam) : Bool :=
  s.atBoundary b && b.streams == 0 && (s.raysOf b).all (fun r => r.parked.isSome || !r.reportDue) &&
    (s.opsOf l pos b).all fun o => !o.awaitsSlot

/-! ### Save and flush (R354) -/

/-- A ray as the record holds it: reservations, lane map and loupe counts are not saved (R185, R356). -/
def Ray.saved (r : Ray) : Ray :=
  { r with resv := [], laneMap := List.range 32, frontier := 0, lastEntered := 0, waiting := none, readySince := none
           starved := false, yieldTo := [], stall := none, unresolved := [] }

/-- Saves one resident beam: its state and window into the record, its registers, slots and window given back. Its core's writes
are performed for every party, since it may resume on another core (R291, R303), and what its parked rays have not reported goes with
the record. (DEDUCED, log entry 57) -/
def State.saveBeam (s : State) (l pos : Nat) (b : Beam) : State :=
  match s.entry l pos with
  | none => s
  | some (_, e) =>
    let s := (s.publishAll b.core).reportEndedOf b.core b.rays
    let ops := s.opsOf l pos b
    let v : Saved :=
      { beam := { b with choice := none }, rays := b.rays.filterMap fun k => (s.ray b.core k).map Ray.saved, ops := ops
        replay := (ops.filter Op.replayable).map Op.captured, window := (s.cluster b.cluster).sram.readBytes b.winOfs b.winSize
        gtags := (s.cluster b.cluster).gtags.filter fun (g, _) =>
          decide (b.winOfs / 512 ≤ g) && decide (g < (b.winOfs + b.winSize) / 512)
        trigger := b.cause.getD .slice, awaits := (ops.filter (s.waitsForBeam b.core)).map (·.id)
        eligible := none, bwaits := [], urgent := false, room := e.room.getD 0 }
    let s := s.writeRecord l pos v
    let s := s.updCore b.core fun c => { c with ops := c.ops.filter fun o => !(o.l == l && o.pos == pos) }
    let s := (s.unseat l pos b).freeWindow l pos
    { s with saved := SMap.put s.saved (beamKey l pos) v }.setEntry l pos { e with state := .saved }

/-- BEAM_SAVE (R253, R354, R357, R358): the beam, or all resident beams of its gang together, once every ray stands at a boundary or has
ended. -/
def execBeamSave (l pos : Nat) (s : State) : Out :=
  match s.beam l pos with
  | none => .next s
  | some b =>
    match b.choice with
    | some (.save _) =>
      let bs := s.groupBeams l pos
      if bs.all (fun (q, b) => s.savable l q b) then .next (bs.foldl (fun s (q, b) => s.saveBeam l q b) s) else .next s
    | _ => .next s

/-- Discards a flushed beam: the entry returns to TAKEN, its room is given back. The writes it made stand, and are performed for every
party before it runs again (R303, R354). (DEDUCED, log entry 57) -/
def State.discardBeam (s : State) (l pos : Nat) (b : Beam) : State :=
  match s.entry l pos with
  | none => s
  | some (_, e) =>
    let s := (s.publishAll b.core).updCore b.core fun c => { c with ops := c.ops.filter fun o => !(o.l == l && o.pos == pos) }
    ((((s.reportBeam b).unseat l pos b).freeWindow l pos).freeRoom b.ctx e.room).setEntry l pos (Entry.fresh e.raw)

/-- The operations of a stopped beam that R358 would capture are cancelled, but for a failed store that waits for a record slot. -/
def State.cancelOps (s : State) (l pos : Nat) (b : Beam) : State :=
  if s.atBoundary b then
    (s.updCore b.core fun c => { c with ops := c.ops.filter fun o => !(o.l == l && o.pos == pos && o.replayable && !o.awaitsSlot) })
  else s

/-- BEAM_FLUSH (R236, R354): the streams end with STATUS 0x45; once the rays are stopped, what R358 would capture is cancelled, and once
every other operation has completed the beam, or its gang, is discarded, whether or not its rays have ended by themselves. A termination
of the beam meanwhile ends its flush. (DEDUCED, log entry 38; DEDUCED, log entry 58) -/
def execBeamFlush (l pos : Nat) (s : State) : Out :=
  match s.beam l pos with
  | none => .next s
  | some b =>
    if b.choice ≠ some .flush then .next s
    else
      let bs := (s.groupBeams l pos).filter fun (_, b) => !b.halted
      if bs.all (fun (q, b) => s.atBoundary b && b.streams == 0 && (s.opsOf l q b).all fun o => o.isOver || (o.replayable && !o.awaitsSlot)) then
        .next (bs.foldl (fun s (q, b) => s.discardBeam l q b) s)
      else .next (bs.foldl (fun s (q, b) => (s.killStreams b.cluster l q).cancelOps l q b) s)

/-! ### Replies for a saved beam (R335, R358, R359) -/

/-- The slots at which the rays of a saved beam stand while something of it takes effect in its record: above every slot of a core, and
shown in a record or event as those they last held. -/
def Beam.recordSlots (b : Beam) : List Nat := b.rays.map (64 + ·)

/-- An operation put in its place in the order of issue. -/
def insertOp (o : Op) : List Op → List Op
  | [] => [o]
  | p :: t => if o.id < p.id then o :: p :: t else p :: insertOp o t

/-- A bank that lies in a range of offsets, as a window's. -/
def Cluster.asWindow (c : Cluster) (ofs size : Nat) : Cluster :=
  (List.range 64).foldl (fun c b => if decide (b * 0x20000 < ofs + size) && decide (ofs < (b + 1) * 0x20000)
    then c.setBank b ⟨.scratch, none, true, false, 0, 0, 0⟩ else c) c

/-- An operation that goes on after the resume, as it keeps its place on its counter in an opened record (R358, R359). -/
def Op.standIn (o : Op) : Op := { o with kind := .empty, act := 0, place := [] }

/-- A saved beam's rays, its operations, of which those that go on after the resume only keep their places, and its window image stand
where the beam last ran, as they would had it stayed resident (R359). (DEDUCED, log entry 56) -/
def State.openRecord (s : State) (key : Nat) (v : Saved) : State :=
  let b := v.beam
  let ks := b.recordSlots
  let s := s.updCore b.core fun c =>
    { c with rays := (v.rays.zip ks).foldl (fun m (r, k) => SMap.put m k { r with pipe := 4 }) c.rays
             ops := v.ops.foldl (fun os o =>
               insertOp { (if v.crossing.contains o.id then o.standIn else o) with rslot := reslot b.rays ks o.rslot } os) c.ops }
  let s := s.updCluster b.cluster fun c =>
    { (c.asWindow b.winOfs b.winSize) with
      sram := c.sram.writeBytes b.winOfs v.window
      gtags := v.gtags.foldl (fun m (g, t) => SMap.put m g t) (c.gtags.filter fun (g, _) => !(decide (b.winOfs / 512 ≤ g) && decide (g < (b.winOfs + b.winSize) / 512)))
      windows := ⟨b.winOfs, b.winSize, key / 2 ^ 32, key % 2 ^ 32, false⟩ ::
        c.windows.filter fun w => decide (b.winOfs + b.winSize ≤ w.ofs) || decide (w.ofs + w.size ≤ b.winOfs) }
  { s with beams := SMap.put s.beams key { b with rays := ks } }

/-- A poisoned word lies in a window. -/
def inWindow (cl ofs size : Nat) (w : Nat × Nat) : Bool := w.1 == cl + 1 && decide (ofs ≤ 8 * w.2) && decide (8 * w.2 < ofs + size)

/-- A ray keeps the reservations in a window's range that another state gives it. -/
def Ray.keepResv (r : Ray) (old : Option Ray) (cl ofs size : Nat) : Ray :=
  match old with
  | some q => { r with resv := (List.range (max r.resv.length q.resv.length)).map fun i => match q.resv.getD i none with
      | some g => if g.within cl ofs size then some g else r.resv.getD i none
      | none => r.resv.getD i none }
  | none => r

/-- What has become of a saved beam goes back into its record, and the place where it last ran is as it was before, but that what
was written there is performed for every party. (DEDUCED, log entry 57) -/
def State.closeRecord (s real : State) (key : Nat) (v : Saved) : State :=
  let b := v.beam
  let ks := b.recordSlots
  let s := (s.publishAll b.core).reportEndedOf b.core ks
  let c := s.cluster b.cluster
  let mine (o : Op) : Bool := o.l == key / 2 ^ 32 && o.pos == key % 2 ^ 32
  let inW (g : Nat) : Bool := decide (b.winOfs / 512 ≤ g) && decide (g < (b.winOfs + b.winSize) / 512)
  let w : Saved := { v with
    beam := { (SMap.get s.beams b key) with rays := b.rays }
    rays := ks.filterMap fun k => (s.ray b.core k).map fun r => { r with pipe := 0 }
    ops := ((s.core b.core).ops.filter mine).map fun o => match v.ops.find? fun p => p.id == o.id && v.crossing.contains p.id with
      | some p => { p with counted := o.counted }
      | none => { o with rslot := reslot ks b.rays o.rslot }
    window := c.sram.readBytes b.winOfs b.winSize, gtags := c.gtags.filter fun (g, _) => inW g }
  let s := s.updCore b.core fun c => { c with rays := c.rays.filter fun (k, _) => !ks.contains k, ops := c.ops.filter fun o => !mine o }
  let old := real.cluster b.cluster
  let s := s.setCluster b.cluster { c with
    sram := c.sram.writeBytes b.winOfs (old.sram.readBytes b.winOfs b.winSize)
    gtags := (old.gtags.filter fun (g, _) => inW g).foldl (fun m (g, t) => SMap.put m g t) (c.gtags.filter fun (g, _) => !inW g)
    banks := old.banks, windows := old.windows }
  let s := { s with
    cores := SMap.mapVals (fun k (c : Core) => { c with rays := SMap.mapVals (fun rs (r : Ray) => r.keepResv (real.ray k rs) b.cluster b.winOfs b.winSize) c.rays }) s.cores
    poison := (s.poison.filter fun p => !inWindow b.cluster b.winOfs b.winSize p) ++ real.poison.filter (inWindow b.cluster b.winOfs b.winSize)
    beams := SMap.del s.beams key
    saved := SMap.put s.saved key w }
  s.writeRecord (key / 2 ^ 32) (key % 2 ^ 32) w

/-- The next effect of an operation that no save captures: a copy's acceptance, its next chunk or its programming, or what completes
an operation of another kind (R358). -/
def State.advanceOp (s : State) (core : Nat) (o : Op) : State :=
  let run (out : Out) : State := match out with | .next t => t | _ => s
  if o.awaitsSlot then run (execStoreFaultRecord core o.id s)
  else match o.kind with
    | .copy c =>
      if !c.accepted then run (execCopyAccept core o.id s)
      else match (List.range c.nch).find? fun j => !c.done1.contains j with
        | some j => run (execCopyChunkComplete core o.id j false s)
        | none => match (List.range c.nch).find? fun j => c.kind == .xout && !c.done2.contains j with
          | some j => run (execCopyChunkComplete core o.id j true s)
          | none => run (execFlashProgramComplete core o.id s)
    | .spawn .. => run (execSpawnComplete core o.id s)
    | .join => s.settleJoin core o
    | _ => s.performOp core o

/-- A BWAIT of a saved beam completes into its BWAIT word and its destination; its counter byte follows. -/
def Saved.endBwait (v : Saved) (o : Op) (target result : Nat) : Saved :=
  (Saved.updRay { v with bwaits := SMap.put v.bwaits o.rslot (target, result) } o.rslot fun r =>
    { r with th := r.th.setLoad o.d 4 o.act (fun _ => BitVec.ofNat 128 result) false }).complete o.id

/-- REPLY_INTO_SAVE_RECORD (R335, R358, R359): what an operation of a saved beam does next lands in its record, and in the window images
of its gang: registers, tokens, counters and bytes. What the save captured, and what that holds back, waits for the resume.
(DEDUCED, log entry 56) -/
def execReplyIntoSaveRecord (l pos op : Nat) (s : State) : Out :=
  let key := beamKey l pos
  match SMap.get? s.saved key with
  | none => .next s
  | some v =>
    match v.ops.find? fun o => o.id == op with
    | none => .next s
    | some o =>
      match o.kind with
      | .bwait t =>
        match s.finalResult l t with
        | some (res, at_) => if o.done ∨ s.clock ≤ at_ then .next s else .next (s.updSaved key fun v => v.endBwait o t res)
        | none => .next s
      | _ =>
        if o.isOver || v.crossing.contains op then .next s
        else
          let g := (s.savedGroup key).map fun (q, w) => (beamKey l q, w)
          let s1 := g.foldl (fun s (k, w) => s.openRecord k w) s
          match (s1.core v.beam.core).op op with
          | some o1 => .next (g.foldl (fun t (k, w) => t.closeRecord s k w) (s1.advanceOp v.beam.core o1))
          | none => .next s

/-! ### Resume (R356) -/

/-- A context is suspended, or gone. -/
def State.suspendedCtx (s : State) (ctx : Nat) : Bool := match SMap.get? s.ctxs ctx with | some c => c.suspended | none => true

/-- A landed beam of higher priority waits for a cluster. -/
def State.higherWaits (s : State) (cl pri : Nat) : Bool :=
  s.launches.any (fun (_, x) => decide (pri < x.pri) && s.mayPlace x.ctx && x.entries.any fun (pos, e) => x.waitsFor cl pos e) ||
  s.saved.any fun (k, v) => decide (pri < s.priOf (k / 2 ^ 32)) && s.savedRival cl k v

/-- The trigger that saved a beam has passed (R356). -/
def State.triggerPast (s : State) (l : Nat) (v : Saved) : Bool :=
  let b := v.beam
  let susp := s.suspendedCtx b.ctx
  let waits := v.ops.any fun o => !o.done && v.awaits.contains o.id
  if susp then false
  else match v.trigger with
    | .bwait => !waits
    | .suspend => true
    | .slice => !s.rivalWaits b.core b.ctx (s.priOf l)
    | .priority => !s.higherWaits b.cluster (s.priOf l)

/-- A saved beam is eligible to resume, with all its gang's saved beams: their triggers have passed, or a lantern has woken one of
them, which overrides every trigger but a suspension (R356, R371). -/
def State.groupPast (s : State) (l pos : Nat) : Bool :=
  let urgent := (s.groupOf l pos).any fun q => match SMap.get? s.saved (beamKey l q) with | some v => v.urgent | none => false
  (s.groupOf l pos).all fun q => match SMap.get? s.saved (beamKey l q) with
    | some v => v.beam.halted || (if urgent then !s.suspendedCtx v.beam.ctx else s.triggerPast l v)
    | none => (match s.entry l q with | some (_, e) => e.state == .final || e.state == .running | none => false)

/-- The clock since which each saved beam is eligible (R347): once its trigger has passed it stays eligible. (DEDUCED, log entry 132) -/
def State.observeSaved (s : State) : State :=
  let f (k : Nat) (v : Saved) : Option Nat :=
    if v.eligible.isSome then v.eligible else if s.groupPast (k / 2 ^ 32) (k % 2 ^ 32) then some s.clock else none
  { s with saved := SMap.mapVals (fun k v => { v with eligible := f k v }) s.saved }

/-- The bytes of the scratchpad that an operation accesses at a place: an LDT's are those it reads (R180). -/
def State.accessBytes (s : State) (cl : Nat) (o : Op) (a : Nat) : List (Nat × Nat) :=
  match o.kind with | .ldt coef x => s.ldtReads cl coef x | _ => [(a, o.size)]

/-- A place of the scratchpad or a FIFO bank that a beam's operation may no longer reach where it resumes (R163, R266, R269). -/
def State.lostPlace (s : State) (l pos cl ctx : Nat) (o : Op) (p : Place) : Option Nat :=
  match p with
  | .scratch a =>
    if (s.accessBytes cl o a).all fun (ofs, n) => (List.range n).all fun i => s.byteReach false l pos (ofs + i) then none else some 0x32
  | .fifo b => let k := (s.cluster cl).bank b; if k.mode == .fifo && k.owner == some ctx && !k.sw then none else some 0x33
  | _ => none

/-- An operation re-issued at a resume is refused where a lane's place is out of reach: it completes without an access, and its ray takes
the trap that the access would raise as it issues (R266, R358). (DESIGN CHOICE, log entry 124) -/
def State.refuseOp (s : State) (core : Nat) (o : Op) : State :=
  let lost (k : Nat) : Option Nat := if bit o.captured.act k then s.lostPlace o.l o.pos (clusterOf core) o.ctx o (o.place.getD k .off) else none
  match (List.range 32).find? fun k => (lost k).isSome with
  | none => s
  | some k0 =>
    let cause := (lost k0).getD 0
    let s := s.completeOp core o id
    if (s.ray core o.rslot).all fun r => r.parked.isSome then s
    else s.takeTrap core o.rslot .clauseTrap ⟨cause, 0, o.pc, maskOf fun k => (lost k).isSome, (o.ea.getD k0 0).toNat, 0⟩

/-- The operations that a resumed beam re-issues, each refused where its bank is no longer the beam's. -/
def State.refuseOps (s : State) (l pos : Nat) : State :=
  match s.beam l pos with
  | some b => (s.opsOf l pos b).foldl (fun s o => if o.done || o.isOver then s else s.refuseOp b.core o) s
  | none => s

/-- BEAM_RESUME (R347, R356, R371): an eligible saved beam, or its gang, in its turn, on the cluster that R356 names.
(DEDUCED, log entry 77) -/
def execBeamResume (l pos : Nat) (s : State) : Out :=
  let key := beamKey l pos
  match SMap.get? s.saved key, s.entry l pos, s.resumeCluster key with
  | some v, some (x, _), some cl =>
    if !(v.eligible.isSome || s.groupPast l pos) || !s.mayPlace x.ctx || !s.mayResume key ||
        !s.isNext cl (s.savedCandidate key v) then .next s
    else match restoreGroup l cl (s.groupOf l pos) s with
      | some t => .next (((s.savedGroup key).map (·.1)).foldl (fun t q => t.refuseOps l q) t)
      | none => .next s
  | _, _, _ => .next s

end Sys2Proof.Machine
end

