-- ==== Sys2Proof/Machine/Lantern.lean ====
section
/-!
DEFINITION. Lanterns (R360 to R373): the check and recording of a send, delivery, the wake of a saved beam, and the
host's lantern slots (R396, R397).
-/
namespace Sys2Proof.Machine

/-! ### The lantern table (R361, R362) -/

/-- What an entry has to hold to match a sender: KIND and the whole of ID. -/
def Sender.kindId : Sender → Nat × Nat
  | .host _ _ => (1, 0)
  | .peer m => (2, m % 2 ^ 20)
  | .ray ctx _ _ => (3, ctx % 1024)

/-- A permission entry matches a sender and holds a vector; wake asks for WAKE too. -/
def permits (e : Nat) (snd : Sender) (v : Nat) (wake : Bool) : Bool :=
  nbits e 63 35 == 0 && nbits e 33 32 == snd.kindId.1 && nbits e 31 0 == snd.kindId.2 && e.testBit (64 + v) &&
    (!wake || e.testBit 34)

/-- Some permission entry of a context permits a send. -/
def State.permitted (s : State) (ctx : Nat) (c : Ctx) (snd : Sender) (v : Nat) (wake : Bool) : Bool :=
  (List.range 256).any fun i => match s.readVirt ctx (c.lntab + 0x840 + 16 * i) 16 with
    | some bs => permits (leNat bs) snd v wake
    | none => false

/-! ### Recording (R364, R365, R397) -/

/-- The status of a send to a context of this module. (DEDUCED, log entry 59) -/
def State.localStatus (s : State) (x : LnSend) : Nat :=
  let ctx := bits x.desc 15 6
  match SMap.get? s.ctxs ctx with
  | none => 2
  | some c =>
    if c.lntab == 0 || (match x.sender with | .host fn _ => fn != c.fn | _ => false) then 2
    else if c.faulted then 4
    else if s.permitted ctx c x.sender (bits x.desc 5 0) false then 0 else 1

/-- A permitted send is recorded, indivisibly (R364). (DEDUCED, log entry 59) -/
def Ctx.record (c : Ctx) (v : Nat) (payload : DWord) (wake : Bool) : Ctx :=
  let x := c.vec v
  if bit c.lnpend v then { c with vecs := SMap.put c.vecs v ⟨min (x.count + 1) 255, payload, x.wake || wake⟩ }
  else { c with lnpend := c.lnpend ||| BitVec.ofNat 64 (2 ^ v), vecs := SMap.put c.vecs v ⟨1, payload, wake⟩ }

/-- The sender learns the status: a ray's slot goes on with it, a host slot keeps it. -/
def State.answer (s : State) (x : LnSend) (st : Nat) : State :=
  match x.sender with
  | .ray _ core rslot => s.updRay core rslot fun r => if r.stall = some .lnsend then { r with stall := some (.answered st) } else r
  | .host fn k => s.updFn fn fun f => { f with slots := SMap.put f.slots k ((SMap.get f.slots (0, 0) k).1, st) }
  | .peer _ => s

/-- LANTERN_RECORD (R364, R365): the k-th send on its way reaches its unit, is checked, recorded if permitted, and
answered. A send whose route has lost its link is refused with 0x3 (R415); what a unit of another module answers otherwise
is open. (DESIGN CHOICE, log entry 60) -/
def execLanternRecord (k : Nat) (s : State) : Out :=
  match s.lnsends[k]? with
  | none => .next s
  | some x =>
    let s := { s with lnsends := s.lnsends.eraseIdx k }
    if bit x.desc 16 then
      match x.sender with
      | .ray .. =>
        if s.module.linksDown.contains (Config.route (bits x.desc 36 17) % 18) then .next (s.answer x 3)
        else .next (s.bump.answer x (Config.remoteStatus s.tick % 5))
      | .host .. => .next (s.answer x 1)
      | .peer _ => .next s
    else
      let st := s.localStatus x
      let ctx := bits x.desc 15 6
      let v := bits x.desc 5 0
      let s := if st ≠ 0 then s
        else match SMap.get? s.ctxs ctx with
          | some c => (s.updCtx ctx fun c' => c'.record v x.payload (s.permitted ctx c x.sender v true)).lanternOut ctx
          | none => s
      .next (s.answer x st)

/-! ### Handlers and delivery (R366 to R371) -/

/-- LANTERN_DELIVER (R366 to R368): at a clause boundary the ray's vpc, predicates, live mask and call levels are saved
and every lane enters the handler; bits [1:0] of a vpc are always 0 (R22). What R390 puts before a delivery comes first. -/
def execLanternDeliver (core rslot : Nat) (s : State) : Out :=
  match s.ray core rslot with
  | none => .next s
  | some r =>
    if r.parked.isSome || r.th.clause.isSome || r.lantern.inHandler || s.boundaryDue r || (s.ready core rslot && s.entryTrap core r) then
      .next s
    else match s.deliveryFor r with
      | none => .next s
      | some (v, w) => .next (s.setRay core rslot { r with
          lantern := ⟨r.th.vpc, r.th.p, r.th.live, r.th.level, true, v⟩
          resv := [], stall := none, unresolved := []
          th := { r.th with live := allLanes, vpc := laneTab fun _ => BitVec.ofNat 32 (nbits w 31 2 * 4) } })

/-- The age of a saved beam (R243). -/
def Saved.age (v : Saved) (key : Nat) : Nat × Nat × Nat :=
  (match v.rays.head? with | some r => r.releaseClock | none => 0, key % 2 ^ 32, key)

/-- The saved beam that an urgent vector without a handler wakes: the oldest of KERNEL with ray HRAY live (R371). -/
def State.wakes (s : State) (ctx : Nat) (c : Ctx) (v : Nat) : Option Nat :=
  match s.deliverable ctx c v with
  | some w =>
    if w.testBit 55 && (c.vec v).wake && (s.handler ctx w).isNone then
      (s.saved.filter fun (k, x) => x.beam.ctx == ctx && (match s.launch (k / 2 ^ 32) with | some y => y.kernel == nbits w 191 128 | none => false)
        && (match x.rays[nbits w 54 50]? with | some r => r.th.live != 0 | none => false)).foldl (fun m (k, x) =>
          match m with
          | none => some (k, x.age k)
          | some (j, a) => if ageLt (x.age k) a then some (k, x.age k) else some (j, a)) none |>.map (·.1)
    else none
  | none => none

/-- Urgent vectors wake saved beams, at the present clock. -/
def State.observeWakes (s : State) : State :=
  s.ctxs.foldl (fun s (ctx, c) => (List.range 64).foldl (fun s v =>
    match (if bit c.lnpend v then s.wakes ctx c v else none) with
    | some k => { s with saved := SMap.upd s.saved k fun x => { x with urgent := true } }
    | none => s) s) s

/-! ### The host's lantern slots (R396, R397) -/

/-- LNPAY (R397). -/
def execLnpay (fn k : Nat) (v : DWord) (s : State) : Out :=
  if 255 < k ∨ !s.answers fn then .next s
  else .next (s.updFn fn fun f => { f with slots := SMap.put f.slots k (v, (SMap.get f.slots (0, 0) k).2) })

/-- LNDOOR (R397): sends with the slot's payload, as a sender of KIND 1. -/
def execLndoor (fn k : Nat) (v : DWord) (s : State) : Out :=
  if 255 < k ∨ !s.answers fn then .next s
  else .next { s with lnsends := s.lnsends ++ [⟨.host fn k, v, (SMap.get (s.fnOf fn).slots (0, 0) k).1⟩] }

end Sys2Proof.Machine
end

