-- ==== Sys2Proof/Machine/Supervisor.lean ====
section
/-!
DEFINITION. The supervisor core's control block (R384 to R388): EVPOP, SFFREE, the RAYCMD commands, XLATE, TLBINV and
RAYWIN; and the termination of a context (R387) as a shared operation.
-/
namespace Sys2Proof.Machine

/-! ### Events and record slots (R381, R384) -/

/-- EVPOP (R384): the oldest event is discarded. -/
def execEvpop (core : Nat) (s : State) : Out := .next (s.updCore core Core.popEvent)

/-- SFFREE (R381, R384): the slots whose bits are 1 are freed. (DEDUCED, log entry 41) -/
def execSffree (core : Nat) (mask : DWord) (s : State) : Out :=
  .next (s.updCore core fun c => { c with recs := c.recs.filter fun (k, _) => !(decide (k < 16) && bit mask k) })

/-! ### RAYCMD (R385) -/

/-- A command on a slot whose ray meets what it needs; else REFUSED is set and nothing changes.
(DEDUCED, log entry 74) -/
def raycmd (core rslot : Nat) (needs : Ray → Bool) (f : State → Ray → State) (s : State) : Out :=
  match s.ray core rslot with
  | some r =>
    if needs r then .next (f (s.updCore core fun c => { c with refused := false }) r)
    else .next (s.updCore core fun c => { c with refused := true })
  | none => .next (s.updCore core fun c => { c with refused := true })

/-- RAYCMD SELECT. -/
def execRaycmdSelect (core rslot : Nat) (s : State) : Out :=
  raycmd core rslot (·.parked.isSome) (fun s _ => s.updCore core fun c => { c with selected := some rslot }) s

/-- The clause that a ray holds, once RAYWIN has moved lanes (R21, R22, R386): the entering lanes that still stand at its present
word are in it, if that word is the issue address and such lanes are left; else the ray goes on at its vpc and leaves the
clause, which ends it. (DEDUCED, log entry 105) -/
def Ray.rejoin (r : Ray) : Ray :=
  match r.th.clause with
  | none => r
  | some c =>
    if r.vpcWritten = 0 then r
    else
      let ent := c.entering &&& r.th.lanesAt c.pc
      { r with th := { r.th with
          clause := if r.th.issue = some c.pc ∧ ent ≠ 0 then some { c with entering := ent } else none } }

/-- A ray unparked: the checks of what RAYWIN wrote come first, as precise traps (R386), until what it wrote passes them; then it goes on, and a PARK
asked for meanwhile is taken at the boundary it stands at (R390). Either way a ray that the loupe had parked has both counts 0 (R258). -/
def State.resumeRay (s : State) (core rslot : Nat) (r : Ray) : State :=
  let s := s.updCore core fun c => { c with selected := if c.selected = some rslot then none else c.selected }
  match (if r.rewritten then r.rewriteCause else none) with
  | some c => (s.updRay core rslot Ray.recount).takeTrap core rslot .clauseTrap ⟨c, 0, (r.th.issue).getD 0, r.th.lanesAt ((r.th.issue).getD 0), 0, 0⟩
  | none =>
    let r' := r.rejoin
    (((s.leftClause r r').setRay core rslot { r' with rewritten := false, vpcWritten := 0 }).unpark core rslot).parkIfDue core rslot

/-- RAYCMD RESUME (R385). -/
def execRaycmdResume (core rslot : Nat) (s : State) : Out :=
  raycmd core rslot (·.parked.isSome) (fun s r => s.resumeRay core rslot r) s

/-- The ray's held clause past its present instruction: nothing of it is done, and after the last the clause ends.
(DEDUCED, log entry 42) -/
def Ray.skip (r : Ray) : Ray :=
  let n := match r.heldInstr with | some i => i.size | none => 1
  let t := { (r.th.advance n).push Latch.zero with retired := r.th.retired }
  { r with th := if t.clauseOver then { t with clause := none } else t }

/-- RAYCMD RESUME.SKIP: past the trapping instruction. (DEDUCED, log entry 42) -/
def execRaycmdResumeSkip (core rslot : Nat) (s : State) : Out :=
  raycmd core rslot (fun r => r.parked == some .runTrap) (fun s r0 =>
    let r := r0.rejoin.skip
    ((s.leftClause r0 r).setRay core rslot r).resumeRay core rslot r) s

/-- RAYCMD PARK; of a ray that has ended it parks nothing (R380). (DEDUCED, log entry 74) -/
def execRaycmdPark (core rslot : Nat) (s : State) : Out :=
  raycmd core rslot (fun _ => true) (fun s r => (s.setRay core rslot { r with parkReq := true }).parkIfDue core rslot) s

/-- RAYCMD TERM.RAY (R387, R392): the beam then completes with RESULT 2, unless the ray had already ended of itself.
(DEDUCED, log entry 39) -/
def execRaycmdTermRay (core rslot : Nat) (s : State) : Out :=
  raycmd core rslot (fun _ => true) (fun s r =>
    if r.th.live = 0 then s
    else (s.updBeam r.l r.pos fun b => { b with result := if b.result = 0 then 2 else b.result }).killRay core rslot) s

/-- RAYCMD TERM.BEAM (R387). -/
def execRaycmdTermBeam (core rslot : Nat) (s : State) : Out :=
  raycmd core rslot (fun _ => true) (fun s r => s.termBeam r.l r.pos 2) s

/-! ### Terminating a context (R387) -/

/-- One entry of a faulted context: a beam is terminated, any other entry that is not FINAL ends aborted. -/
def State.abortEntry (s : State) (l pos : Nat) : State :=
  match s.entry l pos with
  | none => s
  | some (_, e) =>
    match e.state with
    | .final => s
    | .running | .saved => s.termBeam l pos 3
    | _ => s.finalEntry l pos e 3 8 0x3FF

/-- The context is marked faulted, and every taken entry of its launches ends (R317, R387). -/
def State.faultCtx (s : State) (ctx : Nat) : State :=
  let s := s.updCtx ctx fun c => { c with faulted := true }
  s.launches.foldl (fun s (l, x) =>
    if x.ctx = ctx ∧ ¬ x.isOver then x.entries.foldl (fun s (pos, _) => s.abortEntry l pos) s else s) s

/-- RAYCMD TERM.CTX (R387). -/
def execRaycmdTermCtx (core rslot : Nat) (s : State) : Out :=
  raycmd core rslot (fun _ => true) (fun s r => s.faultCtx (s.ctxOf r.l)) s

/-! ### XLATE and TLBINV (R384, R388) -/

/-- XLATE (R388): 1 retries the walk of the outstanding fault, 0 fails the access (R172, R173). -/
def execXlate (core : Nat) (v : DWord) (s : State) : Out :=
  match (s.core core).xfault with
  | none => .next s
  | some q =>
    if bit v 0 then .next (s.serveWalk q)
    else .next ((s.updCore core fun c => { c with xfault := none }).endWalk q [q.va / 65536])

/-- TLBINV of one page (R384). -/
def execTlbinvPage (core ctx : Nat) (va : DWord) (s : State) : Out :=
  .next (s.updCore core fun c => { c with tlb := c.tlb.filter fun e =>
    !(e.ctx == ctx && decide (e.va ≤ va.toNat) && decide (va.toNat < e.va + e.size)) })

/-- TLBINV of a context. -/
def execTlbinvContext (core ctx : Nat) (s : State) : Out :=
  .next (s.updCore core fun c => { c with tlb := c.tlb.filter fun e => e.ctx != ctx })

/-- TLBINV of the whole TLB. -/
def execTlbinvAll (core : Nat) (s : State) : Out := .next (s.updCore core fun c => { c with tlb := [] })

/-! ### RAYWIN (R386) -/

/-- One lane of a list of lane values changed. -/
def setLane {α : Type} (l : List α) (d : α) (i : Nat) (x : α) : List α := laneTab fun k => if k = i then x else laneGet l d k

/-- Half of a 64-bit register replaced. -/
def setHalf (x : DWord) (high : Bool) (w : Nat) : DWord :=
  BitVec.ofNat 64 (if high then x.toNat % 2 ^ 32 + w * 2 ^ 32 else x.toNat / 2 ^ 32 * 2 ^ 32 + w)

/-- Byte j of a word. -/
def byteOf (w j : Nat) : Nat := nbits w (8 * j + 7) (8 * j)

/-- A latch of a list that may be shorter than four. -/
def setLatch (ls : List Latch) (j : Nat) (f : Latch → Latch) : List Latch :=
  (List.range 4).map fun i => let l := ls.getD i Latch.zero; if i = j then f l else l

/-- The lantern save registers with one word of their 256 bytes written (R373). -/
def LanternSave.write (v : LanternSave) (o w : Nat) : LanternSave :=
  if o < 0x80 then { v with vpc := setLane v.vpc 0 (o / 4) (BitVec.ofNat 32 w) }
  else if o < 0x9C then { v with p := SMap.put v.p ((o - 0x80) / 4) (BitVec.ofNat 32 w) }
  else if o = 0x9C then { v with live := BitVec.ofNat 32 w }
  else if o < 0xC0 then
    { v with level := laneTab fun k => if k / 4 = (o - 0xA0) / 4 then byteOf w (k % 4) else laneGet v.level 0 k }
  else if o = 0xC0 then { v with inHandler := w.testBit 7, vector := w % 64 }
  else v

/-- A parked ray with one aligned word of its frame (R357) written as R386 allows. (DEDUCED, log entry 43) -/
def Ray.writeWord (r : Ray) (o w : Nat) : Ray :=
  let t := r.th
  let a := t.allot
  let x : Word := BitVec.ofNat 32 w
  if o < 0x80 then
    if bit t.live (o / 4) then { r with th := { t with vpc := setLane t.vpc 0 (o / 4) x } } else r
  else if o < 0xA0 then
    { r with th := { t with level := laneTab fun k => if k / 4 = (o - 0x80) / 4 then byteOf w (k % 4) else laneGet t.level 0 k } }
  else if o < 0xC0 then
    { r with th := { t with flags := laneTab fun k =>
        if k / 4 = (o - 0xA0) / 4 then BitVec.ofNat 6 (byteOf w (k % 4)) else laneGet t.flags 0 k } }
  else if o < 0xDC then { r with th := { t with p := SMap.put t.p ((o - 0xC0) / 4) x } }
  else if o = 0xE4 then { r with th := { t with fmode := BitVec.ofNat 32 (w % 128) } }
  else if o < 0x100 then r
  else if o < 0x1C0 then
    let n := (o - 0x100) / 8
    { r with th := { t with s := SMap.put t.s n (setHalf (SMap.get t.s 0 n) (o % 8 == 4) w) } }
  else if o < 0x5C0 then
    if t.clause.isNone then r
    else
      let j := (o - 0x1C0) / 256
      let i := (o - 0x1C0) % 256 / 8
      { r with th := { t with latches := setLatch t.latches j fun l =>
          { l with vals := setLane l.vals 0 i (setHalf (laneGet l.vals 0 i) (o % 8 == 4) w) } } }
  else if o < 0x5D0 then
    if t.clause.isNone then r
    else { r with th := { t with latches := setLatch t.latches ((o - 0x5C0) / 4) fun l => { l with mark := x } } }
  else if o < 0x600 then r
  else if o < 0x700 then { r with lantern := r.lantern.write (o - 0x600) w }
  else if o < 0x800 then r
  else if o < 0x800 + 128 * a then
    let k := (o - 0x800) / 128
    { r with th := { t with v := SMap.put t.v k (setLane (SMap.get t.v [] k) 0 ((o - 0x800) % 128 / 4) x) } }
  else if o < 0x800 + 132 * a then { r with th := { t with marks := SMap.put t.marks ((o - 0x800 - 128 * a) / 4) x } }
  else if o < 0x800 + 132 * a + 128 * t.depth then
    let b := o - 0x800 - 132 * a
    { r with th := { t with ret := SMap.put t.ret (b / 128) (setLane (SMap.get t.ret [] (b / 128)) 0 (b % 128 / 4) x) } }
  else r

/-- The words that a write of some bytes at an offset makes of a ray's frame. (DEDUCED, log entry 43) -/
def Ray.writeBytes (r : Ray) (off : Nat) (bs : List Byte) : Ray :=
  let image := r.frame 0
  (List.range ((off % 4 + bs.length + 3) / 4)).foldl (fun r j =>
    let o := off / 4 * 4 + 4 * j
    r.writeWord o (leNat ((List.range 4).map fun i =>
      if off ≤ o + i ∧ o + i < off + bs.length then bs.getD (o + i - off) 0 else image.getD (o + i) 0))) r

/-- RAYWIN (R386): a write of size bytes to the selected parked ray's state; its checks come at resume. -/
def execRaywin (core off size : Nat) (v : DWord) (s : State) : Out :=
  match (s.core core).selected with
  | none => .next s
  | some rslot =>
    match s.ray core rslot with
    | some r =>
      if r.parked.isNone then .next s
      else
        let n := min size 8
        let wrote := maskOf fun i => bit r.th.live i && decide (4 * i < off + n) && decide (off < 4 * i + 4)
        .next (s.setRay core rslot { r.writeBytes off (leBytes n v.toNat) with rewritten := true, vpcWritten := r.vpcWritten ||| wrote })
    | none => .next s

end Sys2Proof.Machine
end

