-- ==== Sys2Proof/Machine/Host.lean ====
section
/-!
DEFINITION. The host function (R395 to R404, R408, R409): the commands of R398 as events of a command block's address,
trust and its loss (R400, R401), the zeroing of R402, flash ranges (R403), the log (R414), and requests over a port.
-/
namespace Sys2Proof.Machine

/-! ### Loss of trust (R401) -/

/-- The contexts of a function. -/
def State.ctxsOf (s : State) (fn : Nat) : List Nat := (s.ctxs.filter fun (_, c) => c.fn == fn).map (·.1)

/-- Every queue of a context sets HALT. -/
def State.haltQueues (s : State) (ctx : Nat) : State :=
  s.queues.foldl (fun s (q, x) => if x.ctx = ctx then (s.updQueue q fun x => { x with halt := true }).syncQueue q else s) s

/-- The steps of a loss of trust: HALT, the cut of the interface from host memory, the contexts faulted, ERROR, vector 2. -/
def State.loseTrust (s : State) (fn : Nat) : State :=
  let s := (s.ctxsOf fn).foldl (fun s k => s.haltQueues k) s
  let s := (s.ctxsOf fn).foldl (fun s k => s.updCtx k fun c => { c with cut := true }) s
  let s := s.updFn fn fun f => { f with tdisp := .error, session := false }
  let s := (s.ctxsOf fn).foldl (fun s k => s.faultCtx k) s
  (s.raiseMsi fn 2).log 0 0x08 0x08 0

/-- TRUST_LOSS (R400, R401): only an interface that has been locked has trust to lose. -/
def execTrustLoss (fn : Nat) (s : State) : Out :=
  if fn ≤ 15 ∧ (s.fnOf fn).everLocked ∧ (s.fnOf fn).tdisp ≠ .error then .next (s.loseTrust fn) else .next s

/-- The records of an image's section table (R406): type, offset, length and digest. -/
structure ImageSection where
  type : Nat
  ofs : Nat
  len : Nat
  digest : List Byte
  deriving DecidableEq, Repr

/-- A field of n bytes of an image. -/
def imageN (bs : List Byte) (o n : Nat) : Nat := leNat ((bs.drop o).take n)

/-- The sections an image lists. -/
def imageSections (bs : List Byte) : List ImageSection :=
  (List.range (imageN bs 0x0C 4)).map fun j =>
    let o := 0x80 + 64 * j
    ⟨imageN bs o 4, imageN bs (o + 8) 8, imageN bs (o + 16) 8, (bs.drop (o + 24)).take 32⟩

/-- The bytes of an image's sections of a type. -/
def imageSection (bs : List Byte) (type : Nat) : List Byte :=
  (imageSections bs).flatMap fun x => if x.type = type then (bs.drop x.ofs).take x.len else []

/-- What the configuration records say, as numbers (R412): SVN, boot record, range keys, retry table, and which records are missing. -/
def Module.recordNumbers (m : Module) : List Nat :=
  [m.svn, match m.confirmedSlot with | some k => k + 1 | none => 0, match m.trialSlot with | some k => k + 1 | none => 0,
   b2n m.shared, m.sharedAddr, m.retrySteps] ++ m.absent.map CfgRecord.ctorIdx ++ m.ranges.flatMap fun (a, n) => [a, n]

/-- What a measurement index covers (R400). -/
def State.measures (s : State) (index : Nat) : List Byte :=
  match index with
  | 1 => Config.microcode
  | 2 => imageSection s.module.image 1
  | 3 => s.module.image.take 0x480
  | 4 => imageSection s.module.image 3
  | 5 => Config.configBytes s.module.recordNumbers (s.module.ownerKey.getD [])
  | _ => s.module.ownerKey.getD []

/-- The module has an identity: a seed, with the helper data that it is rebuilt from (R412). -/
def Module.seeded (m : Module) : Bool := m.seedOk && !m.absent.contains .helper

/-- SPDM_REQUEST (R400): sessions, measurements, and the TDISP states; a change of state raises vector 2. A module without an
identity answers none of it (R412). An interface in ERROR leaves it by a stop. (PRESUMED, log entry 96) -/
def execSpdmRequest (fn : Nat) (msg : SpdmMsg) (s : State) : Out :=
  let f := s.fnOf fn
  if 15 < fn || !s.module.seeded then .next s
  else match msg with
  | .keyExchange => .next (if f.tdisp = .error then s else s.updFn fn fun f => { f with session := true })
  | .heartbeat => .next s
  | .measurement j =>
    if 1 ≤ j ∧ j ≤ 6 then .next (s.updFn fn fun f => { f with measured := some (j, Config.measure j (s.measures j)) }) else .next s
  | .endSession =>
    if f.everLocked ∧ f.tdisp ≠ .error ∧ f.session then .next (s.loseTrust fn)
    else .next (s.updFn fn fun f => { f with session := false })
  | .lockInterface =>
    if f.session ∧ f.tdisp = .unlocked then .next ((s.updFn fn fun f => { f with tdisp := .locked, everLocked := true }).raiseMsi fn 2)
    else .next s
  | .startInterface =>
    if f.session ∧ f.tdisp = .locked then .next ((s.updFn fn fun f => { f with tdisp := .run }).raiseMsi fn 2) else .next s
  | .stopInterface =>
    match f.tdisp with
    | .run => .next (s.loseTrust fn)
    | .locked | .error => .next ((s.updFn fn fun f => { f with tdisp := .unlocked }).raiseMsi fn 2)
    | .unlocked => .next s

/-! ### Command blocks (R398) -/

/-- A command block as read; STATUS, in bytes 2 and 3, is the device's. -/
structure Block where
  op : Nat
  clean : Bool
  args : List Nat
  deriving DecidableEq, Repr

def State.block (s : State) (blk : Nat) : Block :=
  let bs := s.hostRead blk 64
  { op := leNat (bs.take 1), clean := leNat ((bs.take 2).drop 1) == 0 && leNat ((bs.take 8).drop 4) == 0, args := (List.range 7).map fun j => leNat ((bs.drop (8 + 8 * j)).take 8) }

def Block.arg (b : Block) (j : Nat) : Nat := b.args.getD j 0

/-- The end of a command: STATUS in the block, CMDSTAT, vector 0. -/
def State.endCmd (s : State) (fn blk status : Nat) : State :=
  ((s.hostWrite (blk + 2) (leBytes 2 status)).updFn fn fun f => { f with busy := false, status := status, doing := none }).raiseMsi fn 0

/-- A command runs: a write of CMDADDR starts it unless the function is busy, the address is not aligned to 64, or the
interface has lost trust. PF0 commands and the module's state are checked first; f answers the state and the status.
(DEDUCED, log entry 46) -/
def command (op : Nat) (pf0 recovery : Bool) (fn : Nat) (blk : DWord) (f : State → Block → State × Nat) (s : State) : Out :=
  let b := s.block blk.toNat
  let m := s.module
  if (s.fnOf fn).busy || blk.toNat % 64 != 0 || !s.answers fn || b.op != op then .next s
  else
    let s := s.updFn fn fun x => { x with cmdAddr := blk.toNat }
    if pf0 && fn != 0 then .next (s.endCmd fn blk.toNat 2)
    else if m.boot == .rom || m.boot == .failed || m.tripped || (m.boot == .recovery && !recovery) then .next (s.endCmd fn blk.toNat 2)
    else if !b.clean then .next (s.endCmd fn blk.toNat 1)
    else
      let (s, st) := f s b
      .next (s.endCmd fn blk.toNat st)

/-- A context of the function: its record, or the status that refuses it. -/
def State.ownCtx (s : State) (fn k : Nat) : Except Nat Ctx :=
  match SMap.get? s.ctxs k with
  | none => .error 1
  | some c => if c.fn = fn then .ok c else .error 2

/-- A context, and a queue, of another function (R398). -/
def State.foreignCtx (s : State) (fn k : Nat) : Bool := match SMap.get? s.ctxs k with | some c => c.fn != fn | none => false
def State.foreignQueue (s : State) (fn q : Nat) : Bool := match SMap.get? s.queues q with | some x => s.foreignCtx fn x.ctx | none => false

/-- A queue of the function. -/
def State.ownQueue (s : State) (fn q : Nat) : Except Nat Queue :=
  match SMap.get? s.queues q with
  | none => .error 1
  | some x => match s.ownCtx fn x.ctx with
    | .ok _ => .ok x
    | .error e => .error e

/-! ### Contexts (R336, R402) -/

/-- A context record breaks its limits (R257, R336); set reserved bits have no effect (R10). -/
def ctxBad (w : Nat) : Bool :=
  let lim (lo x : Nat) : Bool := x != 63 && (decide (x < lo) || decide (40 < x))
  nbits w 63 0 % 2 ^ 20 != 0 || decide (hbmEnd ≤ nbits w 63 0) || lim 16 (nbits w 178 173) || lim 10 (nbits w 172 167) ||
    decide (4096 < nbits w 191 179) || badAddr (nbits w 255 192) 32 || badAddr (nbits w 319 256) 64 ||
    nbits w 383 320 % 2 ^ 20 != 0 || decide (nbits w 415 384 < 8) || decide (hbmEnd < nbits w 383 320 + nbits w 415 384 * 2 ^ 20)

/-- The context of a record. -/
def ctxOfRecord (fn w : Nat) : Ctx :=
  { fn := fn, flCount := nbits w 511 464, flBase := nbits w 463 416, saveSize := nbits w 415 384, save := nbits w 383 320
    lntab := nbits w 319 256, rbt := nbits w 255 192, rbtn := nbits w 191 179, waitLim := nbits w 178 173, frontLim := nbits w 172 167
    slice := nbits w 166 151, maxPri := nbits w 150 149, dq := if nbits w 148 148 = 1 then some (nbits w 147 137) else none
    root := nbits w 63 0, faulted := false, cut := false, suspended := false, serials := 0, lnmask := 0, maskAt := (0, 0, 0), lnpend := 0, vecs := [], rooms := [] }

/-- CREATE_CTX (R336, R408). -/
def execCreateCtx (fn : Nat) (blk : DWord) (s : State) : Out :=
  command 0x01 false false fn blk (fun s b =>
    let k := b.arg 0
    let w := leNat (s.hostRead (b.arg 1) 64)
    if s.module.ownerKey.isNone then (s, 6)
    else if s.foreignCtx fn k then (s, 2)
    else if 1023 < k ∨ SMap.has s.ctxs k ∨ ctxBad w then (s, 1)
    else ({ s with ctxs := SMap.put s.ctxs k (ctxOfRecord fn w) }, 0)) s

/-- The leaves below a table entry: whether it is a host page, its base and its size. -/
def State.leaves (s : State) (table count : Nat) (size : Option Nat) (below : Nat → List (Bool × Nat × Nat)) : List (Bool × Nat × Nat) :=
  (List.range count).flatMap fun i =>
    let e := s.homeN (table + 8 * i) 8
    if pteBad e then []
    else if nbits e 1 1 = 1 then (match size with | some n => [(nbits e 4 4 == 1, nbits e 51 8 * 256, n)] | none => [])
    else below (nbits e 51 8 * 256)

/-- The pages that a context's tables map (R274, R402). (DEDUCED, log entry 62) -/
def State.mappedPages (s : State) (c : Ctx) : List (Bool × Nat × Nat) :=
  s.leaves c.root 131072 none fun t1 => s.leaves t1 512 (some (2 ^ 30)) fun t2 => s.leaves t2 512 (some (2 ^ 21)) fun t3 =>
    s.leaves t3 32 (some (2 ^ 16)) fun _ => []

/-- Every copy of some bytes leaves the caches. -/
def State.invalidate (s : State) (k n : Nat) : State :=
  let out (q : Nat) : Bool := decide (q < k) || decide (k + n ≤ q)
  let drop (c : Cache) : Cache := { c with bytes := c.bytes.filter fun (q, _) => out q }
  { s with
    cores := SMap.mapVals (fun _ (c : Core) => { c with l1 := drop c.l1, ro := c.ro.filter fun (q, _) => out q }) s.cores
    clusters := SMap.mapVals (fun _ (c : Cluster) => { c with cache := drop c.cache }) s.clusters
    l2 := SMap.mapVals (fun _ c => drop c) s.l2 }

/-- A range of HBM zeroed, in memory and in every cache, its poison gone. -/
def State.zeroHbm (s : State) (a n : Nat) : State :=
  { s.invalidate a n with
    hbm := s.hbm.zeroRange a n
    poison := s.poison.filter fun (u, w) => !(u == 0 && decide (a ≤ 32 * w) && decide (32 * w + 32 ≤ a + n)) }

/-- What firmware does to an HBM page of 64 KiB that it moves to another context, before it maps it there (R402): the page is
zeroed. (DEDUCED, log entry 62) -/
def State.movePage (s : State) (page : Nat) : State := s.zeroHbm (page * 65536) 65536

/-- PEER_REQUEST (R288, R364): a read changes nothing; a write reaches its home, or host memory, and leaves the GEN of a bound
object unspecified (R187); after a loss of trust of its interface it is aborted. A peer's LNSEND goes to the lantern unit,
whatever the interface of the function it came in by. The host's masking of a vector (R399) and firmware's move of a page to
another context (R402) come as requests too.
(DESIGN CHOICE, log entry 60; DEDUCED, log entry 62; DESIGN CHOICE, log entry 75; DEDUCED, log entry 94) -/
def execPeerRequest (fn : Nat) (req : PeerReq) (s : State) : Out :=
  match req with
  | .readHbm _ _ => .next s
  | .writeHbm a bs =>
    if !s.answers fn || decide (hbmEnd < a + bs.length) then .next s
    else .next ((s.storeHome (physKey false a) bs).spoilGen [(physKey false a, bs.length)])
  | .writeHost a bs => if !s.answers fn then .next s else .next ((s.hostWrite a bs).spoilGen [(physKey true a, bs.length)])
  | .lantern m ctx vec payload => .next { s with lnsends := s.lnsends ++
      [⟨.peer m, BitVec.ofNat 64 (ctx % 1024 * 64 + vec % 64), payload⟩] }
  | .mask vec on => .next (if s.answers fn && decide (vec < 64) then s.updFn fn fun f => f.mask vec on else s)
  | .movePage page => .next (if 65536 * (page + 1) ≤ hbmEnd then s.movePage page else s)

/-- The clusters and cores that hold anything. -/
def State.clusterList (s : State) : List Nat := s.clusters.map (·.1)

/-- A context gives back a bank (R269): a switch of it that is under way is given up, and it is switched to CACHE. -/
def State.returnBank (s : State) (cl ctx b : Nat) : State :=
  let c := s.cluster cl
  let mine := (c.bank b).owner = some ctx ∨ c.switches.any fun w => w.banks.contains b && w.ctx == some ctx
  if mine then
    let less (w : Switch) : Switch := { w with banks := w.banks.filter (· != b) }
    (s.updCluster cl fun c =>
      { c with switches := (c.switches.map less).filter fun w => !w.banks.isEmpty }).switchAlone cl b .cache false
  else s

/-- Everything a context owned is zeroed or given back (R269, R372, R402): its dirty sectors are written back and its lines
invalidated, then its pages, save area, banks, accumulator tiles, lantern state and TLB entries; its queues and launches
are forgotten. (DEDUCED, log entry 62) -/
def State.zeroCtx (s : State) (ctx : Nat) (c : Ctx) : State :=
  let pages := s.mappedPages c
  let s := s.cores.foldl (fun s (k, _) => s.publishAll k) s
  let s := pages.foldl (fun s (host, a, n) => if host then s.invalidate (physKey true a) n else s.zeroHbm a n) s
  let s := s.zeroHbm c.save (c.saveSize * 2 ^ 20)
  let s := s.clusterList.foldl (fun s cl => (List.range 64).foldl (fun s b => s.returnBank cl ctx b) s) s
  { s with
    clusters := SMap.mapVals (fun _ (x : Cluster) => { x with tiles := x.tiles.filter fun (_, t) => t.owner != some ctx }) s.clusters
    cores := SMap.mapVals (fun _ (x : Core) => { x with tlb := x.tlb.filter fun e => e.ctx != ctx }) s.cores
    queues := s.queues.filter fun (_, x) => x.ctx != ctx
    launches := s.launches.filter fun (_, x) => x.ctx != ctx
    poison := s.poison.filter fun (u, t) => !(decide (145 ≤ u) && ((s.cluster (u - 145)).tile t).owner == some ctx)
    ctxs := SMap.del s.ctxs ctx }

/-- Nothing of a context runs any more. -/
def State.ctxQuiet (s : State) (ctx : Nat) : Bool :=
  s.beams.all (fun (_, b) => b.ctx != ctx) && s.saved.all (fun (_, v) => v.beam.ctx != ctx) &&
    s.launches.all (fun (_, x) => x.ctx != ctx || x.isOver)

/-- A long command as it stands: it starts, or ends once it may. The block has been read as the command started.
(DEDUCED, log entry 46) -/
def longCommand (op : Nat) (pf0 recovery : Bool) (fn : Nat) (blk : DWord) (target : State → Block → State × Except Nat Nat)
    (start : State → Nat → State) (ready : State → Nat → Bool) (finish : State → Nat → State) (s : State) : Out :=
  let f := s.fnOf fn
  match f.doing with
  | some (o, k) =>
    if o = op ∧ f.cmdAddr = blk.toNat ∧ ready s k then .next ((finish s k).endCmd fn blk.toNat 0) else .next s
  | none =>
    let b := s.block blk.toNat
    let m := s.module
    if f.busy || blk.toNat % 64 != 0 || !s.answers fn || b.op != op then .next s
    else
      let s := s.updFn fn fun x => { x with cmdAddr := blk.toNat }
      if pf0 && fn != 0 then .next (s.endCmd fn blk.toNat 2)
      else if m.boot == .rom || m.boot == .failed || m.tripped || (m.boot == .recovery && !recovery) then .next (s.endCmd fn blk.toNat 2)
      else if !b.clean then .next (s.endCmd fn blk.toNat 1)
      else match target s b with
        | (s, .error e) => .next (s.endCmd fn blk.toNat e)
        | (s, .ok k) => .next ((start s k).updFn fn fun x => { x with busy := true, doing := some (op, k) })

/-- A context is terminated and its queues destroyed (R387, R398). -/
def State.killCtx (s : State) (k : Nat) : State :=
  let s := { s with queues := SMap.mapVals (fun _ (x : Queue) => if x.ctx = k then { x with destroyed := true, barriers := [] } else x) s.queues }
  s.faultCtx k

/-- A context of which nothing runs any more is gone, its resources zeroed (R402). -/
def State.endCtx (s : State) (k : Nat) : State := match SMap.get? s.ctxs k with | some c => s.zeroCtx k c | none => s

/-- DESTROY_CTX (R387, R398, R402): the context is terminated and its queues destroyed; once nothing of it runs, its
resources are zeroed and the command ends. -/
def execDestroyCtx (fn : Nat) (blk : DWord) (s : State) : Out :=
  longCommand 0x02 false false fn blk
    (fun s b => (s, match s.ownCtx fn (b.arg 0) with | .ok _ => .ok (b.arg 0) | .error e => .error e))
    State.killCtx State.ctxQuiet State.endCtx s

/-! ### Queues (R337, R343, R398) -/

/-- A queue record breaks its limits; set reserved bits have no effect (R10). -/
def queueBad (w : Nat) : Bool :=
  badAddr (nbits w 63 0) 4096 || nbits w 68 64 < 4 ||
    decide (16 < nbits w 68 64)

/-- CREATE_QUEUE (R337), with the vector of ARG2[5:0]; halted for a context whose interface has lost trust, of which no packet is
taken (R401). (DEDUCED, log entry 45) -/
def execCreateQueue (fn : Nat) (blk : DWord) (s : State) : Out :=
  command 0x03 false false fn blk (fun s b =>
    let q := b.arg 0
    let w := leNat (s.hostRead (b.arg 1) 64)
    let vec := b.arg 2 % 64
    if s.foreignQueue fn q then (s, 2)
    else if 2047 < q ∨ SMap.has s.queues q ∨ queueBad w ∨ (vec ≠ 0 ∧ vec < 3) then (s, 1)
    else match s.ownCtx fn (nbits w 89 80) with
      | .error e => (s, e)
      | .ok c =>
        if c.maxPri < nbits w 70 69 then (s, 1)
        else
          let x : Queue :=
            { addr := b.arg 1, base := nbits w 63 0, log2n := nbits w 68 64, pri := nbits w 70 69, dev := nbits w 71 71 == 1
              ctx := nbits w 89 80, wr := 0, rd := 0, halt := s.cutOff (nbits w 89 80), vector := vec, destroyed := false, published := [], header := 0
              barriers := [], blocked := false }
          ({ s with queues := SMap.put s.queues q x }.syncQueue q, 0)) s

/-- DESTROY_QUEUE (R398): no further packet is taken; the command ends once the queue's launches have. -/
def execDestroyQueue (fn : Nat) (blk : DWord) (s : State) : Out :=
  longCommand 0x04 false false fn blk
    (fun s b => (s, match s.ownQueue fn (b.arg 0) with | .ok _ => .ok (b.arg 0) | .error e => .error e))
    (fun s q => s.updQueue q fun x => { x with destroyed := true, barriers := [] })
    (fun s q => s.launches.all fun (_, x) => x.queue != q || x.isOver)
    (fun s q => { s with queues := SMap.del s.queues q }) s

/-- CLEAR_HALT (R343). A queue of a context that has lost its trust stays halted (R401). -/
def execClearHalt (fn : Nat) (blk : DWord) (s : State) : Out :=
  command 0x05 false false fn blk (fun s b =>
    match s.ownQueue fn (b.arg 0) with
    | .error e => (s, e)
    | .ok _ => ((s.updQueue (b.arg 0) fun x => { x with halt := s.cutOff x.ctx }).syncQueue (b.arg 0), 0)) s

/-- SUSPEND (R351, R398): every resident beam of the context is decided on. -/
def execSuspend (fn : Nat) (blk : DWord) (s : State) : Out :=
  command 0x06 false false fn blk (fun s b =>
    match s.ownCtx fn (b.arg 0) with
    | .error e => (s, e)
    | .ok _ =>
      let s := s.updCtx (b.arg 0) fun c => { c with suspended := true }
      ((s.beams.filter fun (_, x) => x.ctx == b.arg 0).foldl (fun s (k, _) => s.decideBeam (k / 2 ^ 32) (k % 2 ^ 32) .suspend) s, 0)) s

/-- RESUME (R398). -/
def execResume (fn : Nat) (blk : DWord) (s : State) : Out :=
  command 0x07 false false fn blk (fun s b =>
    match s.ownCtx fn (b.arg 0) with
    | .error e => (s, e)
    | .ok _ => (s.updCtx (b.arg 0) fun c => { c with suspended := false }, 0)) s

/-! ### The module's own commands -/

/-- An image's bytes break the layout of R406; set reserved bytes have no effect (R10). -/
def imageBad (bs : List Byte) (len kind : Nat) : Bool :=
  imageN bs 0 4 != 1 || imageN bs 4 4 != kind || imageN bs 0x0C 4 == 0 || decide (16 < imageN bs 0x0C 4) || imageN bs 0x10 8 != len ||
    decide (len < 0xF000) || decide (bs.length < len) ||
    (imageSections bs).any fun x => x.type == 0 || decide (5 < x.type) || decide (x.ofs < 0xF000) ||
      x.ofs % 4096 != 0 || decide (len < x.ofs + x.len)

/-- An image's signatures and digests hold (R407): its maker key is one of the two that mask ROM names, MAKERSIG verifies under
it and, in an owned module, OWNERSIG under the owner key, both over bytes 0x0000 to 0x047F, and every section's digest
matches. -/
def State.signed (s : State) (bs : List Byte) : Bool :=
  let pk := (bs.drop 0x40).take 64
  let head := bs.take 0x480
  (Config.shake256 pk == Config.romDigest 0 || Config.shake256 pk == Config.romDigest 1) &&
    Config.verifies pk head ((bs.drop 0x480).take 29792) &&
    (match s.module.ownerKey with | some k => Config.verifies k head ((bs.drop 0x78E0).take 29792) | none => true) &&
    (imageSections bs).all fun x => Config.shake256 ((bs.drop x.ofs).take x.len) == x.digest

/-- STAGE_IMAGE (R407): an accepted image is written to the slot not running, as the trial slot. -/
def execStageImage (fn : Nat) (blk : DWord) (s : State) : Out :=
  command 0x09 true true fn blk (fun s b =>
    let bs := s.hostRead (b.arg 0) (b.arg 1)
    let svn := imageN bs 8 4
    let slot := if s.module.slot = 0 then 1 else 0
    if imageBad bs (b.arg 1) 1 then (s, 1)
    else if !s.signed bs then (s, 4)
    else if svn < s.module.svn then (s, 7)
    else
      let m := s.module
      ({ s with module := { m with
          slots := SMap.put m.slots slot ⟨svn, 1, bs⟩, trialSlot := some slot, absent := m.absent.erase .bootRecord } }, 0)) s

/-- SET_POWER_CAP (R416). -/
def execSetPowerCap (fn : Nat) (blk : DWord) (s : State) : Out :=
  command 0x0A true false fn blk (fun s b =>
    let w := b.arg 0
    if w < 1600 ∨ 3200 < w ∨ w % 50 ≠ 0 then (s, 1) else ({ s with module := { s.module with cap := w } }, 0)) s

/-- READ_LOG (R414): the held records from a sequence number on, packed. -/
def execReadLog (fn : Nat) (blk : DWord) (s : State) : Out :=
  command 0x0B false false fn blk (fun s b =>
    let rs := (s.module.log.filter fun r => decide (b.arg 1 ≤ bits r 63 32)).take (b.arg 2)
    (s.hostWrite (b.arg 0) (rs.flatMap fun r => leBytes 24 r.toNat), 0)) s

/-- The record of FLASH_STATUS (R404): the wear figures are what the flash's are, risen by what it has gone through; a mean is no larger
than the largest. (DESIGN CHOICE, log entry 66) -/
def Module.flashRecord (m : Module) : List Byte :=
  let most := Config.wear 2 + m.peMax
  leBytes 8 m.spare ++ leBytes 8 m.retiredBlocks ++ leBytes 4 most ++ leBytes 4 (min most (Config.wear 3 + m.peMean)) ++
    leBytes 4 (Config.wear 4) ++ leBytes 4 m.flashState ++ leBytes 8 m.uncorr ++ leBytes 8 m.retried ++ zeros 16

/-- FLASH_STATUS (R404). -/
def execFlashStatus (fn : Nat) (blk : DWord) (s : State) : Out :=
  command 0x0C false false fn blk (fun s b => (s.hostWrite (b.arg 0) s.module.flashRecord, 0)) s

/-- A range of flash loses its key (R403): its pages read as never written, and a page that an FWRITE is still programming there
is lost with it. Blocks that are erased for it wear (R404). (DESIGN CHOICE, log entry 97) -/
def State.eraseRange (s : State) (first count : Nat) : State :=
  let lose (o : Op) : Op := match o.kind with
    | .copy c => if c.kind == .fwrite && c.accepted && decide (first ≤ bits c.record 47 0) && decide (bits c.record 47 0 < first + count) then
        { o with kind := .copy { c with err := 0x08 } } else o
    | _ => o
  { s with
    cores := SMap.mapVals (fun _ (c : Core) => { c with ops := c.ops.map lose }) s.cores
    saved := SMap.mapVals (fun _ (v : Saved) => { v with ops := v.ops.map lose }) s.saved
    tick := s.tick + 1
    module := { s.module.worn s.tick with
    flash := s.module.flash.filter fun (k, _) => decide (k < first) || decide (first + count ≤ k)
    ranges := s.module.ranges.filter fun (a, n) => !overlap a n first count } }

/-- ASSIGN_FLASH (R402, R403, R408): the range gets a fresh key; a context that held an overlapping range loses it.
(DEDUCED, log entry 63) -/
def execAssignFlash (fn : Nat) (blk : DWord) (s : State) : Out :=
  command 0x0D true false fn blk (fun s b =>
    let k := b.arg 0
    let first := b.arg 1
    let count := b.arg 2
    if s.module.ownerKey.isNone then (s, 6)
    else match s.ownCtx fn k with
    | .error e => (s, e)
    | .ok _ =>
      if 2 ^ 34 < first + count then (s, 1)
      else
        let s := s.eraseRange first count
        let s := { s with
          ctxs := SMap.mapVals (fun _ (c : Ctx) => if overlap c.flBase c.flCount first count then { c with flBase := 0, flCount := 0 } else c) s.ctxs
          module := { s.module with ranges := (first, count) :: s.module.ranges, absent := s.module.absent.erase .rangeKeys } }
        (s.updCtx k fun c => { c with flBase := first, flCount := count }, 0)) s

/-- ERASE_FLASH (R403). -/
def execEraseFlash (fn : Nat) (blk : DWord) (s : State) : Out :=
  command 0x0E true false fn blk (fun s b =>
    if 2 ^ 34 < b.arg 0 + b.arg 1 then (s, 1) else (s.eraseRange (b.arg 0) (b.arg 1), 0)) s

/-- NONCE (R398, R409): 32 bytes of the random source. -/
def execNonce (fn : Nat) (blk : DWord) (s : State) : Out :=
  command 0x0F true true fn blk (fun s b =>
    let bs := (List.range 32).map fun i => Config.random s.tick i
    ({ s.bump with module := { s.module with nonce := some bs } }.hostWrite (b.arg 0) bs, 0)) s

/-- The SHAKE256 digest of IDENT's serial (R409). -/
def serialDigest : List Byte := Config.shake256 (leBytes 4 Config.serial.toNat)

/-- A key's signature over the latest nonce and the serial digest (R409). -/
def State.stated (s : State) (key sig : List Byte) : Bool :=
  match s.module.nonce with | some n => Config.verifies key (n ++ serialDigest) sig | none => false

/-- A change of HEALTH raises vector 2 (R399). -/
def State.healthChanged (s : State) : State := s.raiseAll 2

/-- Every context is gone as by DESTROY_CTX, all HBM is zeroed, all flash erased, and the module unowned (R409).
(DEDUCED, log entry 64) -/
def State.eraseAll (s : State) : State :=
  let s := (s.ctxs.map (·.1)).foldl State.endCtx s
  let s := s.zeroHbm 0 hbmEnd
  { s.bump with module := { s.module.worn s.tick with flash := [], ranges := [], ownerKey := none, absent := s.module.absent.erase .ownerKey } }

/-- RELEASE_OWNER (R409): a statement of nonce, serial digest and the owner key's signature over both, 29,856 bytes. A nonce serves one command.
Every context is terminated; once nothing of any of them runs, they are gone and the command ends. (DEDUCED, log entry 64) -/
def execReleaseOwner (fn : Nat) (blk : DWord) (s : State) : Out :=
  longCommand 0x10 true true fn blk
    (fun s b => match s.module.ownerKey with
      | none => (s, .error 6)
      | some key =>
        let bs := s.hostRead (b.arg 0) 29856
        let ok := s.module.nonce == some (bs.take 32) && (bs.drop 32).take 32 == serialDigest && s.stated key (bs.drop 64)
        ({ s with module := { s.module with nonce := none } }, if ok then .ok 0 else .error 4))
    (fun s _ => (s.ctxs.map (·.1)).foldl State.killCtx s) (fun s _ => s.ctxs.all fun (k, _) => s.ctxQuiet k)
    (fun s _ => s.eraseAll.healthChanged) s

/-- CLAIM_OWNER (R409): a new 64-byte key and that key's signature over the latest nonce and the serial digest, 29,856 bytes. -/
def execClaimOwner (fn : Nat) (blk : DWord) (s : State) : Out :=
  command 0x11 true true fn blk (fun s b =>
    if s.module.ownerKey.isSome then (s, 6)
    else if !(s.fnOf 0).session then (s, 2)
    else
      let bs := s.hostRead (b.arg 0) 29856
      let ok := s.stated (bs.take 64) (bs.drop 64)
      let s := { s with module := { s.module with nonce := none } }
      if ok then ({ s with module := { s.module with ownerKey := some (bs.take 64), absent := s.module.absent.erase .ownerKey } }.healthChanged, 0) else (s, 4)) s

/-- A host write to an offset without behaviour of its own has no effect (R396). A CMDADDR write whose block holds an OP
that R398 does not list ends with status 0x0001. (DEDUCED, log entry 46) -/
def execRegisterWriteOther (fn off : Nat) (v : DWord) (s : State) : Out :=
  let op := (s.block v.toNat).op
  if off = 0x100 ∧ (op = 0 ∨ 0x11 < op) then command op false true fn v (fun s _ => (s, 1)) s else .next s

end Sys2Proof.Machine
end

