-- ==== Sys2Proof/Machine/Boot.lean ====
section
/-!
DEFINITION. Boot, the watchdog and shared boot (R405 to R412), errors and links (R413, R415), power and cooling (R416).
-/
namespace Sys2Proof.Machine

/-- Clocks of a second (R350: 1.9 GHz). -/
def second : Nat := 1900000000

/-- What a reset keeps of the module: what lives in flash (R412, R414). The rest is as at reset. -/
def Module.afterReset (m : Module) : Module :=
  { Module.reset with
    slots := m.slots, confirmedSlot := m.confirmedSlot, trialSlot := m.trialSlot, shared := m.shared, sharedAddr := m.sharedAddr
    sharedFails := m.sharedFails, absent := m.absent, svn := m.svn, ownerKey := m.ownerKey, log := m.log, seq := m.seq, flash := m.flash
    ranges := m.ranges, spareUsed := m.spareUsed, retiredBlocks := m.retiredBlocks, peMax := m.peMax, peMean := m.peMean
    retrySteps := m.retrySteps, seedOk := m.seedOk }

/-- The machine after a module reset: as at reset, but for what flash holds, the host's memory and the model's own fields.
(DEDUCED, log entry 65) -/
def State.afterReset (s : State) : State :=
  { State.reset with module := s.module.afterReset, host := s.host, inputs := s.inputs, tick := s.tick }

/-! ### The configuration records (R412) -/

/-- A record under a MAC of the seed's key: the others are the maker's (R412). -/
def CfgRecord.maced : CfgRecord → Bool
  | .ownerKey | .svn | .bootRecord | .rangeKeys => true
  | .sramMap | .hbmMap | .badBlocks | .retryTable | .helper | .certChain => false

/-- The records as the boot ROM finds them: one that is missing or fails its check, as one under a MAC does without a seed, is
ignored, and what it would say is not said. (DEDUCED, log entry 98) -/
def Module.readRecords (m : Module) : Module :=
  let out (r : CfgRecord) : Bool := m.absent.contains r || (r.maced && !m.seeded)
  { m with
    ownerKey := if out .ownerKey then none else m.ownerKey
    svn := if out .svn then 0 else m.svn
    confirmedSlot := if out .bootRecord then none else m.confirmedSlot
    trialSlot := if out .bootRecord then none else m.trialSlot
    shared := m.shared && !out .bootRecord
    flash := if out .rangeKeys then [] else m.flash
    ranges := if out .rangeKeys then [] else m.ranges
    retrySteps := if out .retryTable then 0 else m.retrySteps }

/-- The module has what it needs to know itself: a seed, with the helper data it is rebuilt from, and its repair maps. -/
def Module.whole (m : Module) : Bool :=
  m.seeded && [CfgRecord.sramMap, .hbmMap].all fun r => !m.absent.contains r

/-! ### Images that begin (R405, R410, R411) -/

/-- A policy parameter of an image's policy tables, held within its limits, or its default where the image has none (R353). -/
def policyOf (bs : List Byte) (j lo hi default : Nat) : Nat :=
  let sec := imageSection bs 2
  if sec.isEmpty then default else max lo (min hi (Config.policy sec j))

/-- An accepted image is taken: the patch RAM is loaded from its patch section, 64 entries at most, and locked until the next
module reset, and the policy tables are loaded (R353, R405). (DESIGN CHOICE, log entry 99) -/
def Module.loadImage (m : Module) (bs : List Byte) : Module :=
  { m with
    image := bs
    patch := (Config.patchEntries (imageSection bs 1)).take 64
    patchLocked := true
    flushLo := policyOf bs 0 0 255 64, drainHi := policyOf bs 1 1 256 224, drainMax := policyOf bs 2 (2 ^ 16) (2 ^ 32) (2 ^ 20) }

/-- A slot's image, if it is accepted at boot (R407). -/
def State.slotImage (s : State) (slot : Nat) : Option Image :=
  match SMap.get? s.module.slots slot with
  | some i => if !imageBad i.bytes i.bytes.length 1 && s.signed i.bytes && decide (s.module.svn ≤ imageN i.bytes 8 4) then some i else none
  | none => none

/-- The module enters recovery (R410, R411, R412). -/
def State.recover (s : State) : State := { s with module := { s.module with boot := .recovery } }.healthChanged

/-- A supervisor image begins from a slot: the watchdog runs for 30 s (R410). (DEDUCED, log entry 100) -/
def State.bootImage (s : State) (slot : Nat) (state : BootState) (bs : List Byte) : State :=
  { s with module := { s.module.loadImage bs with
      slot := slot, boot := state, sharedFails := 0, retryAt := none, watchdogAt := some (s.clock + 30 * second) } }.healthChanged

/-- The confirmed slot boots, or, where its image is not accepted, event 0x07 is logged and the module enters recovery (R410). -/
def State.bootConfirmed (s : State) : State :=
  match s.module.confirmedSlot with
  | none => s.recover
  | some k => match s.slotImage k with
    | some i => s.bootImage k .confirmed i.bytes
    | none => (s.log 0 0x0B 0x07 k).recover

/-- The shared image, read through the host's memory, if it is accepted (R411). -/
def State.sharedImage (s : State) : Option (List Byte) :=
  let len := leNat (s.hostRead (s.module.sharedAddr + 16) 8)
  let bs := s.hostRead s.module.sharedAddr len
  if !imageBad bs len 2 && s.signed bs && decide (s.module.svn ≤ imageN bs 8 4) then some bs else none

/-- One try of a shared boot (R411): a failure waits 1 s for a retry, and the third enters recovery. -/
def State.bootShared (s : State) : State :=
  match s.sharedImage with
  | some bs => s.bootImage 2 .trial bs
  | none =>
    let n := s.module.sharedFails + 1
    let s := { s with module := { s.module with sharedFails := n, retryAt := some (s.clock + second) } }
    if 3 ≤ n then s.recover else s

/-- The boot ROM (R410 to R412): the records are read; without a seed, helper data or repair maps, recovery; the trial slot if
there is one and it is accepted, else its mark clears and event 0x07 is logged; then the confirmed slot. -/
def State.bootRom (s : State) : State :=
  let s := { s with module := s.module.readRecords }
  if !s.module.whole then s.recover
  else if s.module.shared then s.bootShared
  else match s.module.trialSlot with
    | none => s.bootConfirmed
    | some t =>
      match s.slotImage t with
      | some i => s.bootImage t .trial i.bytes
      | none => ({ s with module := { s.module with trialSlot := none } }.log 0 0x0B 0x07 t).bootConfirmed

/-- MODULE_RESET (R410). (DEDUCED, log entry 65) -/
def execModuleReset (s : State) : Out := .next (s.afterReset.bootRom)

/-- The watchdog has run out. -/
def State.watchdogOut (s : State) : Bool :=
  match s.module.watchdogAt with
  | some t => (s.module.boot == .trial || s.module.boot == .confirmed) && decide (t ≤ s.clock)
  | none => false

/-- WATCHDOG_EXPIRY (R410): 30 s without CONFIRM_BOOT reset the module, which clears the trial mark, logs event 0x07 and
boots the confirmed slot. -/
def execWatchdogExpiry (s : State) : Out :=
  if s.watchdogOut then
    let slot := s.module.slot
    let s := s.afterReset
    .next (({ s with module := { s.module with trialSlot := none } }.log 0 0x0B 0x07 slot).bootRom)
  else .next s

/-- CONFIRM_BOOT (R410, R411) before the watchdog runs out: the running slot is confirmed, the trial mark cleared, the SVN record
raised to the running image's, the watchdog stopped. One that comes later finds the module at its reset. -/
def execConfirmBoot (fn : Nat) (blk : DWord) (s : State) : Out :=
  if s.watchdogOut then execWatchdogExpiry s
  else command 0x08 true false fn blk (fun s _ =>
    let m := s.module
    let s := { s with module := { m with
      boot := .confirmed, confirmedSlot := if m.slot = 2 then m.confirmedSlot else some m.slot, trialSlot := none, watchdogAt := none
      svn := max m.svn (imageN m.image 8 4), absent := (m.absent.erase .bootRecord).erase .svn } }
    (if m.boot != .confirmed then s.healthChanged else s, 0)) s

/-- The blocks of a shared image that Section 5 lists (R411): the 64 KiB pieces of the other sections in the table's order, each
as its offset and length. (DEDUCED, log entry 101) -/
def imageBlocks (bs : List Byte) : List (Nat × Nat) :=
  (imageSections bs).flatMap fun x =>
    if x.type = 5 then [] else (List.range (ceilDiv x.len 65536)).map fun j => (x.ofs + 65536 * j, min 65536 (x.len - 65536 * j))

/-- IMAGE_BLOCK_FILL (R411): a block of the shared image, as the host's memory now holds it, is checked against its digest in
the accepted image's Section 5; a mismatch brings state 4 and faults every context as a loss of trust does. -/
def execImageBlockFill (blk : Nat) (s : State) : Out :=
  if s.module.slot ≠ 2 ∨ (s.module.boot ≠ .trial ∧ s.module.boot ≠ .confirmed) then .next s
  else match (imageBlocks s.module.image)[blk]? with
  | none => .next s
  | some (o, n) =>
    if Config.shake256 (s.hostRead (s.module.sharedAddr + o) n) == ((imageSection s.module.image 5).drop (32 * blk)).take 32 then .next s
    else
      let s := { s with module := { s.module with boot := .failed, watchdogAt := none } }
      let s := fnList.foldl (fun s f => s.loseTrust f) s
      .next s.healthChanged

/-- SHARED_BOOT_RETRY (R411): 1 s after a failure. -/
def execSharedBootRetry (s : State) : Out :=
  match s.module.retryAt with
  | some t =>
    if s.module.shared ∧ s.module.boot = .rom ∧ 0 < s.module.sharedFails ∧ t ≤ s.clock then .next s.bootShared else .next s
  | none => .next s

/-! ### Errors and links (R413, R415) -/

/-- A unit that the scrub visits: whether it is there, the log's SRC and WHERE, a cluster or a stack number (R414), and the word
that an uncorrectable error at an address poisons; register files and the control store have no reader with a code of
its own. (DESIGN CHOICE, log entry 95; DESIGN CHOICE, log entry 106) -/
def scrubSeen (u : ScrubUnit) (addr : Nat) : Bool × Nat × Nat × List (Nat × Nat) :=
  match u with
  | .hbm => (decide (addr < hbmEnd), 0x05, stackOf addr, [(0, addr / 32)])
  | .sram c => (decide (c < 144) && decide (addr < sramEnd), 0x03, c, [(c + 1, addr / 8)])
  | .registers c => (decide (c < 576), 0x01, clusterOf c, [])
  | .l1 c => (decide (c < 576) && decide (addr < hbmEnd), 0x02, clusterOf c, [(0, addr / 32)])
  | .l2 d => (decide (d < 4) && decide (addr < hbmEnd), 0x04, stackOf addr, [(0, addr / 32)])
  | .control => (true, Config.controlStoreSrc, 0, [])

/-- PATROL_SCRUB (R413): a visit finds nothing, a corrected error, or an uncorrectable one, which poisons its data; what it finds is
logged. (DESIGN CHOICE, log entry 95) -/
def execPatrolScrub (unit : ScrubUnit) (addr : Nat) (s : State) : Out :=
  let found := Config.scrub s.tick % 3
  let (there, src, at_, ws) := scrubSeen unit addr
  let s := s.bump
  if found = 0 || !there then .next s
  else .next (({ s with poison := if found = 2 then ws ++ s.poison else s.poison } : State).log addr src found at_)

/-- A link has gone down: the sends of this module's rays that are on their way over it fail (R415).
(DESIGN CHOICE, log entry 60) -/
def State.failRoute (s : State) (link : Nat) : State :=
  let lost (x : LnSend) : Bool := bit x.desc 16 && Config.route (bits x.desc 36 17) % 18 == link &&
    (match x.sender with | .ray .. => true | _ => false)
  (s.lnsends.filter lost).foldl (fun s x => s.answer x 3) { s with lnsends := s.lnsends.filter fun x => !lost x }

/-- FLIT_CRC_FAIL (R415) on one of the 18 links: the flit is replayed, up to 8 times; then the link retrains, or goes down, and what
is in flight over it fails. -/
def execFlitCrcFail (link : LinkFlit) (s : State) : Out :=
  let ⟨link, flit⟩ := link
  let m := s.module
  let n := match SMap.get? m.linkTries link with | some (f, k) => if f = flit then k + 1 else 1 | none => 1
  if 18 ≤ link ∨ m.linksDown.contains link then .next s
  else if n ≤ 8 then .next ({ s with module := { m with linkTries := SMap.put m.linkTries link (flit, n) } }.log 0 0x07 0x03 link)
  else if Config.retrains s.tick then .next ({ s.bump with module := { m with linkTries := SMap.del m.linkTries link } }.log 0 0x07 0x04 link)
  else .next ({ s.bump with module := { m with linkTries := SMap.del m.linkTries link, linksDown := link :: m.linksDown } }.log 0 0x07 0x05 link |>.failRoute link)

/-! ### Power and cooling (R416) -/

/-- THERMAL_THROTTLE (R416): clause starts and tile passes are withheld, or no longer. -/
def execThermalThrottle (on : Bool) (s : State) : Out :=
  let s := { s with module := { s.module with throttled := on } }
  .next (if on then s.log 0 0x0A 0x06 0 else s)

/-- THERMAL_TRIP (R416): every die stops and every context is faulted; a module reset is then required. -/
def execThermalTrip (s : State) : Out :=
  let s := { s with module := { s.module with tripped := true } }
  .next ((s.ctxs.map (·.1)).foldl (fun s k => s.faultCtx k) s)

end Sys2Proof.Machine
end

