-- ==== Sys2Proof/Machine/Registers.lean ====
section
/-!
DEFINITION. What a read of the registers outside the instruction set answers: a function's BAR0 (R396) and a core's
control block as its supervisor core sees it (R384). A read changes nothing, so these are functions of the state.
-/
namespace Sys2Proof.Machine

/-! ### BAR0 (R396) -/

/-- The boot state's code in HEALTH. -/
def BootState.code : BootState → Nat
  | .rom => 0 | .trial => 1 | .confirmed => 2 | .recovery => 3 | .failed => 4

/-- The TDISP state's code in HEALTH. -/
def Tdisp.code : Tdisp → Nat
  | .unlocked => 0 | .locked => 1 | .run => 2 | .error => 3

/-- HEALTH of a function. -/
def State.health (s : State) (fn : Nat) : Nat :=
  s.module.boot.code * 2 ^ 56 + s.module.slot % 4 * 2 ^ 8 + (s.fnOf fn).tdisp.code * 2 ^ 4 + b2n s.module.ownerKey.isSome

/-- A read of 8 bytes of BAR0: IDENT, HEALTH, CMDSTAT, LNDOOR; 0 at every other offset (R396). None is an Unsupported Request:
the function does not exist, or its interface has lost trust (R395, R401). (DEDUCED, log entry 73) -/
def State.bar0 (s : State) (fn off : Nat) : Option DWord :=
  let f := s.fnOf fn
  if !s.answers fn then none
  else some <| if off = 0 then BitVec.ofNat 64 (Config.serial.toNat * 2 ^ 32 + fn % 2 ^ 16 * 2 ^ 16 + Config.revision.toNat)
  else if off = 8 then BitVec.ofNat 64 (s.health fn)
  else if off = 0x108 then BitVec.ofNat 64 (b2n f.busy * 2 ^ 63 + f.status % 2 ^ 16)
  else if 0x1000 ≤ off ∧ off < 0x2000 ∧ off % 16 = 8 then BitVec.ofNat 64 ((SMap.get f.slots (0, 0) ((off - 0x1000) / 16)).2 % 8)
  else 0

/-! ### A core's control block (R384) -/

/-- SLOTINFO of a resident slot. -/
def State.slotInfo (s : State) (core k : Nat) : Nat :=
  match s.ray core k with
  | none => 0
  | some r => 2 ^ 63 + b2n r.parked.isSome * 2 ^ 62 + s.ctxOf r.l % 1024 * 2 ^ 48 + r.pos % 2 ^ 32 * 2 ^ 16
      + r.rayId % 32 * 2 ^ 11 + r.role % 4 * 2 ^ 9

/-- RAYSTAT: BUSY is 1 while a PARK still waits for its ray's boundary; every other command's effect is complete as it is issued
(R385). -/
def Core.rayStat (c : Core) : Nat :=
  b2n (c.rays.any fun (_, r) => r.parkReq) * 2 ^ 63 + b2n c.refused * 2 ^ 62 + (c.selected.getD 0) % 64 * 2 ^ 8 + b2n c.selected.isSome

/-- Beat j of a 32-byte record. -/
def beat (x : BitVec 256) (j : Nat) : Nat := x.toNat / 2 ^ (64 * j) % 2 ^ 64

/-- A read of 8 bytes of a core's control block. (DEDUCED, log entry 73) -/
def State.controlBlock (s : State) (core off : Nat) : DWord :=
  let c := s.core core
  BitVec.ofNat 64 (
    if off = 0 then c.events.length
    else if 0x20 ≤ off ∧ off < 0x40 then beat (c.events.headD 0) ((off - 0x20) / 8)
    else if 0x100 ≤ off ∧ off < 0x300 then beat (SMap.get c.recs 0 ((off - 0x100) / 32)) (off % 32 / 8)
    else if off = 0x300 then c.recs.foldl (fun n (k, _) => n ||| 2 ^ k) 0
    else if off = 0x408 then c.rayStat
    else if 0x500 ≤ off ∧ off < 0x700 then s.slotInfo core ((off - 0x500) / 8)
    else if 0x8000 ≤ off ∧ off < 0x8000 + 0x5000 then
      match c.selected.bind fun k => (s.ray core k).map fun r => (k, r) with
      | some (k, r) => leNat (((r.frame (waitWord c.ops k)).drop (off - 0x8000)).take 8)
      | none => 0
    else 0)

end Sys2Proof.Machine
end

