-- ==== Sys2Proof/Machine/Transc.lean ====
section
/-!
DEFINITION. The transcendental and activation functions (R151, R152). The exact value is computed as a fixed-point
fraction whose error is far below every bound; which of the values within the bound is delivered is a free value,
the same every time for the same operand (R52).
-/
namespace Sys2Proof.Machine

/-! ### Fixed-point arithmetic with p fraction bits -/

/-- The fraction bits of the fixed-point values. -/
def fxP : Nat := 320
/-- The fraction bits of the reduction modulo two pi, which must stand against arguments of 2^128. -/
def fxQ : Nat := 512

/-- floor of the square root, one bit after another from bit k down. -/
def isqrtFrom (n : Nat) : (k acc : Nat) → Nat
  | 0, acc => acc
  | k + 1, acc => if (acc + 2 ^ k) * (acc + 2 ^ k) ≤ n then isqrtFrom n k (acc + 2 ^ k) else isqrtFrom n k acc
/-- floor of the square root. -/
def isqrt (n : Nat) : Nat := isqrtFrom n (Nat.log2 n / 2 + 1) 0

/-- The terms x^k / k! from k on, added up. -/
def expTail (x : Nat) : (fuel k term : Nat) → Nat
  | 0, _, _ => 0
  | fuel + 1, k, term => term + expTail x fuel (k + 1) (term * x / 2 ^ fxP / (k + 1))

/-- The terms z^(2k+1) / (2k+1), added up: the inverse hyperbolic tangent. -/
def atanhTail (z2 p : Nat) : (fuel k term : Nat) → Nat
  | 0, _, _ => 0
  | fuel + 1, k, term => term / (2 * k + 1) + atanhTail z2 p fuel (k + 1) (term * z2 / 2 ^ p)

/-- ln 2. -/
def fxLn2 : Nat := 2 * atanhTail (2 ^ fxP / 9) fxP 120 0 (2 ^ fxP / 3)

/-- 2^t for a fixed-point t: a mantissa from 1 to 2, and the exponent. -/
def exp2Fix (t : Int) : Nat × Int :=
  let q := t / (2 ^ fxP : Int)
  let f := (t % (2 ^ fxP : Int)).toNat
  (expTail (f * fxLn2 / 2 ^ fxP) 90 0 (2 ^ fxP), q)

/-- e^x for a fixed-point x as a fixed-point value. -/
def expFix (x : Int) : Nat :=
  let (m, e) := exp2Fix (x * (2 ^ fxP : Int) / (fxLn2 : Int))
  if 0 ≤ e then m * 2 ^ e.toNat else m / 2 ^ (-e).toNat

/-- The terms of the inverse tangent of 1/n with fxQ fraction bits. -/
def atanTail (n2 : Nat) : (fuel k : Nat) → Int → Int
  | 0, _, _ => 0
  | fuel + 1, k, term => term / (2 * k + 1 : Int) + atanTail n2 fuel (k + 1) (-term / (n2 : Int))

/-- pi with fxQ fraction bits, by Machin's formula. -/
def fxPi : Nat := (16 * atanTail 25 120 0 (2 ^ fxQ / 5) - 4 * atanTail 57121 40 0 (2 ^ fxQ / 239)).toNat

/-- The alternating terms of sine and cosine from degree k, with fxQ fraction bits. -/
def trigTail (x : Nat) : (fuel k : Nat) → Int → Int
  | 0, _, _ => 0
  | fuel + 1, k, term => term + trigTail x fuel (k + 2) (-(term * x * x / (2 ^ (2 * fxQ) : Int)) / ((k + 1) * (k + 2) : Nat))

/-- The terms of the normal distribution function: x^(2k+1) / (1 * 3 * ... * (2k+1)). -/
def phiTail (x2 : Nat) : (fuel k term : Nat) → Nat
  | 0, _, _ => 0
  | fuel + 1, k, term => term + phiTail x2 fuel (k + 1) (term * x2 / 2 ^ fxP / (2 * k + 3))

/-- The standard normal distribution function at -x for x from 0 to 16. -/
def phiNeg (x : Nat) : Nat :=
  let root := isqrt (2 * (fxPi / 2 ^ (fxQ - fxP)) * 2 ^ fxP)
  let s := phiTail (x * x / 2 ^ fxP) 900 0 x
  2 ^ fxP / 2 - s * expFix (-(x * x / 2 ^ (fxP + 1) : Nat)) / root

/-! ### The functions of R151 on a finite non-zero input -/

/-- The functions. -/
inductive Fun1 where
  | rcp | rsq | sqrt | exp2 | log2 | sin | cos | tanh | gelu | sigm
  deriving DecidableEq, Repr

/-- A number for each, for the free value. -/
def Fun1.id : Fun1 → Nat
  | .rcp => 0 | .rsq => 1 | .sqrt => 2 | .exp2 => 3 | .log2 => 4 | .sin => 5 | .cos => 6 | .tanh => 7 | .gelu => 8 | .sigm => 9

/-- A fixed-point value as an exact value. -/
def fxVal (v : Int) (p : Nat) : XVal := .ofFrac v (2 ^ p) false

/-- A finite value as a fixed-point number, held within a limit. -/
def toFix (neg : Bool) (n d p lim : Nat) : Int := sgn neg (min (n * 2 ^ p / d) (lim * 2 ^ p))

/-- The value of a function of a finite non-zero input. The limits on the argument leave results that differ from the
true one by less than 2^-180 of it, or that stay below every representable magnitude. -/
def Fun1.value (f : Fun1) (neg : Bool) (n d : Nat) : XVal :=
  let x (lim : Nat) : Int := toFix neg n d fxP lim
  match f with
  | .rcp => .fin neg d n
  | .rsq => fxVal (isqrt (d * 2 ^ (2 * fxP) / n)) fxP
  | .sqrt =>
    let m := n * 2 ^ (2 * fxP) / d
    let r := isqrt m
    fxVal (2 * r + (if r * r = m then 0 else 1) : Nat) (fxP + 1)
  | .exp2 =>
    let (m, e) := exp2Fix (x 1000)
    let (a, b) := scale2 m (2 ^ fxP) e
    .fin false a b
  | .log2 =>
    let e := fracLog n d
    let (a, b) := scale2 n d (-e)
    let z := (a - b) * 2 ^ fxP / (a + b)
    fxVal (e * 2 ^ fxP + (2 * atanhTail (z * z / 2 ^ fxP) fxP 120 0 z * 2 ^ fxP / fxLn2 : Nat)) fxP
  | .sin =>
    let r := (n * 2 ^ fxQ / d) % (2 * fxPi)
    fxVal (sgn neg 1 * trigTail r 120 1 r) fxQ
  | .cos =>
    let r := (n * 2 ^ fxQ / d) % (2 * fxPi)
    fxVal (trigTail r 120 0 (2 ^ fxQ)) fxQ
  | .tanh =>
    let y := (x 100).natAbs
    let e := expFix (-(2 * y : Nat))
    fxVal (sgn neg ((2 ^ fxP - e) * 2 ^ fxP / (2 ^ fxP + e))) fxP
  | .gelu =>
    let p := phiNeg (x 16).natAbs
    if neg then fxVal (-((x 16).natAbs * p / 2 ^ fxP : Nat)) fxP
    else .fin false (n * (2 ^ fxP - p)) (d * 2 ^ fxP)
  | .sigm =>
    let e := expFix (-(x 150))
    fxVal (2 ^ (2 * fxP) / (2 ^ fxP + e) : Nat) fxP

/-- The result and flags of R152 for a zero or infinite input; none for the others. -/
def Fun1.special (f : Fun1) (x : XVal) : Option (XVal × BitVec 6) :=
  let one (neg : Bool) : XVal := .fin neg 1 1
  let zero (neg : Bool) : XVal := .fin neg 0 1
  match x with
  | .nan _ => some (.nan false, 0)
  | .inf neg => some (match f with
    | .rcp => (zero neg, 0)
    | .rsq => if neg then (.nan false, flNV) else (zero false, 0)
    | .sqrt | .log2 => if neg then (.nan false, flNV) else (.inf false, 0)
    | .exp2 => if neg then (zero false, 0) else (.inf false, 0)
    | .sin | .cos => (.nan false, flNV)
    | .tanh => (one neg, 0)
    | .gelu => if neg then (zero true, 0) else (.inf false, 0)
    | .sigm => if neg then (zero false, 0) else (one false, 0))
  | .fin neg n _ =>
    if n = 0 then some (match f with
      | .rcp | .rsq => (.inf neg, flDZ)
      | .sqrt | .sin | .tanh | .gelu => (zero neg, 0)
      | .exp2 | .cos => (one false, 0)
      | .log2 => (.inf true, flDZ)
      | .sigm => (.fin false 1 2, 0))
    else match f with
      | .rsq | .sqrt | .log2 => if neg then some (.nan false, flNV) else none
      | _ => none

/-- An integer input of a finite value. -/
def isInt (n d : Nat) : Bool := n % d == 0

/-- The smallest exponent of a normal number and the largest magnitude's exponent. -/
def Fmt.emin (f : Fmt) : Int := 1 - (f.bias : Int)

/-- Whether the function's value raises no NX: FEXP2 of an integer whose result is normal, FLOG2 of a power of two,
and an exact square root (R151). -/
def Fun1.exact (f : Fun1) (fmt : Fmt) (neg : Bool) (n d : Nat) (v : XVal) : Bool :=
  match f with
  | .exp2 => isInt n d && decide (fmt.emin ≤ sgn neg (n / d))
  | .log2 => let (a, b) := scale2 n d (-fracLog n d); a == b
  | .sqrt => let (_, fl) := roundTo fmt .rne false false v; (fl &&& flNX) == 0
  | _ => false

/-- One unit in the last place at a value's exponent, as a fraction. -/
def Fmt.ulp (f : Fmt) (n d : Nat) : Nat × Nat :=
  let e := if n = 0 then f.emin else max (fracLog n d) f.emin
  scale2 1 1 (e - f.mant)

/-- The error bound of R151 at a value: ulps of the format, or an absolute bound. -/
def Fun1.bound (f : Fun1) (fmt : Fmt) (neg : Bool) (xn xd vn vd : Nat) : Nat × Nat :=
  let (u, w) := fmt.ulp vn vd
  match f with
  | .rcp | .rsq => (u, w)
  | .sqrt => (0, 1)
  | .exp2 => if fmt.width = 16 then (u, w) else (2 * u, w)
  | .log2 => if !neg && decide (xd ≤ 2 * xn) && decide (xn ≤ 2 * xd) then (1, 2 ^ 22) else (2 * u, w)
  | .sin | .cos => (1, 2 ^ 21)
  | .tanh | .sigm => (2 * u, w)
  | .gelu => if 2 * u * 2 ^ 23 < w then (1, 2 ^ 23) else (2 * u, w)

/-- A code's value when the exponent range is taken to have no end, so that a result may lie above the largest finite
number and then overflow. -/
def Fmt.unbounded (f : Fmt) (c : Nat) : XVal :=
  let neg := decide (2 ^ (f.width - 1) ≤ c % 2 ^ f.width)
  let m := c % 2 ^ f.mant
  let e := c % 2 ^ (f.width - 1) / 2 ^ f.mant
  let (n, d) := if e = 0 then scale2 m 1 (f.emin - f.mant) else scale2 (2 ^ f.mant + m) 1 (e - f.bias - f.mant)
  .fin neg n d

/-- Whether a value lies within a bound of another. -/
def withinOf (x y : XVal) (b : Nat × Nat) : Bool :=
  match x, y with
  | .fin s n d, .fin t m e => decide ((sgn s n * e - sgn t m * d).natAbs * b.2 ≤ b.1 * (d * e))
  | _, _ => false

/-- The result of a function that ignores RM: the free candidate if it lies within the bound, the nearest value if it
does not; then the overflow and underflow steps of Round() (R151): UF where the result is tiny and no exception of NX holds (R37).
One that overflows takes the row of RNE in R38's OverflowResult:
the function ignores RM, and no row is named. (DESIGN CHOICE, log entry 25; DEDUCED, log entry 26; DESIGN CHOICE, log entry 88) -/
def Fun1.approx (f : Fun1) (m : FMode) (fmt : Fmt) (code : Nat) (neg : Bool) (n d : Nat) : Nat × BitVec 6 :=
  let v := f.value neg n d
  let ex := f.exact fmt neg n d v
  let free := fmt.unbounded (Config.within (f.id + 16 * fmt.width) (BitVec.ofNat 32 code))
  let ok := match v with | .fin _ vn vd => withinOf free v (f.bound fmt neg n d vn vd) | _ => false
  let y := if ok && !ex then free else (fmt.unbounded (roundTo fmt .rne false false v).1)
  let (c, fl) := roundTo fmt .rne m.sat (m.flush fmt) y
  (c, fl ||| (if ex then 0 else flNX ||| flagIf (decide (c % 2 ^ (fmt.width - 1) < 2 ^ fmt.mant)) flUF))

/-- A function of one code (R151, R152). (DESIGN CHOICE, log entry 25) -/
def Fun1.run (f : Fun1) (m : FMode) (fmt : Fmt) (code : Nat) : Nat × BitVec 6 :=
  let (x, fx) := m.read fmt code
  match f.special x with
  | some (v, fl) => ((roundTo fmt .rne false false v).1, fx ||| fl)
  | none =>
    match x with
    | .fin neg n d =>
      if f = .sqrt then let (c, fl) := m.round fmt (f.value neg n d); (c, fx ||| fl)
      else let (c, fl) := f.approx m fmt code neg n d; (c, fx ||| fl)
    | _ => (0, fx)

/-- A unary function instruction, non-linear (R141). -/
def fun1 (i : Instr) (d a : Opnd) (f : Fun1) (s : State) : Out :=
  vecOp i d false (anyMarked [a]) (fun t k => codeRes (f.run t.fmodeArith fmtF32 (t.rd32 a k).toNat) false) s

/-- FRCP.F32 (R151). -/
def execFrcpF32 (g : Guard) (d a : Opnd) (s : State) : Out := fun1 (.frcpF32 g d a) d a .rcp s
/-- FRSQ.F32 (R151). -/
def execFrsqF32 (g : Guard) (d a : Opnd) (s : State) : Out := fun1 (.frsqF32 g d a) d a .rsq s
/-- FSQRT.F32 (R151). -/
def execFsqrtF32 (g : Guard) (d a : Opnd) (s : State) : Out := fun1 (.fsqrtF32 g d a) d a .sqrt s
/-- FEXP2.F32 (R151). -/
def execFexp2F32 (g : Guard) (d a : Opnd) (s : State) : Out := fun1 (.fexp2F32 g d a) d a .exp2 s
/-- FLOG2.F32 (R151). -/
def execFlog2F32 (g : Guard) (d a : Opnd) (s : State) : Out := fun1 (.flog2F32 g d a) d a .log2 s
/-- FSIN.F32 (R151). -/
def execFsinF32 (g : Guard) (d a : Opnd) (s : State) : Out := fun1 (.fsinF32 g d a) d a .sin s
/-- FCOS.F32 (R151). -/
def execFcosF32 (g : Guard) (d a : Opnd) (s : State) : Out := fun1 (.fcosF32 g d a) d a .cos s
/-- FTANH.F32 (R151). -/
def execFtanhF32 (g : Guard) (d a : Opnd) (s : State) : Out := fun1 (.ftanhF32 g d a) d a .tanh s
/-- FGELU.F32 (R151). -/
def execFgeluF32 (g : Guard) (d a : Opnd) (s : State) : Out := fun1 (.fgeluF32 g d a) d a .gelu s
/-- FSIGM.F32 (R151). -/
def execFsigmF32 (g : Guard) (d a : Opnd) (s : State) : Out := fun1 (.fsigmF32 g d a) d a .sigm s

/-- FEXP2.F16x2 (R151): 2^a in each FP16 element. -/
def execFexp2F16x2 (g : Guard) (d a : Opnd) (s : State) : Out :=
  vecOp (.fexp2F16x2 g d a) d false (anyMarked [a])
    (fun t k => codeRes (pack2 (fun x _ => Fun1.run .exp2 t.fmodeArith fmtF16 x) (t.rd32 a k).toNat 0) false) s

end Sys2Proof.Machine
end

