-- ==== Sys2Proof/Machine/Dispatch.lean ====
section
/-!
DEFINITION. The dispatch: one arm per constructor of Instr, each one call of that constructor's meaning.
-/
namespace Sys2Proof.Machine
open Sys2Proof

def exec (i : Instr) (s : State) : Host.Outcome State Fault Refusal :=
  match i with
  | .iaddS32 g d a b => Sys2Proof.Machine.execIaddS32 g d a b s
  | .isubS32 g d a b => Sys2Proof.Machine.execIsubS32 g d a b s
  | .iaddS64 g d a b => Sys2Proof.Machine.execIaddS64 g d a b s
  | .isubS64 g d a b => Sys2Proof.Machine.execIsubS64 g d a b s
  | .imulS32 g d a b => Sys2Proof.Machine.execImulS32 g d a b s
  | .imulhiS32 g d a b => Sys2Proof.Machine.execImulhiS32 g d a b s
  | .imulhiZ32 g d a b => Sys2Proof.Machine.execImulhiZ32 g d a b s
  | .imadS32 g d a b => Sys2Proof.Machine.execImadS32 g d a b s
  | .iminS32 g d a b => Sys2Proof.Machine.execIminS32 g d a b s
  | .iminZ32 g d a b => Sys2Proof.Machine.execIminZ32 g d a b s
  | .imaxS32 g d a b => Sys2Proof.Machine.execImaxS32 g d a b s
  | .imaxZ32 g d a b => Sys2Proof.Machine.execImaxZ32 g d a b s
  | .iabsS32 g d a => Sys2Proof.Machine.execIabsS32 g d a s
  | .imulwS32 g d a b => Sys2Proof.Machine.execImulwS32 g d a b s
  | .imulwZ32 g d a b => Sys2Proof.Machine.execImulwZ32 g d a b s
  | .leaS64 g d a b => Sys2Proof.Machine.execLeaS64 g d a b s
  | .andZ32 g d a b => Sys2Proof.Machine.execAndZ32 g d a b s
  | .orZ32 g d a b => Sys2Proof.Machine.execOrZ32 g d a b s
  | .xorZ32 g d a b => Sys2Proof.Machine.execXorZ32 g d a b s
  | .andnZ32 g d a b => Sys2Proof.Machine.execAndnZ32 g d a b s
  | .shlZ32 g d a b => Sys2Proof.Machine.execShlZ32 g d a b s
  | .shrZ32 g d a b => Sys2Proof.Machine.execShrZ32 g d a b s
  | .shrS32 g d a b => Sys2Proof.Machine.execShrS32 g d a b s
  | .rotZ32 g d a b => Sys2Proof.Machine.execRotZ32 g d a b s
  | .popcZ32 g d a => Sys2Proof.Machine.execPopcZ32 g d a s
  | .clzZ32 g d a => Sys2Proof.Machine.execClzZ32 g d a s
  | .brevZ32 g d a => Sys2Proof.Machine.execBrevZ32 g d a s
  | .bfeZ32 g d a b => Sys2Proof.Machine.execBfeZ32 g d a b s
  | .bfeS32 g d a b => Sys2Proof.Machine.execBfeS32 g d a b s
  | .bfiZ32 g d a b => Sys2Proof.Machine.execBfiZ32 g d a b s
  | .movZ32 g d a => Sys2Proof.Machine.execMovZ32 g d a s
  | .movZ64 g d a => Sys2Proof.Machine.execMovZ64 g d a s
  | .icmpEqZ32 g pt pf a b => Sys2Proof.Machine.execIcmpEqZ32 g pt pf a b s
  | .icmpLtS32 g pt pf a b => Sys2Proof.Machine.execIcmpLtS32 g pt pf a b s
  | .icmpLeS32 g pt pf a b => Sys2Proof.Machine.execIcmpLeS32 g pt pf a b s
  | .icmpLtZ32 g pt pf a b => Sys2Proof.Machine.execIcmpLtZ32 g pt pf a b s
  | .icmpLeZ32 g pt pf a b => Sys2Proof.Machine.execIcmpLeZ32 g pt pf a b s
  | .plop g pt pf pa pb table => Sys2Proof.Machine.execPlop g pt pf pa pb table s
  | .voteAny g pt pf pa n => Sys2Proof.Machine.execVoteAny g pt pf pa n s
  | .voteAll g pt pf pa n => Sys2Proof.Machine.execVoteAll g pt pf pa n s
  | .ballot g d pa n => Sys2Proof.Machine.execBallot g d pa n s
  | .shflIdx g d a b => Sys2Proof.Machine.execShflIdx g d a b s
  | .shflUp g d a b => Sys2Proof.Machine.execShflUp g d a b s
  | .shflDn g d a b => Sys2Proof.Machine.execShflDn g d a b s
  | .shflXor g d a b => Sys2Proof.Machine.execShflXor g d a b s
  | .iredaddS32 g d a => Sys2Proof.Machine.execIredaddS32 g d a s
  | .iredminS32 g d a => Sys2Proof.Machine.execIredminS32 g d a s
  | .iredmaxS32 g d a => Sys2Proof.Machine.execIredmaxS32 g d a s
  | .faddF32 g d a b => Sys2Proof.Machine.execFaddF32 g d a b s
  | .fsubF32 g d a b => Sys2Proof.Machine.execFsubF32 g d a b s
  | .fmulF32 g d a b => Sys2Proof.Machine.execFmulF32 g d a b s
  | .ffmaF32 g d a b => Sys2Proof.Machine.execFfmaF32 g d a b s
  | .fminF32 g d a b => Sys2Proof.Machine.execFminF32 g d a b s
  | .fmaxF32 g d a b => Sys2Proof.Machine.execFmaxF32 g d a b s
  | .fabsF32 g d a => Sys2Proof.Machine.execFabsF32 g d a s
  | .fnegF32 g d a => Sys2Proof.Machine.execFnegF32 g d a s
  | .faddF16x2 g d a b => Sys2Proof.Machine.execFaddF16x2 g d a b s
  | .fsubF16x2 g d a b => Sys2Proof.Machine.execFsubF16x2 g d a b s
  | .fmulF16x2 g d a b => Sys2Proof.Machine.execFmulF16x2 g d a b s
  | .ffmaF16x2 g d a b => Sys2Proof.Machine.execFfmaF16x2 g d a b s
  | .faddBf16x2 g d a b => Sys2Proof.Machine.execFaddBf16x2 g d a b s
  | .fsubBf16x2 g d a b => Sys2Proof.Machine.execFsubBf16x2 g d a b s
  | .fmulBf16x2 g d a b => Sys2Proof.Machine.execFmulBf16x2 g d a b s
  | .ffmaBf16x2 g d a b => Sys2Proof.Machine.execFfmaBf16x2 g d a b s
  | .fcmpEqF32 g pt pf a b => Sys2Proof.Machine.execFcmpEqF32 g pt pf a b s
  | .fcmpLtF32 g pt pf a b => Sys2Proof.Machine.execFcmpLtF32 g pt pf a b s
  | .fcmpLeF32 g pt pf a b => Sys2Proof.Machine.execFcmpLeF32 g pt pf a b s
  | .fcmpUnF32 g pt pf a b => Sys2Proof.Machine.execFcmpUnF32 g pt pf a b s
  | .fredaddF32 g d a => Sys2Proof.Machine.execFredaddF32 g d a s
  | .fredminF32 g d a => Sys2Proof.Machine.execFredminF32 g d a s
  | .fredmaxF32 g d a => Sys2Proof.Machine.execFredmaxF32 g d a s
  | .fdivF32 g d a b => Sys2Proof.Machine.execFdivF32 g d a b s
  | .iaddS16x2 g d a b => Sys2Proof.Machine.execIaddS16x2 g d a b s
  | .isubS16x2 g d a b => Sys2Proof.Machine.execIsubS16x2 g d a b s
  | .iaddsS16x2 g d a b => Sys2Proof.Machine.execIaddsS16x2 g d a b s
  | .isubsS16x2 g d a b => Sys2Proof.Machine.execIsubsS16x2 g d a b s
  | .iaddsZ16x2 g d a b => Sys2Proof.Machine.execIaddsZ16x2 g d a b s
  | .isubsZ16x2 g d a b => Sys2Proof.Machine.execIsubsZ16x2 g d a b s
  | .imulS16x2 g d a b => Sys2Proof.Machine.execImulS16x2 g d a b s
  | .imadS16x2 g d a b => Sys2Proof.Machine.execImadS16x2 g d a b s
  | .iminS16x2 g d a b => Sys2Proof.Machine.execIminS16x2 g d a b s
  | .imaxS16x2 g d a b => Sys2Proof.Machine.execImaxS16x2 g d a b s
  | .iminZ16x2 g d a b => Sys2Proof.Machine.execIminZ16x2 g d a b s
  | .imaxZ16x2 g d a b => Sys2Proof.Machine.execImaxZ16x2 g d a b s
  | .iabsS16x2 g d a => Sys2Proof.Machine.execIabsS16x2 g d a s
  | .sadZ8x4 g d a b => Sys2Proof.Machine.execSadZ8x4 g d a b s
  | .sadZ16x2 g d a b => Sys2Proof.Machine.execSadZ16x2 g d a b s
  | .dotS16x2 g d a b => Sys2Proof.Machine.execDotS16x2 g d a b s
  | .frcpF32 g d a => Sys2Proof.Machine.execFrcpF32 g d a s
  | .frsqF32 g d a => Sys2Proof.Machine.execFrsqF32 g d a s
  | .fsqrtF32 g d a => Sys2Proof.Machine.execFsqrtF32 g d a s
  | .fexp2F32 g d a => Sys2Proof.Machine.execFexp2F32 g d a s
  | .flog2F32 g d a => Sys2Proof.Machine.execFlog2F32 g d a s
  | .fsinF32 g d a => Sys2Proof.Machine.execFsinF32 g d a s
  | .fcosF32 g d a => Sys2Proof.Machine.execFcosF32 g d a s
  | .ftanhF32 g d a => Sys2Proof.Machine.execFtanhF32 g d a s
  | .cvt g d a k => Sys2Proof.Machine.execCvt g d a k s
  | .quant g d a b => Sys2Proof.Machine.execQuant g d a b s
  | .deq g d a b => Sys2Proof.Machine.execDeq g d a b s
  | .pxunpack g d a b => Sys2Proof.Machine.execPxunpack g d a b s
  | .pxpack g d a b => Sys2Proof.Machine.execPxpack g d a b s
  | .fgeluF32 g d a => Sys2Proof.Machine.execFgeluF32 g d a s
  | .fsigmF32 g d a => Sys2Proof.Machine.execFsigmF32 g d a s
  | .fexp2F16x2 g d a => Sys2Proof.Machine.execFexp2F16x2 g d a s
  | .bra g disp => Sys2Proof.Machine.execBra g disp s
  | .call g disp => Sys2Proof.Machine.execCall g disp s
  | .ret g => Sys2Proof.Machine.execRet g s
  | .exit g => Sys2Proof.Machine.execExit g s
  | .yield g => Sys2Proof.Machine.execYield g s
  | .brx g a => Sys2Proof.Machine.execBrx g a s
  | .callx g a => Sys2Proof.Machine.execCallx g a s
  | .lnret g => Sys2Proof.Machine.execLnret g s
  | .ldZ32 g d a dc ofs => Sys2Proof.Machine.execLdZ32 g d a dc ofs s
  | .ldZ64 g d a dc ofs => Sys2Proof.Machine.execLdZ64 g d a dc ofs s
  | .stZ32 g d a dc ofs => Sys2Proof.Machine.execStZ32 g d a dc ofs s
  | .stZ64 g d a dc ofs => Sys2Proof.Machine.execStZ64 g d a dc ofs s
  | .ldroZ32 g d a dc ofs => Sys2Proof.Machine.execLdroZ32 g d a dc ofs s
  | .ldroZ64 g d a dc ofs => Sys2Proof.Machine.execLdroZ64 g d a dc ofs s
  | .stntZ32 g d a dc ofs => Sys2Proof.Machine.execStntZ32 g d a dc ofs s
  | .stntZ64 g d a dc ofs => Sys2Proof.Machine.execStntZ64 g d a dc ofs s
  | .ldt g d a dc => Sys2Proof.Machine.execLdt g d a dc s
  | .ldtC g d a dc => Sys2Proof.Machine.execLdtC g d a dc s
  | .sth g d a dc => Sys2Proof.Machine.execSth g d a dc s
  | .acq g d a dc ofs => Sys2Proof.Machine.execAcq g d a dc ofs s
  | .rel g d a dc ofs => Sys2Proof.Machine.execRel g d a dc ofs s
  | .mfs g d nr => Sys2Proof.Machine.execMfs g d nr s
  | .mts g nr b => Sys2Proof.Machine.execMts g nr b s
  | .idivS32 g d a b => Sys2Proof.Machine.execIdivS32 g d a b s
  | .idivZ32 g d a b => Sys2Proof.Machine.execIdivZ32 g d a b s
  | .iremS32 g d a b => Sys2Proof.Machine.execIremS32 g d a b s
  | .iremZ32 g d a b => Sys2Proof.Machine.execIremZ32 g d a b s
  | .sel g d a b w n p => Sys2Proof.Machine.execSel g d a b w n p s
  | .icmpS64 g pt pf a b cond => Sys2Proof.Machine.execIcmpS64 g pt pf a b cond s
  | .icmpZ64 g pt pf a b cond => Sys2Proof.Machine.execIcmpZ64 g pt pf a b cond s
  | .iadd3S32 g d a b c => Sys2Proof.Machine.execIadd3S32 g d a b c s
  | .shlZ64 g d a b => Sys2Proof.Machine.execShlZ64 g d a b s
  | .shrZ64 g d a b => Sys2Proof.Machine.execShrZ64 g d a b s
  | .shrS64 g d a b => Sys2Proof.Machine.execShrS64 g d a b s
  | .andZ64 g d a b => Sys2Proof.Machine.execAndZ64 g d a b s
  | .orZ64 g d a b => Sys2Proof.Machine.execOrZ64 g d a b s
  | .xorZ64 g d a b => Sys2Proof.Machine.execXorZ64 g d a b s
  | .popcZ64 g d a => Sys2Proof.Machine.execPopcZ64 g d a s
  | .clzZ64 g d a => Sys2Proof.Machine.execClzZ64 g d a s
  | .ffma3F32 g d a b c => Sys2Proof.Machine.execFfma3F32 g d a b c s
  | .ffma3F16x2 g d a b c => Sys2Proof.Machine.execFfma3F16x2 g d a b c s
  | .ffma3Bf16x2 g d a b c => Sys2Proof.Machine.execFfma3Bf16x2 g d a b c s
  | .faddF32Rm g d a b rm => Sys2Proof.Machine.execFaddF32Rm g d a b rm s
  | .fmulF32Rm g d a b rm => Sys2Proof.Machine.execFmulF32Rm g d a b rm s
  | .dotsS16x2 g d a b c => Sys2Proof.Machine.execDotsS16x2 g d a b c s
  | .fcmpF16 g pt pf a b h cc => Sys2Proof.Machine.execFcmpF16 g pt pf a b h cc s
  | .fcmpBf16 g pt pf a b h cc => Sys2Proof.Machine.execFcmpBf16 g pt pf a b h cc s
  | .cvtWide g d a dst src rm sat spos dpos => Sys2Proof.Machine.execCvtWide g d a dst src rm sat spos dpos s
  | .ldType g d a dc ofs cp ty => Sys2Proof.Machine.execLdType g d a dc ofs cp ty s
  | .stType g d a dc ofs cp ty => Sys2Proof.Machine.execStType g d a dc ofs cp ty s
  | .atom g d a dc ofs c scope ty op => Sys2Proof.Machine.execAtom g d a dc ofs c scope ty op s
  | .ldres g d a dc ofs w => Sys2Proof.Machine.execLdres g d a dc ofs w s
  | .stcon g d a dc ofs c w => Sys2Proof.Machine.execStcon g d a dc ofs c w s
  | .fence g dc scope => Sys2Proof.Machine.execFence g dc scope s
  | .drainnt g => Sys2Proof.Machine.execDrainnt g s
  | .drainst g => Sys2Proof.Machine.execDrainst g s
  | .xcopyIn g d a dc c acq rel scope => Sys2Proof.Machine.execXcopyIn g d a dc c acq rel scope s
  | .xcopyOut g d a dc c acq scope t2 => Sys2Proof.Machine.execXcopyOut g d a dc c acq scope t2 s
  | .xmcast g d a dc c acq rel scope rb => Sys2Proof.Machine.execXmcast g d a dc c acq rel scope rb s
  | .fread g d a dc c rel scope => Sys2Proof.Machine.execFread g d a dc c rel scope s
  | .fwrite g d a dc c t2 => Sys2Proof.Machine.execFwrite g d a dc c t2 s
  | .waitc g d a b w => Sys2Proof.Machine.execWaitc g d a b w s
  | .fork g d a dc c => Sys2Proof.Machine.execFork g d a dc c s
  | .join g d a dc => Sys2Proof.Machine.execJoin g d a dc s
  | .feed g d a dc c => Sys2Proof.Machine.execFeed g d a dc c s
  | .take g d t q c n => Sys2Proof.Machine.execTake g d t q c n s
  | .barInit g a k => Sys2Proof.Machine.execBarInit g a k s
  | .barArv g k => Sys2Proof.Machine.execBarArv g k s
  | .barAddr g d k => Sys2Proof.Machine.execBarAddr g d k s
  | .arrive g a dc => Sys2Proof.Machine.execArrive g a dc s
  | .bwait g d a dc => Sys2Proof.Machine.execBwait g d a dc s
  | .caladv g a => Sys2Proof.Machine.execCaladv g a s
  | .caladvAllow g a => Sys2Proof.Machine.execCaladvAllow g a s
  | .spawn g d a dc => Sys2Proof.Machine.execSpawn g d a dc s
  | .lnsend g d a b => Sys2Proof.Machine.execLnsend g d a b s
  | .lnclr g d a => Sys2Proof.Machine.execLnclr g d a s
  | .bkpt g n => Sys2Proof.Machine.execBkpt g n s
  | .svcall g n => Sys2Proof.Machine.execSvcall g n s
  | .tret g => Sys2Proof.Machine.execTret g s
  | .termRay g => Sys2Proof.Machine.execTermRay g s
  | .termBeam g => Sys2Proof.Machine.execTermBeam g s
  | .mma g a b scope rel acq db da t => Sys2Proof.Machine.execMma g a b scope rel acq db da t s
  | .mmaz g a b scope rel acq db da t => Sys2Proof.Machine.execMmaz g a b scope rel acq db da t s
  | .mzero g t => Sys2Proof.Machine.execMzero g t s
  | .mhaar g a b scope rel t => Sys2Proof.Machine.execMhaar g a b scope rel t s
  | .mihaarTile g scope rel t => Sys2Proof.Machine.execMihaarTile g scope rel t s
  | .mihaar g a b scope rel => Sys2Proof.Machine.execMihaar g a b scope rel s
  | .mthrSet g a n => Sys2Proof.Machine.execMthrSet g a n s
  | .mthrTile g a scope rel => Sys2Proof.Machine.execMthrTile g a scope rel s
  | .msig g a => Sys2Proof.Machine.execMsig g a s
  | .mwait g a b e => Sys2Proof.Machine.execMwait g a b e s
  | .mdesc g a b j => Sys2Proof.Machine.execMdesc g a b j s
  | .mend g => Sys2Proof.Machine.execMend g s
  | .bankmodeSelect cmd => Sys2Proof.Machine.execBankmodeSelect cmd s
  | .bankmodeSwitch cmd => Sys2Proof.Machine.execBankmodeSwitch cmd s
  | .bankSwitchStep cl bank => Sys2Proof.Machine.execBankSwitchStep cl bank s
  | .clauseEntry core pipe => Sys2Proof.Machine.execClauseEntry core pipe s
  | .issueStarvation core pipe => Sys2Proof.Machine.execIssueStarvation core pipe s
  | .yieldTimeout core rslot => Sys2Proof.Machine.execYieldTimeout core rslot s
  | .slotStallEnd core rslot => Sys2Proof.Machine.execSlotStallEnd core rslot s
  | .pageWalk die => Sys2Proof.Machine.execPageWalk die s
  | .loadComplete core op => Sys2Proof.Machine.execLoadComplete core op s
  | .storeCheck core op => Sys2Proof.Machine.execStoreCheck core op s
  | .storeFaultRecord core op => Sys2Proof.Machine.execStoreFaultRecord core op s
  | .storeFaultReport core rslot => Sys2Proof.Machine.execStoreFaultReport core rslot s
  | .atomicComplete core op => Sys2Proof.Machine.execAtomicComplete core op s
  | .fifoOperationComplete core op => Sys2Proof.Machine.execFifoOperationComplete core op s
  | .acqComplete core op => Sys2Proof.Machine.execAcqComplete core op s
  | .relComplete core op => Sys2Proof.Machine.execRelComplete core op s
  | .fenceComplete core op => Sys2Proof.Machine.execFenceComplete core op s
  | .dirtyWriteBack level unit sector => Sys2Proof.Machine.execDirtyWriteBack level unit sector s
  | .copyAccept core op => Sys2Proof.Machine.execCopyAccept core op s
  | .copyChunkComplete core op chunk second => Sys2Proof.Machine.execCopyChunkComplete core op chunk second s
  | .flashProgramComplete core op => Sys2Proof.Machine.execFlashProgramComplete core op s
  | .ldtComplete core op => Sys2Proof.Machine.execLdtComplete core op s
  | .sthComplete core op => Sys2Proof.Machine.execSthComplete core op s
  | .feedComplete core op => Sys2Proof.Machine.execFeedComplete core op s
  | .barrierArrival k => Sys2Proof.Machine.execBarrierArrival k s
  | .bwaitComplete core op => Sys2Proof.Machine.execBwaitComplete core op s
  | .spawnComplete core op => Sys2Proof.Machine.execSpawnComplete core op s
  | .streamBegin cl => Sys2Proof.Machine.execStreamBegin cl s
  | .tileCommandExecute cl => Sys2Proof.Machine.execTileCommandExecute cl s
  | .mwaitRelease cl => Sys2Proof.Machine.execMwaitRelease cl s
  | .streamEnd cl => Sys2Proof.Machine.execStreamEnd cl s
  | .loupeFrontierReport core rslot => Sys2Proof.Machine.execLoupeFrontierReport core rslot s
  | .loupeWaitReport core rslot => Sys2Proof.Machine.execLoupeWaitReport core rslot s
  | .qdoor fn q wr => Sys2Proof.Machine.execQdoor fn q wr s
  | .queueHeaderPoll q => Sys2Proof.Machine.execQueueHeaderPoll q s
  | .packetTake q => Sys2Proof.Machine.execPacketTake q s
  | .launchBegin l => Sys2Proof.Machine.execLaunchBegin l s
  | .barrierPacketEvaluate q => Sys2Proof.Machine.execBarrierPacketEvaluate q s
  | .aggregatorMerge q => Sys2Proof.Machine.execAggregatorMerge q s
  | .pageEntryTake l pos => Sys2Proof.Machine.execPageEntryTake l pos s
  | .pageTranslate l pos => Sys2Proof.Machine.execPageTranslate l pos s
  | .flashSense l pos => Sys2Proof.Machine.execFlashSense l pos s
  | .ldpcDecode l pos => Sys2Proof.Machine.execLdpcDecode l pos s
  | .pageFetch l pos => Sys2Proof.Machine.execPageFetch l pos s
  | .pageDecompress l pos => Sys2Proof.Machine.execPageDecompress l pos s
  | .pageTransform l pos => Sys2Proof.Machine.execPageTransform l pos s
  | .windowCarve l pos => Sys2Proof.Machine.execWindowCarve l pos s
  | .pageLanding l pos => Sys2Proof.Machine.execPageLanding l pos s
  | .dispatcherBankTake cl bank => Sys2Proof.Machine.execDispatcherBankTake cl bank s
  | .beamPlace l pos => Sys2Proof.Machine.execBeamPlace l pos s
  | .gangPlace l pos => Sys2Proof.Machine.execGangPlace l pos s
  | .beamComplete l pos => Sys2Proof.Machine.execBeamComplete l pos s
  | .launchComplete l => Sys2Proof.Machine.execLaunchComplete l s
  | .sliceExpiry core ctx => Sys2Proof.Machine.execSliceExpiry core ctx s
  | .preemptDecision l pos trigger => Sys2Proof.Machine.execPreemptDecision l pos trigger s
  | .drainTimeout l pos => Sys2Proof.Machine.execDrainTimeout l pos s
  | .beamSave l pos => Sys2Proof.Machine.execBeamSave l pos s
  | .beamFlush l pos => Sys2Proof.Machine.execBeamFlush l pos s
  | .replyIntoSaveRecord l pos op => Sys2Proof.Machine.execReplyIntoSaveRecord l pos op s
  | .beamResume l pos => Sys2Proof.Machine.execBeamResume l pos s
  | .lanternRecord k => Sys2Proof.Machine.execLanternRecord k s
  | .lanternDeliver core rslot => Sys2Proof.Machine.execLanternDeliver core rslot s
  | .evpop core => Sys2Proof.Machine.execEvpop core s
  | .sffree core mask => Sys2Proof.Machine.execSffree core mask s
  | .raycmdSelect core rslot => Sys2Proof.Machine.execRaycmdSelect core rslot s
  | .raycmdResume core rslot => Sys2Proof.Machine.execRaycmdResume core rslot s
  | .raycmdResumeSkip core rslot => Sys2Proof.Machine.execRaycmdResumeSkip core rslot s
  | .raycmdPark core rslot => Sys2Proof.Machine.execRaycmdPark core rslot s
  | .raycmdTermRay core rslot => Sys2Proof.Machine.execRaycmdTermRay core rslot s
  | .raycmdTermBeam core rslot => Sys2Proof.Machine.execRaycmdTermBeam core rslot s
  | .raycmdTermCtx core rslot => Sys2Proof.Machine.execRaycmdTermCtx core rslot s
  | .xlate core v => Sys2Proof.Machine.execXlate core v s
  | .tlbinvPage core ctx va => Sys2Proof.Machine.execTlbinvPage core ctx va s
  | .tlbinvContext core ctx => Sys2Proof.Machine.execTlbinvContext core ctx s
  | .tlbinvAll core => Sys2Proof.Machine.execTlbinvAll core s
  | .raywin core off size v => Sys2Proof.Machine.execRaywin core off size v s
  | .createCtx fn blk => Sys2Proof.Machine.execCreateCtx fn blk s
  | .destroyCtx fn blk => Sys2Proof.Machine.execDestroyCtx fn blk s
  | .createQueue fn blk => Sys2Proof.Machine.execCreateQueue fn blk s
  | .destroyQueue fn blk => Sys2Proof.Machine.execDestroyQueue fn blk s
  | .clearHalt fn blk => Sys2Proof.Machine.execClearHalt fn blk s
  | .suspend fn blk => Sys2Proof.Machine.execSuspend fn blk s
  | .resume fn blk => Sys2Proof.Machine.execResume fn blk s
  | .confirmBoot fn blk => Sys2Proof.Machine.execConfirmBoot fn blk s
  | .stageImage fn blk => Sys2Proof.Machine.execStageImage fn blk s
  | .setPowerCap fn blk => Sys2Proof.Machine.execSetPowerCap fn blk s
  | .readLog fn blk => Sys2Proof.Machine.execReadLog fn blk s
  | .flashStatus fn blk => Sys2Proof.Machine.execFlashStatus fn blk s
  | .assignFlash fn blk => Sys2Proof.Machine.execAssignFlash fn blk s
  | .eraseFlash fn blk => Sys2Proof.Machine.execEraseFlash fn blk s
  | .nonce fn blk => Sys2Proof.Machine.execNonce fn blk s
  | .releaseOwner fn blk => Sys2Proof.Machine.execReleaseOwner fn blk s
  | .claimOwner fn blk => Sys2Proof.Machine.execClaimOwner fn blk s
  | .lnpay fn k v => Sys2Proof.Machine.execLnpay fn k v s
  | .lndoor fn k v => Sys2Proof.Machine.execLndoor fn k v s
  | .registerWriteOther fn off v => Sys2Proof.Machine.execRegisterWriteOther fn off v s
  | .trustLoss fn => Sys2Proof.Machine.execTrustLoss fn s
  | .moduleReset => Sys2Proof.Machine.execModuleReset s
  | .watchdogExpiry => Sys2Proof.Machine.execWatchdogExpiry s
  | .imageBlockFill blk => Sys2Proof.Machine.execImageBlockFill blk s
  | .sharedBootRetry => Sys2Proof.Machine.execSharedBootRetry s
  | .patrolScrub unit addr => Sys2Proof.Machine.execPatrolScrub unit addr s
  | .flitCrcFail link => Sys2Proof.Machine.execFlitCrcFail link s
  | .thermalThrottle on => Sys2Proof.Machine.execThermalThrottle on s
  | .thermalTrip => Sys2Proof.Machine.execThermalTrip s
  | .spdmRequest fn msg => Sys2Proof.Machine.execSpdmRequest fn msg s
  | .peerRequest fn req => Sys2Proof.Machine.execPeerRequest fn req s

end Sys2Proof.Machine
end

