-- ==== Sys2Proof/Machine/Turn.lean ====
section
/-!
DEFINITION. What comes next: the events that may come next, the free choice among them with the clocks that pass
before it (R32, R350, R417), and a turn as it runs: the next slot of a ray (R89, R248) or of a stream (R216), or
an event. Step.lean calls these.
-/
namespace Sys2Proof.Machine
open Sys2Proof

/-- An outcome with its next state changed. -/
def outMap (f : State → State) : Out → Out
  | .next s => .next (f s)
  | .fault r => .fault r
  | .refused r => .refused r

/-! ### Slots -/

/-- A word of a held clause runs as its actor: the words were decoded as the clause was checked (R92, R109), and words
that are no instruction raise the precise trap of their cause. (DEDUCED, log entry 8) -/
def runWords (ws : List Word) (who : Actor) (s : State) : Out :=
  match decode ws with
  | .ok (i, _) => exec i { s with cur := who }
  | .error e => .next (({ s with cur := who } : State).trapCur e.cause 0 0 0)

/-- The ray may run the next slot of its clause: it is not parked, its slot does not wait, no translation fault stalls
the core (R388), its clause holds the quarter pipe (R248), and the clocks of the slot have passed (R245). -/
def State.slotReady (s : State) (core : Nat) (rslot : Nat) (r : Ray) : Bool :=
  r.parked.isNone && r.th.live != 0 && (s.core core).xfault.isNone && !s.module.tripped &&
    (match r.stall with | none | some (.answered _) => true | _ => false) &&
    SMap.get? (s.core core).pipes r.pipe == some rslot && decide (r.slotEnd ≤ s.clock)

/-- After a slot nobody executes, and a PARK that is due at the boundary is taken (R385). -/
def State.afterSlot (core rslot : Nat) (s : State) : State := ({ s with cur := .none } : State).parkIfDue core rslot

/-- The next slot of a ray's held clause. -/
def runSlot (core rslot : Nat) (s : State) : Out :=
  match s.ray core rslot with
  | none => .next s
  | some r =>
    match r.th.clause with
    | none => .next s
    | some c =>
      if s.slotReady core rslot r then
        outMap (State.afterSlot core rslot) (runWords (c.slots.drop c.next) (.ray core rslot) s)
      else .next s

/-- A stream may enter a clause or run a slot: throttling withholds only clause starts of quarter pipes (R416). -/
def Stream.slotReady (x : Stream) : Bool := x.state == .running && x.th.live != 0

/-- The next slot of a cluster's stream, whose next clause is entered first where it holds none (R216). -/
def runStreamSlot (cl : Nat) (s : State) : Out :=
  if s.module.tripped then .next s
  else
    let s := s.streamClause cl
    match (s.cluster cl).stream with
    | none => .next s
    | some x =>
      match x.th.clause with
      | none => .next s
      | some c =>
        if x.slotReady then
          outMap (fun s => { s with cur := .none }) (runWords (c.slots.drop c.next) (.stream cl) s)
        else .next s

/-- A turn as it runs. (DESIGN CHOICE, log entry 1) -/
def runTurn (t : Turn) (s : State) : Out :=
  match t with
  | .slot core rslot => runSlot core rslot s
  | .streamSlot cl => runStreamSlot cl s
  | .event e => exec e { s with cur := .none }

/-! ### What may come next -/

/-- The events that outside agents make: the host, the supervisor cores' software, peer modules, the links and the
environment. They come from the inputs alone. -/
def outsideEvent : Instr → Bool
  | .qdoor .. | .evpop .. | .sffree .. | .raycmdSelect .. | .raycmdResume .. | .raycmdResumeSkip .. | .raycmdPark ..
  | .raycmdTermRay .. | .raycmdTermBeam .. | .raycmdTermCtx .. | .xlate .. | .tlbinvPage .. | .tlbinvContext .. | .tlbinvAll ..
  | .raywin .. | .createCtx .. | .destroyCtx .. | .createQueue .. | .destroyQueue .. | .clearHalt .. | .suspend .. | .resume ..
  | .confirmBoot .. | .stageImage .. | .setPowerCap .. | .readLog .. | .flashStatus .. | .assignFlash .. | .eraseFlash ..
  | .nonce .. | .releaseOwner .. | .claimOwner .. | .lnpay .. | .lndoor .. | .registerWriteOther .. | .trustLoss ..
  | .moduleReset | .flitCrcFail .. | .thermalThrottle .. | .thermalTrip | .spdmRequest .. | .peerRequest .. => true
  | _ => false

/-- The events by which the device itself moves. One that cannot take place leaves the state as it is. -/
def ownEvent : Instr → Bool
  | .bankSwitchStep .. | .clauseEntry .. | .issueStarvation .. | .yieldTimeout .. | .slotStallEnd .. | .pageWalk ..
  | .loadComplete .. | .storeCheck .. | .storeFaultRecord .. | .storeFaultReport .. | .atomicComplete ..
  | .fifoOperationComplete .. | .acqComplete .. | .relComplete .. | .fenceComplete .. | .dirtyWriteBack .. | .copyAccept ..
  | .copyChunkComplete .. | .flashProgramComplete .. | .ldtComplete .. | .sthComplete .. | .feedComplete .. | .barrierArrival ..
  | .bwaitComplete .. | .spawnComplete .. | .streamBegin .. | .tileCommandExecute .. | .mwaitRelease .. | .streamEnd ..
  | .loupeFrontierReport .. | .loupeWaitReport .. | .queueHeaderPoll .. | .packetTake .. | .launchBegin ..
  | .barrierPacketEvaluate .. | .aggregatorMerge .. | .pageEntryTake .. | .pageTranslate .. | .flashSense .. | .ldpcDecode ..
  | .pageFetch .. | .pageDecompress .. | .pageTransform .. | .windowCarve .. | .pageLanding .. | .dispatcherBankTake ..
  | .beamPlace .. | .gangPlace .. | .beamComplete .. | .launchComplete .. | .sliceExpiry .. | .preemptDecision ..
  | .drainTimeout .. | .beamSave .. | .beamFlush .. | .replyIntoSaveRecord .. | .beamResume .. | .lanternRecord ..
  | .lanternDeliver .. | .watchdogExpiry | .imageBlockFill .. | .sharedBootRetry | .patrolScrub .. => true
  | _ => false

/-- An event that the device may make now: one of its own, the end of a long command under way (R398), or the boot ROM
where it has not yet run (R410). -/
def State.mayMake (s : State) (e : Instr) : Bool :=
  ownEvent e ||
  (match e with
   | .moduleReset => s.module.boot == .rom && s.module.retryAt.isNone
   | .destroyCtx fn blk => match (s.fnOf fn).doing with | some (op, _) => op == 2 && blk.toNat == (s.fnOf fn).cmdAddr | none => false
   | .releaseOwner fn blk => match (s.fnOf fn).doing with | some (op, _) => op == 16 && blk.toNat == (s.fnOf fn).cmdAddr | none => false
   | .destroyQueue fn blk => match (s.fnOf fn).doing with | some (op, _) => op == 4 && blk.toNat == (s.fnOf fn).cmdAddr | none => false
   | _ => false)

/-- A turn that the device may take: a slot, or an event of its own. A trip stops every die (R416). -/
def State.mayTurn (s : State) (t : Turn) : Bool :=
  !s.module.tripped && (match t with | .event e => s.mayMake e | .slot .. | .streamSlot _ => true)

/-! ### The choice -/

/-- What follows of itself from the state at a clock: JOINs whose streams are over (R210), the counts of readiness and
waits (R249, R256), saved beams that may resume (R347), and lanterns that make them urgent (R371). -/
def State.settle (s : State) : State :=
  ((s.clusters.foldl (fun s (cl, _) => s.settleJoins cl) s).observe.observeSaved).observeWakes

/-- The next input of an outside agent; one that is no event of theirs is dropped. (DESIGN CHOICE, log entry 3) -/
def State.takeInput (s : State) : State :=
  match s.inputs with
  | e :: rest => { s with turn := if outsideEvent e then some (.event e) else none, inputs := rest }
  | [] => s

/-- The choice of what comes next, after some clocks: a turn of the device, or an input. (DESIGN CHOICE, log entry 3) -/
def State.choose (s : State) : State :=
  let s1 := (({ s with tick := s.tick + 1 } : State).settle.pass (Config.clocks s.tick)).settle
  match Config.turn s.tick with
  | some t => if s1.mayTurn t then { s1 with turn := some t } else s1
  | none => s1.takeInput

/-! ### Placing one instruction before the fetch -/

/-- The clause that holds one instruction's words alone, or three slots that are no instruction. -/
def fetchClause (nbits w : Nat) : Clause :=
  let ws := tableSlots nbits w
  let (n, c) : Nat × Nat := match decode ws with
    | .ok (i, n) => (n, match i.cls with | some c => c.code | none => 7)
    | .error _ => (3, 0)
  { hdr := 0, word := BitVec.ofNat 32 (n * 2 ^ 28 + c * 2 ^ 25), slots := ws.take n, next := 0, pos := 1, entering := allLanes, hset := [] }

/-- A thread of registers 0 that stands in a clause. -/
def fetchThread (kind : ThreadKind) (c : Clause) : Thread :=
  { kind := kind, v := [], marks := [], s := [], m := [], p := [], vpc := laneTab fun _ => 4, live := allLanes
    flags := laneTab fun _ => 0, fmode := 0, latches := [], ret := [], level := laneTab fun _ => 0, depth := 16, allot := 96
    retired := 0, clause := some c, span := 16 }

/-- Ray 0 of core 0 stands before the only instruction of its clause: the resident ray if there is one, else a ray
with registers 0. -/
def fetchRay (old : Option Ray) (c : Clause) : Ray :=
  match old with
  | some r => { r with th := { r.th with clause := some c, latches := [], live := allLanes }, parked := none, stall := none, pipe := 0, slotEnd := 0 }
  | none => Ray.release (fetchThread .ray c) 0 0 0 0 0 0

/-- Ray 0 of core 0 about to run one instruction, or the stream of cluster 0 if the clause is of the sequencer class.
(DESIGN CHOICE, log entry 2) -/
def State.placeFetch (s : State) (c : Clause) : State :=
  let s := { s with module := { s.module with tripped := false } }
  if hdrClass c.word = 5 then
    let x : Stream := { th := fetchThread .stream c, fork := ⟨0, 0, 0, 0, 0, 0, 0, 0, 0, 0, 0⟩, state := .running, desc := [], status := 0, failPc := 0 }
    { s.updCluster 0 (fun k => { k with stream := some x }) with turn := some (.streamSlot 0) }
  else
    { s.updCore 0 (fun k => { k with rays := SMap.put k.rays 0 (fetchRay (SMap.get? k.rays 0) c), pipes := SMap.put k.pipes 0 0, xfault := none }) with
      turn := some (.slot 0 0) }

end Sys2Proof.Machine
end

