-- ==== Sys2Proof/Machine/Step.lean ====
section
/-!
DEFINITION. One step: the turn that has been chosen runs; where none has been chosen, one is. A turn is one slot of
a ray or stream or one event, and takes effect as a whole.
-/
namespace Sys2Proof.Machine
open Sys2Proof

/-- One step of the machine. (DESIGN CHOICE, log entry 1) -/
def step (s : State) : Host.Outcome State Fault Refusal :=
  match s.turn with
  | some t => runTurn t { s with turn := none }
  | none => .next s.choose

/-- The state with one instruction where the next step fetches it: the words of a table row, in a clause of their own
that ray 0 of core 0 holds (a sequencer's instruction: the stream of cluster 0), chosen to run.
(DESIGN CHOICE, log entry 2) -/
def State.withFetchWord (s : State) (nbits w : Nat) : State := s.placeFetch (fetchClause nbits w)

end Sys2Proof.Machine
end

