-- ==== Sys2Proof/Safety.lean ====
section
/-!
DEFINITION. The words in which claims are stated: a memory in canonical form, a thread that is ready to run an
instruction, and the states an instruction's own effect leaves, from the operations the meanings use.
-/
namespace Sys2Proof.Machine

/-! ### Memory -/

/-- Every memory of the machine is in its canonical form: HBM, host memory and each cluster's scratchpad. -/
def State.memWf (s : State) : Prop :=
  s.hbm.wf = true ∧ s.host.wf = true ∧ ∀ p ∈ s.clusters, p.2.sram.wf = true

/-- Two states hold the same bytes at every address: HBM, host memory and every scratchpad. -/
def State.sameMem (s u : State) : Prop :=
  (∀ a, Mem.read u.hbm a = Mem.read s.hbm a) ∧ (∀ a, Mem.read u.host a = Mem.read s.host a) ∧
    ∀ c a, Mem.read (u.cluster c).sram a = Mem.read (s.cluster c).sram a

/-! ### Register instructions -/

/-- The registers t belong to the ray or stream that executes, and no register the instruction names is a pending token. -/
def State.atSlot (s : State) (t : Thread) (i : Instr) : Prop := s.curThread = some t ∧ s.tokenWait i = none

/-- No active lane holds a mark in some operands (R65, R66). -/
def Thread.clean (t : Thread) (g : Guard) (w64 : Bool) (os : List Opnd) : Prop :=
  ∀ k < 32, bit (t.active g) k = true → ∀ o ∈ os, t.marked w64 o k = false

/-- The state after a register instruction of the executing thread: results, marks and flags of the active lanes
written, the latch left, the slot passed. -/
def State.wrote (s : State) (t : Thread) (i : Instr) (d : Opnd) (w64 : Bool) (val : Nat → DWord)
    (mk : Nat → Bool := fun _ => false) (fl : Nat → BitVec 6 := fun _ => 0) : State :=
  let act := t.active i.guard
  s.finishSlot (((t.raise act fl).deliver d w64 act val mk).advance i.size)

/-- The state after an instruction that writes a predicate and its complement. -/
def State.decided (s : State) (t : Thread) (i : Instr) (pt pf : Pred) (val : Nat → Bool)
    (fl : Nat → BitVec 6 := fun _ => 0) : State :=
  let act := t.active i.guard
  s.finishSlot ((((t.raise act fl).setPreds pt pf act (maskOf val)).push Latch.zero).advance i.size)

/-- The state after an instruction that writes no register: the registers u, the slot passed, a latch of 0. -/
def Thread.past (t : Thread) (i : Instr) : Thread := (t.advance i.size).push Latch.zero

/-- The ray that executes, its core, its resident slot and itself. -/
def State.executes (s : State) (core rslot : Nat) (r : Ray) : Prop :=
  s.cur = .ray core rslot ∧ s.ray core rslot = some r

end Sys2Proof.Machine
end

