-- ==== Sys2Proof/WellFormed.lean ====
section
/-!
DEFINITION. What makes an instruction well formed: one literal, no reserved field value, legal operands (R96 to
R108). The checks themselves are in Sys2Proof.Machine.Legal, where clause entry (R109) uses them too.
-/
namespace Sys2Proof

/-! ### Well-formedness -/

/-- Every literal an instruction names is one literal, its fields hold no reserved value, and its operands are
legal in the last position of a clause of a ray of the greatest allotment or, where a stream admits it, of a stream. -/
def Instr.wf (i : Instr) : Bool :=
  i.cls.isSome && i.litOk && i.fieldsOk &&
  ((i.cls != some .sequencer && (i.operandCauses ⟨false, 96, 15⟩).isEmpty) ||
    (i.seqOk && (i.operandCauses ⟨true, 0, 15⟩).isEmpty))

/-- An instruction that has words at all, with one literal: what the encoder needs. -/
def Instr.encodable (i : Instr) : Bool := i.cls.isSome && i.litOk

end Sys2Proof
end

