-- ==== Sys2Proof/Certificates/Slice0/Obligations.lean ====
section
/-!
DEFINITION. The statements for the provers, each with the rules of the spec it formalises, and before them the
tables of instructions that the statements go through.
-/
namespace Sys2Proof.Claims
open Sys2Proof Sys2Proof.Machine

/-- A word from the rule of its bits. -/
def ofBits (f : Nat → Bool) : Word := maskOf f

end Sys2Proof.Claims
open Sys2Proof Sys2Proof.Machine Sys2Proof.Claims

/-! ### Decoding, a step, reset and the frame of register instructions (R13, R18 to R22, R26, R28, R32, R88, R89, R96 to R109, R219, R248, R264) -/

namespace Sys2Proof.Claims

/-- Words written out from the encodings of the spec, and the instruction that each is. -/
def spelled : List (List Word × Instr) :=
  [([0b00000000111000000100000100000011#32], .iaddS32 ⟨false, 7⟩ (.v 1) (.v 2) (.v 3)),
   ([0b00101001010110000000000011111101#32, 0x12345678#32], .shlZ32 ⟨true, 2⟩ (.s 0) (.v 1) (.lit 0x12345678)),
   ([0b01000000111001010000000100000011#32], .icmpEqZ32 ⟨false, 7⟩ 1 2 (.v 2) (.v 3)),
   ([0b01010000111000000111100001111100#32], .ballot ⟨false, 7⟩ (.v 1) 7 false),
   ([0b11111110111000000100000100000011#32, 0b00000000111110000000000000000000#32], .idivS32 ⟨false, 7⟩ (.v 1) (.v 2) (.v 3)),
   ([0b11111110111000000100000101111100#32, 0b00001110111110000000000000000000#32], .popcZ64 ⟨false, 7⟩ (.v 1) (.v 2)),
   ([0b11111110111111111111111001111100#32, 0b01000000111110000000000000000111#32], .bkpt ⟨false, 7⟩ 7),
   ([0b11111110111111111110000001111100#32, 0b00110100111110000000000000000000#32], .caladv ⟨false, 7⟩ (.v 64)),
   ([0b11111110111000000111000000010000#32, 0b00110011111110000000000000000000#32], .bwait ⟨false, 7⟩ (.v 1) (.s 0) 1)]

/-- A slot of a ray's clause c is over: the lanes of the clause are past the instruction, the clause goes on or ends, and
no other ray or core, no memory, no cache, no context and no bank changes (R89). -/
def slotOver (s u : State) (core rslot : Nat) (r r' : Ray) (c : Clause) (i : Instr) : Prop :=
  u.ray core rslot = some r' ∧
  (∀ k < 32, r'.th.pcOf k = if bit c.entering k then r.th.pcOf k + BitVec.ofNat 32 (4 * i.size) else r.th.pcOf k) ∧
  r'.th.retired = r.th.retired + 1 ∧
  r'.th.clause = (if c.next + i.size < c.slots.length then some { c with next := c.next + i.size, pos := c.pos + 1 } else none) ∧
  (∀ k, k ≠ rslot → u.ray core k = s.ray core k) ∧ (∀ j, j ≠ core → u.core j = s.core j) ∧
  u.hbm = s.hbm ∧ u.host = s.host ∧ u.clusters = s.clusters ∧ u.l2 = s.l2 ∧ u.ctxs = s.ctxs ∧ (u.core core).l1 = (s.core core).l1

/-- The registers that no result, predicate, flag or latch of a slot is: of two threads the same (R18 to R29). -/
def sameOthers (t u : Thread) : Prop :=
  { u with v := [], marks := [], s := [], p := [], flags := [], latches := [], vpc := [], clause := none, retired := 0 } =
    { t with v := [], marks := [], s := [], p := [], flags := [], latches := [], vpc := [], clause := none, retired := 0 }

/-- %flags gains the flags of each active lane, unless the slot is quiet (R28, R42). -/
def flagsGained (t u : Thread) (act : Mask) (fl : Nat → BitVec 6) : Prop :=
  ∀ k < 32, laneGet u.flags 0 k = if bit act k ∧ t.quiet = false then laneGet t.flags 0 k ||| fl k else laneGet t.flags 0 k

/-- The latches have moved down by one (R26). -/
def latchesMoved (t u : Thread) : Prop := ∀ j < 3, ∀ k < 32, u.latch (j + 1) k = t.latch j k ∧ u.latchMark (j + 1) k = t.latchMark j k

end Sys2Proof.Claims

/-- R88, R96 to R103: decoding undoes encoding: the words of an instruction with one literal, whatever follows them,
decode to it, with every operand and field at every value, and take as many slots as it has words. -/
def Obligations.DecodeEncode : Prop :=
  ∀ (i : Instr) (rest : List Word), i.encodable = true → decode (encode i ++ rest) = .ok (i, i.size)

/-- R97, R99, R101, R103, R116, R119, R127, R204, R205, R389: words written out bit by bit from the spec's encodings. -/
def Obligations.DecodeWords : Prop :=
  ∀ row ∈ spelled, decode row.1 = .ok (row.2, row.1.length) ∧ encode row.2 = row.1

/-- R89, R92, R216, R248, R385: a step of a ray that may go on runs the instruction that the next words of its clause
decode to, with the ray executing and its quarter pipe held, and where that gives a next state nobody executes in it and a
PARK that is due is taken; a step of a stream runs its next instruction; a step of an event is the event; where nothing has been chosen a step chooses.
That a step is one chosen turn, which turn it is and who executes it, is the model's own (log entries 1 and 3), and so is that a PARK
is taken as its boundary comes (log entry 74). -/
def Obligations.StepRunsDecoded : Prop :=
  ∀ (s : State) (core rslot cl : Nat) (r : Ray) (x : Stream) (c : Clause) (i : Instr) (n : Nat),
    (decode (c.slots.drop c.next) = .ok (i, n) →
      (s.turn = some (.slot core rslot) → s.ray core rslot = some r → r.th.clause = some c → r.parked = none → r.th.live ≠ 0 →
        (r.stall = none ∨ ∃ st, r.stall = some (.answered st)) → (s.core core).xfault = none → s.module.tripped = false →
        (SMap.get? (s.core core).pipes r.pipe = none ∨ SMap.get? (s.core core).pipes r.pipe = some rslot) →
        let before : State := { ({ s with turn := none } : State).setCore core
          { s.core core with pipes := SMap.put (s.core core).pipes r.pipe rslot } with cur := .ray core rslot }
        step s = outMap (fun u => ({ u with cur := .none } : State).parkIfDue core rslot) (exec i before)) ∧
      (s.turn = some (.streamSlot cl) → (s.cluster cl).stream = some x → x.th.clause = some c → x.state = .running →
        x.th.live ≠ 0 → s.module.tripped = false →
        step s = outMap (fun u => { u with cur := .none }) (exec i { s with turn := none, cur := .stream cl }))) ∧
    (∀ e, s.turn = some (.event e) → step s = exec e { s with turn := none, cur := .none }) ∧
    (s.turn = none → step s = .next s.choose)

/-- R5 to R7, R162, R276 and the model's form of memory: every step keeps HBM, host memory and every scratchpad in canonical form: addresses
strictly rising and no byte listed that an unlisted address reads as, so that equal memories are equal data. The form
is the model's own (log entry 5). -/
def Obligations.StepKeepsMemory : Prop :=
  ∀ s u : State, s.memWf → step s = .next u → u.memWf

/-- R32, R219, R262, R264: after module reset %clock is 0, every bank is in CACHE mode, unowned and not switching,
every accumulator tile holds +0 with tag 0x00, empty and without owner, no ray is resident and no context or queue
exists. The memory is in canonical form, where every byte reads 0 (the model's choice, log entry 5). -/
def Obligations.ResetState : Prop :=
  State.reset.clock = 0 ∧
  (∀ cl b, (State.reset.cluster cl).bank b = { mode := .cache, owner := none, sw := false, win := false, head := 0, tail := 0, count := 0 }) ∧
  (∀ cl t m n, m < 128 → n < 128 → ((State.reset.cluster cl).tile t).elem m n = 0 ∧ ((State.reset.cluster cl).tile t).tag = 0 ∧
    ((State.reset.cluster cl).tile t).empty = true ∧ ((State.reset.cluster cl).tile t).owner = none) ∧
  (∀ core k, State.reset.ray core k = none) ∧ (∀ k, SMap.get? State.reset.ctxs k = none ∧ SMap.get? State.reset.queues k = none) ∧
  State.reset.memWf ∧ ∀ a, State.reset.hbm.read a = 0 ∧ State.reset.host.read a = 0

/-- R13: the registers of a ray as its beam is placed and released: vector registers 0 and unmarked, s0 the parameter record's
address, s1 and s2 the window's base and size, the others 0, predicates false but p7, vpc the entry of its role, the
counters, latches, flags and return entries 0, %fmode the header's mode word, and the beam's threshold registers +0. -/
def Obligations.ReleaseValues : Prop :=
  ∀ (s u : State) (l pos : Nat) (x : Launch) (e : Entry), s.placeBeam l pos x e = some u →
    ∃ b, u.beam l pos = some b ∧ b.h = List.replicate 16 0 ∧ ∀ k ∈ b.rays, ∃ q, u.ray b.core k = some q ∧
      (∀ n i, q.th.vreg n i = 0 ∧ q.th.vmark n i = false) ∧
      (∀ n, SMap.get q.th.s 0 n = if n = 0 then x.params else if n = 1 then BitVec.ofNat 64 (2 ^ 56 + e.winOfs)
        else if n = 2 then BitVec.ofNat 64 e.winSize else 0) ∧
      (∀ p : Pred, q.th.pred p = if p.val = 7 then 0xFFFFFFFF#32 else 0) ∧ q.th.live = 0xFFFFFFFF#32 ∧
      (∃ role, x.header.roles[q.role]? = some role ∧ q.th.allot = role.vregs ∧ ∀ i < 32, q.th.pcOf i = BitVec.ofNat 32 role.entry) ∧
      (∀ n, q.dc.getD n 0 = 0) ∧ (∀ j i, q.th.latch j i = 0 ∧ q.th.latchMark j i = false) ∧
      (∀ i, laneGet q.th.flags 0 i = 0) ∧ q.th.fmode = x.header.mode ∧ q.th.retired = 0 ∧
      (∀ n i, laneGet (SMap.get q.th.ret [] n) 0 i = 0 ∧ laneGet q.th.level 0 i = 0)

/-- R16, R18, R19, R21, R26, R28, R42, R89, R101: what a register or predicate instruction that has run leaves in a ray: the
destination and its marks in the active lanes, %flags, the latches with their marks, of which an instruction that writes a
predicate leaves the newest 0, the program counters; every other register keeps its
value, and so do every other ray, every core, all memory and every cache. A scalar destination takes the lowest active
lane's value, and with no active lane no register changes. -/
def Obligations.RegisterEffect : Prop :=
  ∀ (s : State) (core rslot : Nat) (r : Ray) (c : Clause) (i : Instr) (fl : Nat → BitVec 6),
    s.executes core rslot r → r.th.clause = some c → r.th.kind = .ray →
    let t := r.th
    let act := t.active i.guard
    (∀ (d : Opnd) (w : Bool) (val : Nat → DWord) (mk : Nat → Bool), ∃ r', slotOver s (s.wrote t i d w val mk fl) core rslot r r' c i ∧
      sameOthers t r'.th ∧ r'.th.p = t.p ∧ flagsGained t r'.th act fl ∧ latchesMoved t r'.th ∧
      (∀ m, ∀ k < 32, r'.th.vreg m k =
        (if bit act k ∧ d = .v (Fin.ofNat 96 m) ∧ m < 96 then lo32 (val k)
         else if bit act k ∧ w = true ∧ 0 < m ∧ m ≤ 96 ∧ d = .v (Fin.ofNat 96 (m - 1)) then hi32 (val k) else t.vreg m k)) ∧
      (∀ m, ∀ k < 32, r'.th.vmark m k =
        (if bit act k ∧ ((d = .v (Fin.ofNat 96 m) ∧ m < 96) ∨ (w = true ∧ 0 < m ∧ m ≤ 96 ∧ d = .v (Fin.ofNat 96 (m - 1)))) then mk k
         else t.vmark m k)) ∧
      (∀ m, SMap.get r'.th.s 0 m =
        (match lowest act with
         | some k => if d = .s (Fin.ofNat 24 m) ∧ m < 24 then (if w = true then val k else zext64 (lo32 (val k))) else SMap.get t.s 0 m
         | none => SMap.get t.s 0 m)) ∧
      (∀ k < 32, r'.th.latch 0 k = (match d with
        | .v n => if w then pair64 (r'.th.vreg (n + 1) k) (r'.th.vreg n k) else zext64 (r'.th.vreg n k)
        | .s n => SMap.get r'.th.s 0 n
        | .nul => if bit act k then (if w then val k else zext64 (lo32 (val k))) else 0
        | _ => r'.th.latch 0 k)) ∧
      (∀ k < 32, r'.th.latchMark 0 k = (match d with
        | .v n => r'.th.vmark n k || (w && r'.th.vmark (n + 1) k)
        | .nul => bit act k && mk k
        | .s _ => false
        | _ => r'.th.latchMark 0 k))) ∧
    (∀ (pt pf : Pred) (val : Nat → Bool), ∃ r', slotOver s (s.decided t i pt pf val fl) core rslot r r' c i ∧
      sameOthers t r'.th ∧ r'.th.v = t.v ∧ r'.th.marks = t.marks ∧ r'.th.s = t.s ∧ flagsGained t r'.th act fl ∧ latchesMoved t r'.th ∧
      (∀ k < 32, r'.th.latch 0 k = 0 ∧ r'.th.latchMark 0 k = false) ∧
      ∀ q : Pred, ∀ k < 32, bit (r'.th.pred q) k =
        (if bit act k ∧ q.val ≠ 7 ∧ q = pf then !val k else if bit act k ∧ q.val ≠ 7 ∧ q = pt then val k else bit (t.pred q) k))
/-! ### Integer instructions (R113 to R122) -/

namespace Sys2Proof.Claims

/-- The bit field a control word names: position and length (R120). -/
def fieldPos (c : Word) : Nat := bits c 4 0
def fieldLen (c : Word) : Nat := min (bits c 13 8) (32 - bits c 4 0)

/-- Instructions on two words: their result in a lane (R114, R115, R117, R118, R120). -/
def twoWord : List ((Guard → Opnd → Opnd → Opnd → Instr) × (Word → Word → Word)) :=
  [(.imulS32, fun a b => BitVec.ofInt 32 (a.toInt * b.toInt)),
   (.imulhiS32, fun a b => BitVec.ofInt 32 (Int.fdiv (a.toInt * b.toInt) 4294967296)),
   (.imulhiZ32, fun a b => BitVec.ofNat 32 ((a.toNat * b.toNat) >>> 32)),
   (.iminS32, fun a b => BitVec.ofInt 32 (min a.toInt b.toInt)),
   (.iminZ32, fun a b => BitVec.ofNat 32 (min a.toNat b.toNat)),
   (.imaxS32, fun a b => BitVec.ofInt 32 (max a.toInt b.toInt)),
   (.imaxZ32, fun a b => BitVec.ofNat 32 (max a.toNat b.toNat)),
   (.andZ32, fun a b => ofBits fun i => bit a i && bit b i),
   (.orZ32, fun a b => ofBits fun i => bit a i || bit b i),
   (.xorZ32, fun a b => ofBits fun i => bit a i != bit b i),
   (.andnZ32, fun a b => ofBits fun i => bit a i && !bit b i),
   (.shlZ32, fun a b => ofBits fun i => decide (b.toNat ≤ i) && bit a (i - b.toNat)),
   (.shrZ32, fun a b => ofBits fun i => bit a (i + b.toNat)),
   (.shrS32, fun a b => ofBits fun i => bit a (min (i + b.toNat) 31)),
   (.rotZ32, fun a b => ofBits fun i => bit a ((i + 32 - b.toNat % 32) % 32)),
   (.bfeZ32, fun a b => ofBits fun i => decide (i < fieldLen b) && bit a (fieldPos b + i)),
   (.bfeS32, fun a b => ofBits fun i => decide (fieldLen b ≠ 0) && bit a (fieldPos b + min i (fieldLen b - 1)))]

/-- Instructions on one word (R115, R119, R144). -/
def oneWord : List ((Guard → Opnd → Opnd → Instr) × (Word → Word)) :=
  [(.iabsS32, fun a => BitVec.ofNat 32 a.toInt.natAbs),
   (.popcZ32, fun a => BitVec.ofNat 32 ((List.range 32).countP fun i => bit a i)),
   (.clzZ32, fun a => BitVec.ofNat 32 ((List.range 32).countP fun i => decide (a.toNat < 2 ^ i))),
   (.brevZ32, fun a => a.reverse),
   (.fabsF32, fun a => ofBits fun i => bit a i && i != 31)]

/-- The distance of two bytes or halves of two words. -/
def fieldDist (a b : Word) (hi lo : Nat) : Nat := Int.natAbs ((bits a hi lo : Int) - bits b hi lo)

/-- Instructions that read the old destination as well (R114, R120, R159): z is the old destination. -/
def threeWord : List ((Guard → Opnd → Opnd → Opnd → Instr) × (Word → Word → Word → Word)) :=
  [(.imadS32, fun z a b => BitVec.ofInt 32 (z.toInt + a.toInt * b.toInt)),
   (.bfiZ32, fun z a b => ofBits fun i =>
      if fieldPos b ≤ i ∧ i < fieldPos b + fieldLen b then bit a (i - fieldPos b) else bit z i),
   (.sadZ8x4, fun z a b => BitVec.ofNat 32
      (z.toNat + fieldDist a b 7 0 + fieldDist a b 15 8 + fieldDist a b 23 16 + fieldDist a b 31 24)),
   (.sadZ16x2, fun z a b => BitVec.ofNat 32 (z.toNat + fieldDist a b 15 0 + fieldDist a b 31 16)),
   (.dotS16x2, fun z a b => BitVec.ofInt 32 (z.toInt
      + (a.extractLsb' 0 16).toInt * (b.extractLsb' 0 16).toInt + (a.extractLsb' 16 16).toInt * (b.extractLsb' 16 16).toInt))]

end Sys2Proof.Claims

/-- R114, R115, R117, R118, R120: each of 17 instructions on two words writes its result in every active lane, with
no mark, and goes on to the next slot. -/
def Sys2Proof.Claims.TwoWordResults : Prop :=
  ∀ row ∈ twoWord, ∀ (g : Guard) (d a b : Opnd) (s : State) (t : Thread),
    s.atSlot t (row.1 g d a b) → t.clean g false [a, b] →
    exec (row.1 g d a b) s =
      .next (s.wrote t (row.1 g d a b) d false fun k => zext64 (row.2 (t.rd32 a k) (t.rd32 b k)))

/-- R115, R119, R144: the same of the instructions on one word. -/
def Sys2Proof.Claims.OneWordResults : Prop :=
  ∀ row ∈ oneWord, ∀ (g : Guard) (d a : Opnd) (s : State) (t : Thread),
    s.atSlot t (row.1 g d a) → t.clean g false [a] →
    exec (row.1 g d a) s = .next (s.wrote t (row.1 g d a) d false fun k => zext64 (row.2 (t.rd32 a k)))

/-- R114, R120, R159: the same of the instructions that read the old destination. -/
def Sys2Proof.Claims.ThreeWordResults : Prop :=
  ∀ row ∈ threeWord, ∀ (g : Guard) (d a b : Opnd) (s : State) (t : Thread),
    s.atSlot t (row.1 g d a b) → t.clean g false [d, a, b] →
    exec (row.1 g d a b) s =
      .next (s.wrote t (row.1 g d a b) d false fun k => zext64 (row.2 (t.rd32 d k) (t.rd32 a k) (t.rd32 b k)))

/-- R65, R113, R121, R122, R144: integer additions, moves, selects and the sign change run whatever the marks, and
mark the result in a lane where an operand they take is marked. -/
def Obligations.LinearResults : Prop :=
  ∀ (g : Guard) (d a b c : Opnd) (w n : Bool) (p : Pred) (s : State) (t : Thread),
    (s.atSlot t (.iaddS32 g d a b) → exec (.iaddS32 g d a b) s = .next (s.wrote t (.iaddS32 g d a b) d false
      (fun k => zext64 (BitVec.ofInt 32 ((t.rd32 a k).toInt + (t.rd32 b k).toInt)))
      (fun k => t.marked false a k || t.marked false b k))) ∧
    (s.atSlot t (.isubS32 g d a b) → exec (.isubS32 g d a b) s = .next (s.wrote t (.isubS32 g d a b) d false
      (fun k => zext64 (BitVec.ofInt 32 ((t.rd32 a k).toInt - (t.rd32 b k).toInt)))
      (fun k => t.marked false a k || t.marked false b k))) ∧
    (s.atSlot t (.iaddS64 g d a b) → exec (.iaddS64 g d a b) s = .next (s.wrote t (.iaddS64 g d a b) d true
      (fun k => BitVec.ofInt 64 ((t.rd64 true a k).toInt + (t.rd64 true b k).toInt))
      (fun k => t.marked true a k || t.marked true b k))) ∧
    (s.atSlot t (.isubS64 g d a b) → exec (.isubS64 g d a b) s = .next (s.wrote t (.isubS64 g d a b) d true
      (fun k => BitVec.ofInt 64 ((t.rd64 true a k).toInt - (t.rd64 true b k).toInt))
      (fun k => t.marked true a k || t.marked true b k))) ∧
    (s.atSlot t (.iadd3S32 g d a b c) → exec (.iadd3S32 g d a b c) s = .next (s.wrote t (.iadd3S32 g d a b c) d false
      (fun k => zext64 (BitVec.ofInt 32 ((t.rd32 a k).toInt + (t.rd32 b k).toInt + (t.rd32 c k).toInt)))
      (fun k => t.marked false a k || t.marked false b k || t.marked false c k))) ∧
    (s.atSlot t (.movZ32 g d a) → exec (.movZ32 g d a) s = .next (s.wrote t (.movZ32 g d a) d false
      (fun k => zext64 (t.rd32 a k)) (fun k => t.marked false a k))) ∧
    (s.atSlot t (.movZ64 g d a) → exec (.movZ64 g d a) s = .next (s.wrote t (.movZ64 g d a) d true
      (fun k => t.rd64 false a k) (fun k => t.marked true a k))) ∧
    (s.atSlot t (.fnegF32 g d a) → exec (.fnegF32 g d a) s = .next (s.wrote t (.fnegF32 g d a) d false
      (fun k => zext64 (ofBits fun i => bit (t.rd32 a k) i != (i == 31))) (fun k => t.marked false a k))) ∧
    (s.atSlot t (.sel g d a b w n p) → exec (.sel g d a b w n p) s = .next (s.wrote t (.sel g d a b w n p) d w
      (fun k => let o := if bit (t.pred p) k != n then a else b
        if w then t.rd64 false o k else zext64 (t.rd32 o k))
      (fun k => t.marked w (if bit (t.pred p) k != n then a else b) k)))

/-- R113, R114, R117, R118, R119: the instructions with a 64-bit operand or result. -/
def Sys2Proof.Claims.LongResults : Prop :=
  ∀ (g : Guard) (d a b : Opnd) (s : State) (t : Thread),
    (∀ row ∈ ([(.imulwS32, fun x y => BitVec.ofInt 64 (x.toInt * y.toInt)),
        (.imulwZ32, fun x y => BitVec.ofNat 64 (x.toNat * y.toNat))] :
          List ((Guard → Opnd → Opnd → Opnd → Instr) × (Word → Word → DWord))),
      s.atSlot t (row.1 g d a b) → t.clean g false [a, b] →
      exec (row.1 g d a b) s = .next (s.wrote t (row.1 g d a b) d true fun k => row.2 (t.rd32 a k) (t.rd32 b k))) ∧
    (∀ row ∈ ([(.andZ64, fun p q => p && q), (.orZ64, fun p q => p || q), (.xorZ64, fun p q => p != q)] :
          List ((Guard → Opnd → Opnd → Opnd → Instr) × (Bool → Bool → Bool))),
      s.atSlot t (row.1 g d a b) → t.clean g true [a, b] →
      ∃ v : Nat → DWord, (∀ k i, i < 64 → bit (v k) i = row.2 (bit (t.rd64 false a k) i) (bit (t.rd64 false b k) i)) ∧
        exec (row.1 g d a b) s = .next (s.wrote t (row.1 g d a b) d true v)) ∧
    (∀ row ∈ ([(.shlZ64, false, fun x n i => decide (n ≤ i) && bit x (i - n)), (.shrZ64, false, fun x n i => bit x (i + n)),
        (.shrS64, true, fun x n i => bit x (min (i + n) 63))] :
          List ((Guard → Opnd → Opnd → Opnd → Instr) × Bool × (DWord → Nat → Nat → Bool))),
      s.atSlot t (row.1 g d a b) → t.clean g true [a] → t.clean g false [b] →
      ∃ v : Nat → DWord, (∀ k i, i < 64 → bit (v k) i = row.2.2 (t.rd64 row.2.1 a k) (t.rd32 b k).toNat i) ∧
        exec (row.1 g d a b) s = .next (s.wrote t (row.1 g d a b) d true v)) ∧
    (∀ row ∈ ([(.popcZ64, fun x => (List.range 64).countP fun i => bit x i),
        (.clzZ64, fun x => (List.range 64).countP fun i => decide (x.toNat < 2 ^ i))] :
          List ((Guard → Opnd → Opnd → Instr) × (DWord → Nat))),
      s.atSlot t (row.1 g d a) → t.clean g true [a] →
      exec (row.1 g d a) s =
        .next (s.wrote t (row.1 g d a) d false fun k => BitVec.ofNat 64 (row.2 (t.rd64 false a k)))) ∧
    (s.atSlot t (.leaS64 g d a b) → t.clean g true [a] → t.clean g false [b] →
      exec (.leaS64 g d a b) s = .next (s.wrote t (.leaS64 g d a b) d true
        fun k => BitVec.ofInt 64 ((t.rd64 true a k).toInt + (t.rd32 b k).toInt)))

/-- The divisions: their result in a lane (R116). -/
def Sys2Proof.Claims.divisions : List ((Guard → Opnd → Opnd → Opnd → Instr) × (Word → Word → Word)) :=
  [(.idivS32, fun a b => BitVec.ofInt 32 (a.toInt.sign * b.toInt.sign * (a.toInt.natAbs / b.toInt.natAbs : Nat))),
   (.idivZ32, fun a b => BitVec.ofNat 32 (a.toNat / b.toNat)),
   (.iremS32, fun a b => BitVec.ofInt 32 (a.toInt.sign * (a.toInt.natAbs % b.toInt.natAbs : Nat))),
   (.iremZ32, fun a b => BitVec.ofNat 32 (a.toNat % b.toNat))]

/-- The opcode and the guard of an instruction's word (R74, R99). -/
def Sys2Proof.Claims.startsWith (w : Word) (opcode : Nat) (g : Guard) : Prop :=
  bits w 31 25 = opcode ∧ bit w 24 = g.neg ∧ bits w 23 21 = g.p.val

/-- R116: a division whose divisor is 0 in no active lane writes its result in every active lane. -/
def Sys2Proof.Claims.DivisionValues : Prop :=
  ∀ row ∈ divisions, ∀ (g : Guard) (d a b : Opnd) (s : State) (t : Thread),
    s.atSlot t (row.1 g d a b) → t.clean g false [a, b] →
    (∀ k < 32, bit (t.active g) k = true → t.rd32 b k ≠ 0) →
    exec (row.1 g d a b) s =
      .next (s.wrote t (row.1 g d a b) d false fun k => zext64 (row.2 (t.rd32 a k) (t.rd32 b k)))

/-- R116: a divisor of 0 in any active lane raises the divide-check trap, cause 0x28, with the active lanes; no register of the ray
and no program counter changes. -/
def Sys2Proof.Claims.DivideCheck : Prop :=
  ∀ row ∈ divisions, ∀ (g : Guard) (d a b : Opnd) (s : State) (t : Thread),
    s.atSlot t (row.1 g d a b) → t.clean g false [a, b] →
    (∃ k < 32, bit (t.active g) k = true ∧ t.rd32 b k = 0) →
    exec (row.1 g d a b) s = .next (s.trapCur 0x28 (t.active g) 0 0) ∧
    ∀ core rslot r, s.cur = .ray core rslot → s.ray core rslot = some r →
      ∃ q, (s.trapCur 0x28 (t.active g) 0 0).ray core rslot = some q ∧ q.th = r.th

/-- R116: the words of the divisions, field by field. -/
def Sys2Proof.Claims.DivisionWords : Prop :=
  ∀ row ∈ ([(.idivS32, 0), (.idivZ32, 1), (.iremS32, 2), (.iremZ32, 3)] : List ((Guard → Opnd → Opnd → Opnd → Instr) × Nat)),
    ∀ (g : Guard) (d a b : Opnd), ∃ w x l, encode (row.1 g d a b) = w :: x :: l ∧ startsWith w 0x7F g ∧
      bits w 20 14 = d.code ∧ bits w 13 7 = a.code ∧ bits w 6 0 = b.code ∧
      bits x 31 24 = row.2 ∧ bits x 23 17 = 0x7C ∧ bits x 16 0 = 0

/-! ### Floating point and packed words (R140 to R161) -/

namespace Sys2Proof.Claims

/-- The rounded result of an exact operation on two codes, and every flag its reads, the operation and the rounding
set (R37, R41, R144). -/
def rounded (f : Fmt) (op : Rm → XVal → XVal → XVal × BitVec 6) (m : FMode) (x y : Nat) : Nat × BitVec 6 :=
  let u := m.read f x
  let v := m.read f y
  let e := op m.rm u.1 v.1
  ((m.round f e.1).1, u.2 ||| v.2 ||| e.2 ||| (m.round f e.1).2)

/-- The same of a product and a sum rounded once. -/
def roundedFma (f : Fmt) (m : FMode) (x y z : Nat) : Nat × BitVec 6 :=
  let p := (m.read f x).1.mul (m.read f y).1
  let e := p.1.add m.rm (m.read f z).1
  ((m.round f e.1).1,
    (m.read f x).2 ||| (m.read f y).2 ||| (m.read f z).2 ||| p.2 ||| e.2 ||| (m.round f e.1).2)

/-- The low and the high element of a packed word. -/
def loHalf (a : Word) : Half := a.extractLsb' 0 16
def hiHalf (a : Word) : Half := a.extractLsb' 16 16

/-- An operation on codes done in both halves of packed words (R140). -/
def bothHalves (f : Nat → Nat → Nat × BitVec 6) (a b : Word) : Word × BitVec 6 :=
  let l := f (loHalf a).toNat (loHalf b).toNat
  let h := f (hiHalf a).toNat (hiHalf b).toNat
  (BitVec.ofNat 16 h.1 ++ BitVec.ofNat 16 l.1, l.2 ||| h.2)
def allHalves (f : Nat → Nat → Nat → Nat × BitVec 6) (a b c : Word) : Word × BitVec 6 :=
  let l := f (loHalf a).toNat (loHalf b).toNat (loHalf c).toNat
  let h := f (hiHalf a).toNat (hiHalf b).toNat (hiHalf c).toNat
  (BitVec.ofNat 16 h.1 ++ BitVec.ofNat 16 l.1, l.2 ||| h.2)
/-- An operation on codes of a whole word. -/
def wholeWord (f : Nat → Nat → Nat × BitVec 6) (a b : Word) : Word × BitVec 6 :=
  (BitVec.ofNat 32 (f a.toNat b.toNat).1, (f a.toNat b.toNat).2)

/-- The exact sum, difference, product and quotient. -/
def sumOf (rm : Rm) (u v : XVal) : XVal × BitVec 6 := u.add rm v
def diffOf (rm : Rm) (u v : XVal) : XVal × BitVec 6 := u.add rm v.neg
def prodOf (_ : Rm) (u v : XVal) : XVal × BitVec 6 := u.mul v
def quotOf (_ : Rm) (u v : XVal) : XVal × BitVec 6 := u.div v

/-- Additions and subtractions, which propagate marks (R141, R144, R147, R158). -/
def additions : List ((Guard → Opnd → Opnd → Opnd → Instr) × (FMode → Word → Word → Word × BitVec 6)) :=
  [(.faddF32, fun m => wholeWord (rounded fmtF32 sumOf m)),
   (.fsubF32, fun m => wholeWord (rounded fmtF32 diffOf m)),
   (.faddF16x2, fun m => bothHalves (rounded fmtF16 sumOf m)),
   (.fsubF16x2, fun m => bothHalves (rounded fmtF16 diffOf m)),
   (.faddBf16x2, fun m => bothHalves (rounded fmtBf16 sumOf m)),
   (.fsubBf16x2, fun m => bothHalves (rounded fmtBf16 diffOf m)),
   (.iaddS16x2, fun _ a b => ((hiHalf a + hiHalf b) ++ (loHalf a + loHalf b), 0)),
   (.isubS16x2, fun _ a b => ((hiHalf a - hiHalf b) ++ (loHalf a - loHalf b), 0))]

/-- Multiplications, of which at most one operand may be marked (R141, R144, R147). -/
def products : List ((Guard → Opnd → Opnd → Opnd → Instr) × (FMode → Word → Word → Word × BitVec 6)) :=
  [(.fmulF32, fun m => wholeWord (rounded fmtF32 prodOf m)),
   (.fmulF16x2, fun m => bothHalves (rounded fmtF16 prodOf m)),
   (.fmulBf16x2, fun m => bothHalves (rounded fmtBf16 prodOf m))]

/-- Multiply-adds whose addend is the old destination (R144, R147), and the forms with a third source (R145, R147). -/
def multiplyAdds : List ((Guard → Opnd → Opnd → Opnd → Instr) × (FMode → Word → Word → Word → Word × BitVec 6)) :=
  [(.ffmaF32, fun m a b z => (BitVec.ofNat 32 (roundedFma fmtF32 m a.toNat b.toNat z.toNat).1,
      (roundedFma fmtF32 m a.toNat b.toNat z.toNat).2)),
   (.ffmaF16x2, fun m => allHalves (roundedFma fmtF16 m)),
   (.ffmaBf16x2, fun m => allHalves (roundedFma fmtBf16 m))]
def multiplyAdds3 : List ((Guard → Opnd → Opnd → Opnd → Opnd → Instr) × (FMode → Word → Word → Word → Word × BitVec 6)) :=
  [(.ffma3F32, fun m a b z => (BitVec.ofNat 32 (roundedFma fmtF32 m a.toNat b.toNat z.toNat).1,
      (roundedFma fmtF32 m a.toNat b.toNat z.toNat).2)),
   (.ffma3F16x2, fun m => allHalves (roundedFma fmtF16 m)),
   (.ffma3Bf16x2, fun m => allHalves (roundedFma fmtBf16 m))]

/-- A 16-bit sum clamped to a range, with SA where it lay outside (R37, R158). -/
def clamped (lo hi v : Int) : Half × BitVec 6 := (BitVec.ofInt 16 (max lo (min hi v)), if lo ≤ v ∧ v ≤ hi then 0 else flSA)

/-- An operation on halves done in both. -/
def eachHalf (f : Half → Half → Half × BitVec 6) (a b : Word) : Word × BitVec 6 :=
  ((f (hiHalf a) (hiHalf b)).1 ++ (f (loHalf a) (loHalf b)).1, (f (hiHalf a) (hiHalf b)).2 ||| (f (loHalf a) (loHalf b)).2)

/-- Packed integer instructions that may read no mark (R141, R158). -/
def packedInts : List ((Guard → Opnd → Opnd → Opnd → Instr) × (Half → Half → Half × BitVec 6)) :=
  [(.iaddsS16x2, fun x y => clamped (-32768) 32767 (x.toInt + y.toInt)),
   (.isubsS16x2, fun x y => clamped (-32768) 32767 (x.toInt - y.toInt)),
   (.iaddsZ16x2, fun x y => clamped 0 65535 (x.toNat + y.toNat)),
   (.isubsZ16x2, fun x y => clamped 0 65535 (x.toNat - y.toNat : Int)),
   (.imulS16x2, fun x y => (x * y, 0)),
   (.iminS16x2, fun x y => (BitVec.ofInt 16 (min x.toInt y.toInt), 0)),
   (.imaxS16x2, fun x y => (BitVec.ofInt 16 (max x.toInt y.toInt), 0)),
   (.iminZ16x2, fun x y => (BitVec.ofNat 16 (min x.toNat y.toNat), 0)),
   (.imaxZ16x2, fun x y => (BitVec.ofNat 16 (max x.toNat y.toNat), 0))]

/-- So many units in the last place at a value, of two bounds the larger, and the error bounds of R151: a function, its format,
and the bound for an operand and the value there. -/
def ulps (k : Nat) (f : Fmt) (n d : Nat) : Nat × Nat := (k * (f.ulp n d).1, (f.ulp n d).2)
def larger (p q : Nat × Nat) : Nat × Nat := if p.1 * q.2 ≤ q.1 * p.2 then q else p
def errorBounds : List (Fun1 × Fmt × ((xn xd n d : Nat) → Nat × Nat)) :=
  [(.rcp, fmtF32, fun _ _ => ulps 1 fmtF32), (.rsq, fmtF32, fun _ _ => ulps 1 fmtF32), (.exp2, fmtF32, fun _ _ => ulps 2 fmtF32),
   (.log2, fmtF32, fun xn xd n d => if xd ≤ 2 * xn ∧ xn ≤ 2 * xd then (1, 2 ^ 22) else ulps 2 fmtF32 n d),
   (.sin, fmtF32, fun _ _ _ _ => (1, 2 ^ 21)), (.cos, fmtF32, fun _ _ _ _ => (1, 2 ^ 21)), (.tanh, fmtF32, fun _ _ => ulps 2 fmtF32),
   (.gelu, fmtF32, fun _ _ n d => larger (ulps 2 fmtF32 n d) (1, 2 ^ 23)), (.sigm, fmtF32, fun _ _ => ulps 2 fmtF32),
   (.exp2, fmtF16, fun _ _ => ulps 1 fmtF16)]

/-- The magnitude of a finite code, and whether half the sum of two such, squared, is below a fraction. -/
def magnitude (c : Nat) : Nat × Nat := match (fmtF32.decode false c).1 with | .fin _ n d => (n, d) | _ => (0, 1)
def halfSumSquared (c b : Nat) (ok : Nat → Nat → Prop) (n d : Nat) : Prop :=
  let p := (magnitude c).1 * (magnitude b).2 + (magnitude b).1 * (magnitude c).2
  let q := 2 * (magnitude c).2 * (magnitude b).2
  ok (p * p * d) (n * q * q)

/-- MinNum, or MaxNum, of two words (R39, R144): the lesser of the values read, as read, a zero of sign 1 below one of sign 0; a NaN
yields to the other operand, and two give the canonical NaN. Equal operands are one word, and that is the result. -/
def chosen (mx : Bool) (m : FMode) (a b v : Word) : Prop :=
  let x := (m.read fmtF32 a.toNat).1
  let y := (m.read fmtF32 b.toNat).1
  let read (w : Word) : Word := BitVec.ofNat 32 (asRead m fmtF32 w.toNat)
  (x.isNan = true → y.isNan = true → v = 0x7FC00000#32) ∧
  (x.isNan = false → y.isNan = true → v = read a) ∧
  (x.isNan = true → y.isNan = false → v = read b) ∧
  (x.isNan = false → y.isNan = false → x.lt y = true → v = read (if mx then b else a)) ∧
  (x.isNan = false → y.isNan = false → y.lt x = true → v = read (if mx then a else b)) ∧
  (∀ p q n m, x = .fin p 0 n → y = .fin q 0 m → v = if (if mx then p && q else p || q) then 0x80000000#32 else 0x00000000#32) ∧
  (x.isNan = false → a = b → v = read a)

end Sys2Proof.Claims

/-- R141, R144, R147, R158: floating-point additions and subtractions of words and of both halves, and the packed
integer ones, round the exact result once, set the flags of %flags and mark a result one of whose sources is marked. -/
def Sys2Proof.Claims.AdditionResults : Prop :=
  (∀ row ∈ additions, ∀ (g : Guard) (d a b : Opnd) (s : State) (t : Thread), s.atSlot t (row.1 g d a b) →
    exec (row.1 g d a b) s = .next (s.wrote t (row.1 g d a b) d false
      (fun k => zext64 (row.2 t.fmodeArith (t.rd32 a k) (t.rd32 b k)).1)
      (fun k => t.marked false a k || t.marked false b k)
      (fun k => (row.2 t.fmodeArith (t.rd32 a k) (t.rd32 b k)).2))) ∧
  (∀ (g : Guard) (d a b : Opnd) (rm : BitVec 2) (s : State) (t : Thread), s.atSlot t (.faddF32Rm g d a b rm) →
    exec (.faddF32Rm g d a b rm) s = .next (s.wrote t (.faddF32Rm g d a b rm) d false
      (fun k => zext64 (wholeWord (rounded fmtF32 sumOf { t.fmodeArith with rm := rmOf rm.toNat }) (t.rd32 a k) (t.rd32 b k)).1)
      (fun k => t.marked false a k || t.marked false b k)
      (fun k => (wholeWord (rounded fmtF32 sumOf { t.fmodeArith with rm := rmOf rm.toNat }) (t.rd32 a k) (t.rd32 b k)).2)))

/-- R141, R144 to R147: products and fused multiply-adds of words and of both halves, each rounded once, where no
active lane marks both multiplicands; division where no divisor is marked. -/
def Sys2Proof.Claims.ProductResults : Prop :=
  ∀ (g : Guard) (d a b c : Opnd) (s : State) (t : Thread),
    (∀ k < 32, bit (t.active g) k = true → (t.marked false a k && t.marked false b k) = false) →
    (∀ row ∈ products, s.atSlot t (row.1 g d a b) →
      exec (row.1 g d a b) s = .next (s.wrote t (row.1 g d a b) d false
        (fun k => zext64 (row.2 t.fmodeArith (t.rd32 a k) (t.rd32 b k)).1)
        (fun k => t.marked false a k || t.marked false b k)
        (fun k => (row.2 t.fmodeArith (t.rd32 a k) (t.rd32 b k)).2))) ∧
    (∀ rm : BitVec 2, s.atSlot t (.fmulF32Rm g d a b rm) →
      exec (.fmulF32Rm g d a b rm) s = .next (s.wrote t (.fmulF32Rm g d a b rm) d false
        (fun k => zext64 (wholeWord (rounded fmtF32 prodOf { t.fmodeArith with rm := rmOf rm.toNat }) (t.rd32 a k) (t.rd32 b k)).1)
        (fun k => t.marked false a k || t.marked false b k)
        (fun k => (wholeWord (rounded fmtF32 prodOf { t.fmodeArith with rm := rmOf rm.toNat }) (t.rd32 a k) (t.rd32 b k)).2))) ∧
    (∀ row ∈ multiplyAdds, s.atSlot t (row.1 g d a b) →
      exec (row.1 g d a b) s = .next (s.wrote t (row.1 g d a b) d false
        (fun k => zext64 (row.2 t.fmodeArith (t.rd32 a k) (t.rd32 b k) (t.rd32 d k)).1)
        (fun k => t.marked false a k || t.marked false b k || t.marked false d k)
        (fun k => (row.2 t.fmodeArith (t.rd32 a k) (t.rd32 b k) (t.rd32 d k)).2))) ∧
    (∀ row ∈ multiplyAdds3, s.atSlot t (row.1 g d a b c) →
      exec (row.1 g d a b c) s = .next (s.wrote t (row.1 g d a b c) d false
        (fun k => zext64 (row.2 t.fmodeArith (t.rd32 a k) (t.rd32 b k) (t.rd32 c k)).1)
        (fun k => t.marked false a k || t.marked false b k || t.marked false c k)
        (fun k => (row.2 t.fmodeArith (t.rd32 a k) (t.rd32 b k) (t.rd32 c k)).2))) ∧
    (s.atSlot t (.fdivF32 g d a b) → t.clean g false [b] →
      exec (.fdivF32 g d a b) s = .next (s.wrote t (.fdivF32 g d a b) d false
        (fun k => zext64 (wholeWord (rounded fmtF32 quotOf t.fmodeArith) (t.rd32 a k) (t.rd32 b k)).1)
        (fun k => t.marked false a k)
        (fun k => (wholeWord (rounded fmtF32 quotOf t.fmodeArith) (t.rd32 a k) (t.rd32 b k)).2)))

/-- R39, R144: MinNum and MaxNum of two words return the smaller and the larger of the values read, of equal ones that value,
a zero of sign 1 below a zero of sign 0; a NaN yields to the other operand, and two NaNs give the canonical NaN. -/
def Sys2Proof.Claims.MinMaxResults : Prop :=
  ∀ (mx : Bool) (g : Guard) (d a b : Opnd) (s : State) (t : Thread),
    let i : Instr := if mx then .fmaxF32 g d a b else .fminF32 g d a b
    s.atSlot t i → t.clean g false [a, b] →
    ∃ v : Nat → Word,
      exec i s = .next (s.wrote t i d false (fun k => zext64 (v k)) (fun _ => false)
        (fun k => (t.fmodeArith.read fmtF32 (t.rd32 a k).toNat).2 ||| (t.fmodeArith.read fmtF32 (t.rd32 b k).toNat).2)) ∧
      ∀ k, chosen mx t.fmodeArith (t.rd32 a k) (t.rd32 b k) (v k)

/-- R141, R158, R159: the packed integer instructions on two halves at once, saturating ones with SA, and those that
add to the old destination or to a third source. -/
def Sys2Proof.Claims.PackedResults : Prop :=
  ∀ (g : Guard) (d a b c : Opnd) (s : State) (t : Thread),
    (∀ row ∈ packedInts, s.atSlot t (row.1 g d a b) → t.clean g false [a, b] →
      exec (row.1 g d a b) s = .next (s.wrote t (row.1 g d a b) d false
        (fun k => zext64 (eachHalf row.2 (t.rd32 a k) (t.rd32 b k)).1) (fun _ => false)
        (fun k => (eachHalf row.2 (t.rd32 a k) (t.rd32 b k)).2))) ∧
    (s.atSlot t (.imadS16x2 g d a b) → t.clean g false [d, a, b] →
      exec (.imadS16x2 g d a b) s = .next (s.wrote t (.imadS16x2 g d a b) d false
        (fun k => zext64 ((hiHalf (t.rd32 d k) + hiHalf (t.rd32 a k) * hiHalf (t.rd32 b k)) ++
          (loHalf (t.rd32 d k) + loHalf (t.rd32 a k) * loHalf (t.rd32 b k)))))) ∧
    (s.atSlot t (.iabsS16x2 g d a) → t.clean g false [a] →
      exec (.iabsS16x2 g d a) s = .next (s.wrote t (.iabsS16x2 g d a) d false
        (fun k => zext64 (BitVec.ofNat 16 (hiHalf (t.rd32 a k)).toInt.natAbs ++
          BitVec.ofNat 16 (loHalf (t.rd32 a k)).toInt.natAbs)))) ∧
    (s.atSlot t (.dotsS16x2 g d a b c) → t.clean g false [a, b, c] →
      exec (.dotsS16x2 g d a b c) s = .next (s.wrote t (.dotsS16x2 g d a b c) d false
        (fun k => zext64 (BitVec.ofInt 32 (max (-2147483648) (min 2147483647 ((t.rd32 c k).toInt +
          ((loHalf (t.rd32 a k)).toInt * (loHalf (t.rd32 b k)).toInt + (hiHalf (t.rd32 a k)).toInt * (hiHalf (t.rd32 b k)).toInt))))))
        (fun _ => false)
        (fun k => let v := (t.rd32 c k).toInt +
            ((loHalf (t.rd32 a k)).toInt * (loHalf (t.rd32 b k)).toInt + (hiHalf (t.rd32 a k)).toInt * (hiHalf (t.rd32 b k)).toInt)
          if -2147483648 ≤ v ∧ v ≤ 2147483647 then 0 else flSA)))

/-- R141, R151: the functions of one operand run on every operand that holds no mark, write no mark and set the flags
of their result. -/
def Obligations.FunctionResults : Prop :=
  ∀ (g : Guard) (d a : Opnd) (s : State) (t : Thread), t.clean g false [a] →
    (∀ row ∈ ([(.frcpF32, .rcp), (.frsqF32, .rsq), (.fsqrtF32, .sqrt), (.fexp2F32, .exp2), (.flog2F32, .log2), (.fsinF32, .sin),
        (.fcosF32, .cos), (.ftanhF32, .tanh), (.fgeluF32, .gelu), (.fsigmF32, .sigm)] : List ((Guard → Opnd → Opnd → Instr) × Fun1)),
      s.atSlot t (row.1 g d a) →
      exec (row.1 g d a) s = .next (s.wrote t (row.1 g d a) d false
        (fun k => zext64 (BitVec.ofNat 32 (row.2.run t.fmodeArith fmtF32 (t.rd32 a k).toNat).1)) (fun _ => false)
        (fun k => (row.2.run t.fmodeArith fmtF32 (t.rd32 a k).toNat).2))) ∧
    (s.atSlot t (.fexp2F16x2 g d a) →
      exec (.fexp2F16x2 g d a) s = .next (s.wrote t (.fexp2F16x2 g d a) d false
        (fun k => zext64 (bothHalves (fun x _ => Fun1.exp2.run t.fmodeArith fmtF16 x) (t.rd32 a k) 0).1) (fun _ => false)
        (fun k => (bothHalves (fun x _ => Fun1.exp2.run t.fmodeArith fmtF16 x) (t.rd32 a k) 0).2)))

/-- R37, R151: FSQRT is correctly rounded under the mode, with NX where the root is not the result; FRCP and FRSQ come within
1 ulp of the reciprocal and of the reciprocal root, and every other function within its bound of the value that the model
computes for it, wherever the result is below the largest finite number and not flushed (the reciprocal root of a number above
2^640, which no operand reaches, counts as 0). UF goes with a tiny result that is not exact. The mode has no part in them.
FEXP2 of an integer with a normal result and FLOG2 of a power of two are exact, without NX. (That the value computed is the
function's own is the model's, log entry 25; that the mode has no part in a result that overflows either, log entry 88.) -/
def Obligations.FunctionBounds : Prop :=
  ∀ (m : FMode) (code n d : Nat) (fl : BitVec 6), 0 < n →
    (m.read fmtF32 code = (.fin false n d, fl) →
      let r := Fun1.sqrt.run m fmtF32 code
      0x00800000 ≤ r.1 ∧ r.1 < 0x7F800000 ∧
      (m.rm = .rtz ∨ m.rm = .rdn → halfSumSquared r.1 r.1 (· ≤ ·) n d ∧ ¬ halfSumSquared (r.1 + 1) (r.1 + 1) (· ≤ ·) n d) ∧
      (m.rm = .rup → halfSumSquared r.1 r.1 (· ≥ ·) n d ∧ ¬ halfSumSquared (r.1 - 1) (r.1 - 1) (· ≥ ·) n d) ∧
      (m.rm = .rne ∨ m.rm = .rna → halfSumSquared (r.1 - 1) r.1 (· < ·) n d ∧ halfSumSquared r.1 (r.1 + 1) (· > ·) n d) ∧
      (halfSumSquared r.1 r.1 Eq n d → r.2 = 0) ∧ (¬ halfSumSquared r.1 r.1 Eq n d → r.2 = flNX)) ∧
    (∀ row ∈ errorBounds, ∀ (neg s t : Bool) (vn vd p q : Nat), m.read row.2.1 code = (.fin neg n d, fl) →
      row.1.special (.fin neg n d) = none → row.1.value neg n d = .fin s vn vd →
      let r := (row.1.run m row.2.1 code).1
      r % 2 ^ (row.2.1.width - 1) < row.2.1.maxCode →
      (m.flush row.2.1 = false ∨ 2 ^ row.2.1.mant ≤ r % 2 ^ (row.2.1.width - 1)) →
      (row.2.1.decode false r).1 = .fin t p q →
      (sgn t p * vd - sgn s vn * q).natAbs * (row.2.2 n d vn vd).2 ≤ (row.2.2 n d vn vd).1 * (q * vd)) ∧
    (∀ neg : Bool, Fun1.rcp.value neg n d = .fin neg d n) ∧
    (n ≤ d * 2 ^ (2 * fxP) → ∃ w, Fun1.rsq.value false n d = .fin false w (2 ^ fxP) ∧ w * w * n ≤ d * 2 ^ (2 * fxP) ∧
      d * 2 ^ (2 * fxP) < (w + 1) * (w + 1) * n) ∧
    (d * 2 ^ (2 * fxP) < n → Fun1.rsq.value false n d = .fin false 0 1) ∧
    (∀ row ∈ errorBounds, ∀ neg : Bool, m.read row.2.1 code = (.fin neg n d, fl) → row.1.special (.fin neg n d) = none →
      let r := row.1.run m row.2.1 code
      let least := 2 ^ row.2.1.mant
      (least < r.1 % 2 ^ (row.2.1.width - 1) → r.2 &&& flUF = 0) ∧
      (r.1 % 2 ^ (row.2.1.width - 1) < least → r.2 &&& flNX = flNX → r.2 &&& flUF = flUF)) ∧
    (∀ (f : Fun1) (x : FMode), f ≠ .sqrt → x.sat = m.sat → (∀ g : Fmt, x.flush g = m.flush g) → f.run x fmtF32 code = f.run m fmtF32 code) ∧
    (∀ (neg : Bool) (k : Nat), m.read fmtF32 code = (.fin neg n d, fl) → n = k * d → (if neg then k ≤ 126 else k ≤ 127) →
      Fun1.exp2.run m fmtF32 code = ((if neg then 127 - k else 127 + k) * 2 ^ 23, 0)) ∧
    (∀ k : Int, m.read fmtF32 code = (.fin false n d, fl) → (∀ j : Nat, (0 ≤ k ∧ k = j → n = 2 ^ j * d) ∧ (k < 0 ∧ k = -(j : Int) → 2 ^ j * n = d)) →
      Fun1.log2.run m fmtF32 code = ((roundTo fmtF32 .rne false false (.ofInt k)).1, 0))

namespace Sys2Proof.Claims

/-- The table of R152: a function, and the result and flags at -infinity, -0, +0 and +infinity. -/
def specialResults : List (Fun1 × (Nat × BitVec 6) × (Nat × BitVec 6) × (Nat × BitVec 6) × (Nat × BitVec 6)) :=
  [(.rcp, (0x80000000, 0), (0xFF800000, flDZ), (0x7F800000, flDZ), (0x00000000, 0)),
   (.rsq, (0x7FC00000, flNV), (0xFF800000, flDZ), (0x7F800000, flDZ), (0x00000000, 0)),
   (.sqrt, (0x7FC00000, flNV), (0x80000000, 0), (0x00000000, 0), (0x7F800000, 0)),
   (.exp2, (0x00000000, 0), (0x3F800000, 0), (0x3F800000, 0), (0x7F800000, 0)),
   (.log2, (0x7FC00000, flNV), (0xFF800000, flDZ), (0xFF800000, flDZ), (0x7F800000, 0)),
   (.sin, (0x7FC00000, flNV), (0x80000000, 0), (0x00000000, 0), (0x7FC00000, flNV)),
   (.cos, (0x7FC00000, flNV), (0x3F800000, 0), (0x3F800000, 0), (0x7FC00000, flNV)),
   (.tanh, (0xBF800000, 0), (0x80000000, 0), (0x00000000, 0), (0x3F800000, 0)),
   (.gelu, (0x80000000, 0), (0x80000000, 0), (0x00000000, 0), (0x7F800000, 0)),
   (.sigm, (0x00000000, 0), (0x3F000000, 0), (0x3F000000, 0), (0x3F800000, 0))]

/-- An order of exact values that are no NaN. -/
def below : XVal → XVal → Prop
  | .nan _, _ | _, .nan _ => False
  | .inf true, _ | _, .inf false => True
  | .inf false, _ | _, .inf true => False
  | .fin s n d, .fin t m e => sgn s n * e ≤ sgn t m * d

end Sys2Proof.Claims

/-- R152: the special inputs of the functions, in every mode: the table, a NaN, a finite number below zero of FRSQ,
FSQRT and FLOG2, and FLOG2 of 1.0; and those of FEXP2 in FP16. -/
def Obligations.FunctionSpecials : Prop :=
  ∀ m : FMode,
    (∀ row ∈ specialResults, row.1.run m fmtF32 0xFF800000 = row.2.1 ∧ row.1.run m fmtF32 0x80000000 = row.2.2.1 ∧
      row.1.run m fmtF32 0x00000000 = row.2.2.2.1 ∧ row.1.run m fmtF32 0x7F800000 = row.2.2.2.2) ∧
    (∀ (f : Fun1) (c : Nat), (m.read fmtF32 c).1.isNan = true →
      f.run m fmtF32 c = (0x7FC00000, if bits (BitVec.ofNat 32 c) 22 22 = 0 then flNV else 0)) ∧
    (∀ f ∈ [Fun1.rsq, .sqrt, .log2], ∀ (c n d : Nat), n ≠ 0 → (m.read fmtF32 c).1 = .fin true n d →
      f.run m fmtF32 c = (0x7FC00000, flNV)) ∧
    Fun1.log2.run m fmtF32 0x3F800000 = (0, 0) ∧
    (Fun1.exp2.run m fmtF16 0xFC00 = (0x0000, 0) ∧ Fun1.exp2.run m fmtF16 0x8000 = (0x3C00, 0) ∧
      Fun1.exp2.run m fmtF16 0x0000 = (0x3C00, 0) ∧ Fun1.exp2.run m fmtF16 0x7C00 = (0x7C00, 0)) ∧
    (∀ c : Nat, (m.read fmtF16 c).1.isNan = true →
      Fun1.exp2.run m fmtF16 c = (0x7E00, if bits (BitVec.ofNat 32 c) 9 9 = 0 then flNV else 0))

/-- R35, R37: a finite code's exact value rounds to that code, without a flag, in every format and mode. -/
def Sys2Proof.Claims.ExactValuesRound : Prop :=
  ∀ f ∈ [fmtF32, fmtF16, fmtBf16, fmtE5m2, fmtE4m3, fmtE2m1], ∀ (rm : Rm) (sat : Bool) (c : Nat),
    c < 2 ^ f.width → c % 2 ^ (f.width - 1) ≤ f.maxCode → roundTo f rm sat false (f.decode false c).1 = (c, 0)

/-- R29, R37, R38: rounding towards -infinity never exceeds the exact value and rounding towards +infinity never
falls below it, in the formats that have infinities, unsaturated. -/
def Sys2Proof.Claims.DirectedRounding : Prop :=
  ∀ f ∈ [fmtF32, fmtF16, fmtBf16, fmtE5m2], ∀ (neg : Bool) (n d : Nat), 0 < d →
    below (f.decode false (roundTo f .rdn false false (.fin neg n d)).1).1 (.fin neg n d) ∧
    below (.fin neg n d) (f.decode false (roundTo f .rup false false (.fin neg n d)).1).1

/-! ### Compares, votes and lanes (R123 to R129, R148 to R150) -/

namespace Sys2Proof.Claims

/-- Whether one exact value is at most another, of two that are no NaN (R148): the two zeros are equal. -/
def atMost : XVal → XVal → Bool
  | .inf true, _ | _, .inf false => true
  | .inf false, _ | _, .inf true => false
  | .fin s n d, .fin t m e => decide (sgn s n * e ≤ sgn t m * d)
  | _, _ => false

/-- The outcome of a compare (R148): 0 EQ, 1 LT, 2 LE, 3 UN. -/
def outcome (cc : Nat) (x y : XVal) : Bool :=
  if x.isNan || y.isNan then cc == 3
  else match cc with
    | 0 => atMost x y && atMost y x
    | 1 => atMost x y && !atMost y x
    | 2 => atMost x y
    | _ => false

/-- The code of a signalling NaN in a format (R36): the exponent all ones, the mantissa not 0 and its highest bit 0. -/
def signalling (f : Fmt) (c : Nat) : Bool :=
  c / 2 ^ f.mant % 2 ^ (f.width - 1 - f.mant) == 2 ^ (f.width - 1 - f.mant) - 1 && c % 2 ^ f.mant != 0 && c / 2 ^ (f.mant - 1) % 2 == 0

/-- What sets NV in a compare of two codes (R148): any NaN for LT and LE, a signalling one for EQ and UN. -/
def raisesNv (f : Fmt) (cc : Nat) (x y : Nat) : Bool :=
  if cc = 1 ∨ cc = 2 then (f.decode false x).1.isNan || (f.decode false y).1.isNan else signalling f x || signalling f y

/-- A tree over 2^n leaves from a first one on: a node with one present child is that child (R51). -/
def pairTree {α : Type} (f : α → α → α) (leaf : Nat → Option α) : Nat → Nat → Option α
  | 0, lo => leaf lo
  | n + 1, lo =>
    match pairTree f leaf n lo, pairTree f leaf n (lo + 2 ^ n) with
    | some x, some y => some (f x y)
    | some x, none => some x
    | none, y => y

/-- The lane from which a lane takes its value (R128): itself where the index is out of range. -/
def sourceLanes : List ((Guard → Opnd → Opnd → Opnd → Instr) × (Nat → Word → Nat)) :=
  [(.shflIdx, fun _ x => x.toNat % 32), (.shflUp, fun k x => if x.toNat ≤ k then k - x.toNat else k),
   (.shflDn, fun k x => if k + x.toNat < 32 then k + x.toNat else k), (.shflXor, fun k x => (k ^^^ (x.toNat % 32)))]

/-- The integer and the floating-point reductions (R129, R150). -/
def wordReductions : List ((Guard → Opnd → Opnd → Instr) × (Word → Word → Word)) :=
  [(.iredaddS32, fun x y => BitVec.ofInt 32 (x.toInt + y.toInt)), (.iredminS32, fun x y => BitVec.ofInt 32 (min x.toInt y.toInt)),
   (.iredmaxS32, fun x y => BitVec.ofInt 32 (max x.toInt y.toInt))]
def floatReductions : List ((Guard → Opnd → Opnd → Instr) × (FMode → Nat → Nat → Nat × BitVec 6)) :=
  [(.fredaddF32, fun m => rounded fmtF32 sumOf m), (.fredminF32, fun m => minMax false m fmtF32), (.fredmaxF32, fun m => minMax true m fmtF32)]

/-- An active lane's input of a reduction (R36, R39, R150): a NaN as the canonical one, a flushed subnormal as the zero of its
sign, with NV for a signalling NaN. -/
def reduced (m : FMode) (c : Nat) : Nat × BitVec 6 :=
  (match (m.read fmtF32 c).1 with
    | .nan _ => 0x7FC00000
    | .fin s 0 _ => if s then 0x80000000 else 0
    | _ => c,
   if signalling fmtF32 c then flNV else 0)

end Sys2Proof.Claims

/-- R123, R124: a compare whose active lanes hold no mark writes the condition to PT and its complement to PF. -/
def Sys2Proof.Claims.IntCompareResults : Prop :=
  ∀ (g : Guard) (pt pf : Pred) (a b : Opnd) (s : State) (t : Thread),
    (∀ row ∈ ([(.icmpEqZ32, fun x y => decide (x.toNat = y.toNat)), (.icmpLtS32, fun x y => decide (x.toInt < y.toInt)),
        (.icmpLeS32, fun x y => decide (x.toInt ≤ y.toInt)), (.icmpLtZ32, fun x y => decide (x.toNat < y.toNat)),
        (.icmpLeZ32, fun x y => decide (x.toNat ≤ y.toNat))] :
          List ((Guard → Pred → Pred → Opnd → Opnd → Instr) × (Word → Word → Bool))),
      s.atSlot t (row.1 g pt pf a b) → t.clean g false [a, b] →
      exec (row.1 g pt pf a b) s =
        .next (s.decided t (row.1 g pt pf a b) pt pf fun k => row.2 (t.rd32 a k) (t.rd32 b k))) ∧
    (∀ cond : BitVec 2, s.atSlot t (.icmpS64 g pt pf a b cond) → t.clean g true [a, b] →
      (cond = 1 → exec (.icmpS64 g pt pf a b cond) s = .next (s.decided t (.icmpS64 g pt pf a b cond) pt pf
        fun k => decide ((t.rd64 true a k).toInt < (t.rd64 true b k).toInt))) ∧
      (cond = 2 → exec (.icmpS64 g pt pf a b cond) s = .next (s.decided t (.icmpS64 g pt pf a b cond) pt pf
        fun k => decide ((t.rd64 true a k).toInt ≤ (t.rd64 true b k).toInt)))) ∧
    (∀ cond : BitVec 2, s.atSlot t (.icmpZ64 g pt pf a b cond) → t.clean g true [a, b] →
      (cond = 0 → exec (.icmpZ64 g pt pf a b cond) s = .next (s.decided t (.icmpZ64 g pt pf a b cond) pt pf
        fun k => decide ((t.rd64 false a k).toNat = (t.rd64 false b k).toNat))) ∧
      (cond = 1 → exec (.icmpZ64 g pt pf a b cond) s = .next (s.decided t (.icmpZ64 g pt pf a b cond) pt pf
        fun k => decide ((t.rd64 false a k).toNat < (t.rd64 false b k).toNat))) ∧
      (cond = 2 → exec (.icmpZ64 g pt pf a b cond) s = .next (s.decided t (.icmpZ64 g pt pf a b cond) pt pf
        fun k => decide ((t.rd64 false a k).toNat ≤ (t.rd64 false b k).toNat))))

/-- R148, R149: the floating-point compares run in every active lane: where an operand is a NaN, EQ, LT and LE are false and
UN is true; otherwise UN is false and the others go by the exact values as read, -0 equal to +0. NV is set for any NaN by
LT and LE, for a signalling one by EQ and UN, and no other flag. -/
def Sys2Proof.Claims.FloatCompareResults : Prop :=
  ∀ (g : Guard) (pt pf : Pred) (a b : Opnd) (s : State) (t : Thread), t.clean g false [a, b] →
    (∀ row ∈ ([(.fcmpEqF32, 0), (.fcmpLtF32, 1), (.fcmpLeF32, 2), (.fcmpUnF32, 3)] :
        List ((Guard → Pred → Pred → Opnd → Opnd → Instr) × Nat)), s.atSlot t (row.1 g pt pf a b) →
      let x (k : Nat) := (t.rd32 a k).toNat
      let y (k : Nat) := (t.rd32 b k).toNat
      exec (row.1 g pt pf a b) s = .next (s.decided t (row.1 g pt pf a b) pt pf
        (fun k => outcome row.2 (t.fmodeArith.read fmtF32 (x k)).1 (t.fmodeArith.read fmtF32 (y k)).1)
        (fun k => if raisesNv fmtF32 row.2 (x k) (y k) then flNV else 0))) ∧
    (∀ (h : Bool) (cc : BitVec 2), s.atSlot t (.fcmpF16 g pt pf a b h cc) →
      let e (o : Opnd) (k : Nat) := (if h then hiHalf (t.rd32 o k) else loHalf (t.rd32 o k)).toNat
      exec (.fcmpF16 g pt pf a b h cc) s = .next (s.decided t (.fcmpF16 g pt pf a b h cc) pt pf
        (fun k => outcome cc.toNat (t.fmodeArith.read fmtF16 (e a k)).1 (t.fmodeArith.read fmtF16 (e b k)).1)
        (fun k => if raisesNv fmtF16 cc.toNat (e a k) (e b k) then flNV else 0))) ∧
    (∀ (h : Bool) (cc : BitVec 2), s.atSlot t (.fcmpBf16 g pt pf a b h cc) →
      let e (o : Opnd) (k : Nat) := (if h then hiHalf (t.rd32 o k) else loHalf (t.rd32 o k)).toNat
      exec (.fcmpBf16 g pt pf a b h cc) s = .next (s.decided t (.fcmpBf16 g pt pf a b h cc) pt pf
        (fun k => outcome cc.toNat (t.fmodeArith.read fmtBf16 (e a k)).1 (t.fmodeArith.read fmtBf16 (e b k)).1)
        (fun k => if raisesNv fmtBf16 cc.toNat (e a k) (e b k) then flNV else 0)))

/-- R125, R126: PLOP looks its two predicates up in its table; the votes give every active lane the OR and the AND of
PA, complemented when N is 1, over the active lanes. Their words hold the fields of the compare format. -/
def Obligations.PredicateResults : Prop :=
  ∀ (g : Guard) (pt pf pa pb : Pred) (n : Bool) (table : BitVec 4) (s : State) (t : Thread),
    let v (k : Nat) : Bool := bit (t.pred pa) k != n
    (s.atSlot t (.plop g pt pf pa pb table) →
      exec (.plop g pt pf pa pb table) s = .next (s.decided t (.plop g pt pf pa pb table) pt pf
        fun k => table.getLsbD ((bit (t.pred pa) k).toNat + 2 * (bit (t.pred pb) k).toNat))) ∧
    (s.atSlot t (.voteAny g pt pf pa n) →
      exec (.voteAny g pt pf pa n) s = .next (s.decided t (.voteAny g pt pf pa n) pt pf
        fun _ => (lanesOf (t.active g)).any v)) ∧
    (s.atSlot t (.voteAll g pt pf pa n) →
      exec (.voteAll g pt pf pa n) s = .next (s.decided t (.voteAll g pt pf pa n) pt pf
        fun _ => (lanesOf (t.active g)).all v)) ∧
    (∃ w, encode (.plop g pt pf pa pb table) = [w] ∧ startsWith w 0x25 g ∧ bits w 20 18 = pt.val ∧ bits w 17 15 = pf.val ∧
      bit w 14 = false ∧ bits w 13 11 = pa.val ∧ bits w 10 8 = pb.val ∧ bits w 7 4 = 0 ∧ bits w 3 0 = table.toNat) ∧
    (∀ row ∈ [(Instr.voteAny g pt pf pa n, 0x26), (Instr.voteAll g pt pf pa n, 0x27)], ∃ w, encode row.1 = [w] ∧
      startsWith w row.2 g ∧ bits w 20 18 = pt.val ∧ bits w 17 15 = pf.val ∧ bit w 14 = false ∧
      bits w 13 11 = pa.val ∧ bit w 10 = n ∧ bits w 9 0 = 0x7C)

/-- R111, R127, R128: BALLOT gives every active lane the mask of the active lanes whose vote is 1; a shuffle delivers
a, with its mark, from the lane it names if that lane is active, and from the lane itself otherwise. -/
def Sys2Proof.Claims.LaneExchangeResults : Prop :=
  ∀ (g : Guard) (d a b : Opnd) (pa : Pred) (n : Bool) (s : State) (t : Thread),
    (s.atSlot t (.ballot g d pa n) →
      exec (.ballot g d pa n) s = .next (s.wrote t (.ballot g d pa n) d false
        fun _ => zext64 (ofBits fun k => bit (t.active g) k && (bit (t.pred pa) k != n)))) ∧
    (∀ row ∈ sourceLanes, s.atSlot t (row.1 g d a b) → t.clean g false [b] →
      let q (k : Nat) := if bit (t.active g) (row.2 k (t.rd32 b k)) then row.2 k (t.rd32 b k) else k
      exec (row.1 g d a b) s = .next (s.wrote t (row.1 g d a b) d false
        (fun k => zext64 (t.rd32 a (q k))) (fun k => t.marked false a (q k))))

/-- R51, R129, R150: a reduction gives every active lane the value of the pairwise tree over the active lanes; the
flags of all its nodes reach them all; with no active lane nothing is written. -/
def Sys2Proof.Claims.ReductionResults : Prop :=
  ∀ (g : Guard) (d a : Opnd) (s : State) (t : Thread), t.clean g false [a] →
    (∀ row ∈ wordReductions, s.atSlot t (row.1 g d a) → ∃ v : Word,
      exec (row.1 g d a) s = .next (s.wrote t (row.1 g d a) d false fun _ => zext64 v) ∧
      (t.active g ≠ 0 → pairTree row.2 (fun k => if bit (t.active g) k then some (t.rd32 a k) else none) 5 0 = some v)) ∧
    (∀ row ∈ floatReductions, s.atSlot t (row.1 g d a) → ∃ v : Nat × BitVec 6,
      exec (row.1 g d a) s =
        .next (s.wrote t (row.1 g d a) d false (fun _ => zext64 (BitVec.ofNat 32 v.1)) (fun _ => false) (fun _ => v.2)) ∧
      (t.active g ≠ 0 →
        pairTree (fun x y => ((row.2 t.fmodeArith x.1 y.1).1, x.2 ||| y.2 ||| (row.2 t.fmodeArith x.1 y.1).2))
          (fun k => if bit (t.active g) k then some (reduced t.fmodeArith (t.rd32 a k).toNat) else none)
          5 0 = some v))

/-! ### Conversions, quantisation and pixels (R44 to R49, R153 to R157, R161) -/

namespace Sys2Proof.Claims

/-- The values of a lane and the flags, given only in the active lanes. -/
def inActive (t : Thread) (g : Guard) (p : Nat → Prop) : Prop := ∀ k < 32, bit (t.active g) k = true → p k

/-- A word is the control word of every active lane. -/
def agreed (t : Thread) (g : Guard) (b : Opnd) (w : Word) : Prop := inActive t g fun k => t.rd32 b k = w

/-- The inputs of a QUANT: the active lanes' values as read (R39). -/
def blockOf (t : Thread) (g : Guard) (a : Opnd) : List XVal :=
  (lanesOf (t.active g)).map fun k => (t.fmodeCvt.read fmtF32 (t.rd32 a k).toNat).1

/-- The exponents of a block's non-zero inputs, in ascending order (R46). -/
def sortedExps (xs : List XVal) : List Int :=
  (xs.filterMap fun x => match x with
    | .fin _ n d => if n = 0 then none else some (fracLog n d)
    | _ => none).mergeSort (fun x y => decide (x ≤ y))

/-- The scale of R46 for a block of finite inputs, one of them not 0, with clip rank r. -/
def scaleOf (emax : Int) (r : Nat) (xs : List XVal) : Int :=
  let es := sortedExps xs
  max 0 (min 254 (es.getD ((es.length * r + 31) / 32 - 1) 0 - emax + 127))

/-- Bit n of the string of pixels that the lanes' words make: 0 from a lane that is not active (R161). -/
def stringBit (t : Thread) (g : Guard) (a : Opnd) (n : Nat) : Bool := bit (t.active g) (n / 32) && bit (t.rd32 a (n / 32)) (n % 32)

/-- The pixel width of a control word and whether pixels are aligned left, or saturate (R160). -/
def widthOf (w : Word) : Nat := 10 + 2 * bits w 1 0

/-- Bit j of pixel p as unpacked. -/
def pixelBit (t : Thread) (g : Guard) (a : Opnd) (w : Word) (p j : Nat) : Bool :=
  if bit w 2 then decide (16 - widthOf w ≤ j) && stringBit t g a (p * widthOf w + (j - (16 - widthOf w)))
  else decide (j < widthOf w) && stringBit t g a (p * widthOf w + j)

/-- Pixel p of the string that PXPACK makes, from half p % 2 of lane p / 2. -/
def packedPixel (t : Thread) (g : Guard) (a : Opnd) (w : Word) (p : Nat) : Nat :=
  let x := if bit (t.active g) (p / 2) then (if p % 2 = 1 then hiHalf (t.rd32 a (p / 2)) else loHalf (t.rd32 a (p / 2))).toNat else 0
  if bit w 2 then x >>> (16 - widthOf w) else if bit w 3 then min x (2 ^ widthOf w - 1) else x % 2 ^ widthOf w

end Sys2Proof.Claims

/-- R44, R141, R153 to R155: CVT and its wide form give every active lane the conversion of its source between the
types of the code, under %fmode or the modes the extension word names; from a floating-point type to another the mark
goes with the value, and every other conversion may read no mark. A result narrower than 32 bits of the wide form
is inserted at its position into the old destination. -/
def Sys2Proof.Claims.ConversionForms : Prop :=
  ∀ (g : Guard) (d a : Opnd) (s : State) (t : Thread),
    (∀ k : BitVec 7, s.atSlot t (.cvt g d a k) →
      let dst := cvtType (bits k 6 3)
      let src := cvtType (cvtSource (bits k 2 0))
      let lin := dst.isFlt && src.isFlt
      (lin = false → t.clean g (src.width == 64) [a]) →
      exec (.cvt g d a k) s = .next (s.wrote t (.cvt g d a k) d (dst.width == 64)
        (fun q => BitVec.ofNat 64 (cvtValue t.fmodeCvt dst src (t.cvtSrc src a q)).1)
        (fun q => lin && t.marked false a q) (fun q => (cvtValue t.fmodeCvt dst src (t.cvtSrc src a q)).2))) ∧
    (∀ (di si : BitVec 4) (rm : BitVec 3) (sat sp dp : BitVec 2), s.atSlot t (.cvtWide g d a di si rm sat sp dp) →
      let dst := cvtType di.toNat
      let src := cvtType si.toNat
      let lin := dst.isFlt && src.isFlt
      let m : FMode := { t.fmodeCvt with
        rm := if rm = 7 then t.fmodeCvt.rm else rmOf rm.toNat
        sat := if sat = 0 then t.fmodeCvt.sat else decide (sat = 2) }
      let r (q : Nat) := cvtValue m dst src (t.cvtSrc src a q >>> (sp.toNat * src.width))
      (lin = false → t.clean g (src.width == 64) [a] ∧ (dst.width < 32 → t.clean g false [d])) →
      ∃ v : Nat → DWord,
        exec (.cvtWide g d a di si rm sat sp dp) s = .next (s.wrote t (.cvtWide g d a di si rm sat sp dp) d (dst.width == 64) v
          (fun q => lin && (t.marked (src.width == 64) a q || (decide (dst.width < 32) && t.marked false d q)))
          (fun q => (r q).2)) ∧
        ∀ q, (32 ≤ dst.width → v q = BitVec.ofNat 64 (r q).1) ∧
          (dst.width < 32 → ((dp.toNat + 1) * dst.width ≤ 32) → v q = zext64 (ofBits fun j =>
            if dp.toNat * dst.width ≤ j ∧ j < (dp.toNat + 1) * dst.width then (r q).1.testBit (j - dp.toNat * dst.width)
            else bit (t.rd32 d q) j)))

/-- R44: the cases of the conversion table: a NaN becomes the integer 0 with NV; an infinity, or a finite float that rounds to no
number of the integer type, clamps to the type's nearer end with NV and SA; one in range rounds, with NX where inexact, for every
type of 8 to 64 bits; an integer narrowed without saturation keeps its low
bits without a flag, with saturation clamps with SA; an integer widened to 16, 32 or 64 bits is extended; a finite float is
rounded to the other format; an infinity becomes the infinity of its sign, or in E4M3 and E2M1 what they have for it; a NaN becomes 0 in
E2M1 with NV; an integer becomes the float nearest to it under the mode. -/
def Sys2Proof.Claims.ConversionCases : Prop :=
  ∀ m : FMode,
    (∀ (f : Fmt) (sg : Bool) (w x : Nat), (m.read f x).1.isNan = true →
      (cvtValue m (.int sg w) (.flt f) x).1 = 0 ∧ (cvtValue m (.int sg w) (.flt f) x).2 &&& flNV = flNV) ∧
    (∀ (f : Fmt) (sg : Bool) (w x : Nat), w ∈ [8, 16, 32, 64] →
      let lo : Int := if sg then -(2 ^ (w - 1)) else 0
      let hi : Int := if sg then 2 ^ (w - 1) - 1 else 2 ^ w - 1
      let code (v : Int) : Nat := if w = 64 then (BitVec.ofInt 64 v).toNat else (BitVec.ofInt 32 v).toNat
      let clamped (v : Int) : Prop := cvtValue m (.int sg w) (.flt f) x = (code v, (m.read f x).2 ||| (flNV ||| flSA))
      (∀ neg, (m.read f x).1 = .inf neg → clamped (if neg then lo else hi)) ∧
      ∀ neg n d, (m.read f x).1 = .fin neg n d →
        let q := (roundNat neg m.rm n d).1
        let v : Int := if neg then -(q : Int) else q
        (v < lo → clamped lo) ∧ (hi < v → clamped hi) ∧
        (lo ≤ v → v ≤ hi → cvtValue m (.int sg w) (.flt f) x = (code v, (m.read f x).2 ||| if n % d = 0 then 0 else flNX))) ∧
    (∀ (sg sh : Bool) (w u x : Nat), u ∈ [8, 16, 32] → u ≤ w → w ≤ 64 → m.sat = false →
      cvtValue m (.int sh u) (.int sg w) x =
        ((if sh then BitVec.signExtend 32 (BitVec.ofNat u x) else BitVec.zeroExtend 32 (BitVec.ofNat u x)).toNat, 0)) ∧
    (∀ (sg sh : Bool) (w u x : Nat), w ∈ [8, 16, 32] → u ∈ [16, 32, 64] → w < u →
      let e := if u = 64 then 64 else 32
      cvtValue m (.int sh u) (.int sg w) x =
        ((if sg then BitVec.signExtend e (BitVec.ofNat w x) else BitVec.zeroExtend e (BitVec.ofNat w x)).toNat, 0)) ∧
    (∀ (sg sh : Bool) (w u x : Nat), w ∈ [8, 16, 32, 64] → u ∈ [8, 16, 32, 64] → u ≤ w → m.sat = true →
      let v : Int := if sg then (BitVec.ofNat w x).toInt else (BitVec.ofNat w x).toNat
      let lo : Int := if sh then -(2 ^ (u - 1)) else 0
      let hi : Int := if sh then 2 ^ (u - 1) - 1 else 2 ^ u - 1
      let code (v : Int) : Nat := if u = 64 then (BitVec.ofInt 64 v).toNat else (BitVec.ofInt 32 v).toNat
      cvtValue m (.int sh u) (.int sg w) x =
        (code (max lo (min hi v)), if lo ≤ v ∧ v ≤ hi then 0 else flSA)) ∧
    (∀ (f : Fmt) (x : Nat) (neg : Bool), f ∈ [fmtF32, fmtF16, fmtBf16, fmtE5m2] → (m.read f x).1 = .inf neg →
      let into (h : Fmt) := cvtValue m (.flt h) (.flt f) x
      into fmtF32 = (if neg then 0xFF800000 else 0x7F800000, 0) ∧ into fmtF16 = (if neg then 0xFC00 else 0x7C00, 0) ∧
      into fmtBf16 = (if neg then 0xFF80 else 0x7F80, 0) ∧ into fmtE5m2 = (if neg then 0xFC else 0x7C, 0) ∧
      into fmtE4m3 = (if m.sat then (if neg then 0xFE else 0x7E, flOF ||| flSA) else (if neg then 0xFF else 0x7F, flNV)) ∧
      into fmtE2m1 = (if neg then 0xF else 0x7, flOF ||| flSA)) ∧
    (∀ (f h : Fmt) (x n d : Nat) (neg : Bool), (m.read f x).1 = .fin neg n d →
      cvtValue m (.flt h) (.flt f) x = ((roundTo h m.rm m.sat (m.flush h) (.fin neg n d)).1,
        (m.read f x).2 ||| (roundTo h m.rm m.sat (m.flush h) (.fin neg n d)).2)) ∧
    (∀ (f : Fmt) (x : Nat), (m.read f x).1.isNan = true →
      (cvtValue m (.flt fmtE2m1) (.flt f) x).1 = 0 ∧ (cvtValue m (.flt fmtE2m1) (.flt f) x).2 &&& flNV = flNV) ∧
    (∀ (sg : Bool) (w x : Nat) (h : Fmt),
      cvtValue m (.flt h) (.int sg w) x = roundTo h m.rm m.sat (m.flush h) (.ofInt (intOf sg w x)))

/-- R46, R141, R156: QUANT of a block whose active lanes agree on a control word without reserved bits: an infinity
or NaN makes the scale 0xFF and the codes 0 with NV; a block of zeros has scale 0x7F and codes +0; any other takes the
scale of the clip rank and each element divided by it and rounded. -/
def Sys2Proof.Claims.QuantResults : Prop :=
  ∀ (g : Guard) (d a b : Opnd) (w : Word) (s : State) (t : Thread),
    s.atSlot t (.quant g d a b) → t.clean g false [a, b] → agreed t g b w →
    (bits w 31 13 = 0 ∧ bits w 7 2 = 0 ∧ bits w 1 0 ≠ 3) →
    let f := if bits w 1 0 = 0 then fmtE4m3 else if bits w 1 0 = 1 then fmtE5m2 else fmtE2m1
    let emax : Int := if bits w 1 0 = 0 then 8 else if bits w 1 0 = 1 then 15 else 2
    let xs := blockOf t g a
    ∃ (v : Nat → DWord) (fl : Nat → BitVec 6),
      exec (.quant g d a b) s = .next (s.wrote t (.quant g d a b) d false v (fun _ => false) fl) ∧
      inActive t g fun k =>
        ((∃ x ∈ xs, ∀ p n e, x ≠ .fin p n e) → v k = 0xFF00#64 ∧ fl k = flNV) ∧
        ((∀ x ∈ xs, ∃ p e, x = .fin p 0 e) → v k = 0x7F00#64 ∧ fl k = 0) ∧
        ((∀ x ∈ xs, ∃ p n e, x = .fin p n e) → (∃ x ∈ xs, ∃ p n e, n ≠ 0 ∧ x = .fin p n e) →
          ∀ p n e, (t.fmodeCvt.read fmtF32 (t.rd32 a k).toNat).1 = .fin p n e →
            let x := scaleOf emax (bits w 12 8 + 1) xs
            let r := roundTo f t.fmodeCvt.rm true (t.fmodeCvt.flush f)
              (.fin p (scale2 n e (127 - x)).1 (scale2 n e (127 - x)).2)
            v k = BitVec.ofNat 64 (x.toNat * 256 + r.1) ∧ fl k = r.2)

/-- R45, R48, R140, R157: DEQ of lanes whose control words are not reserved rounds the exact value of the element; an infinite MX element
gives that infinity, a NaN element or a NaN scale the canonical NaN, of sign 0 (the sign is the model's choice, log entry 86). -/
def Sys2Proof.Claims.DequantResults : Prop :=
  ∀ (g : Guard) (d a b : Opnd) (s : State) (t : Thread),
    s.atSlot t (.deq g d a b) → t.clean g false [a, b] →
    (inActive t g fun k => bits (t.rd32 b k) 31 3 = 0 ∧ bits (t.rd32 b k) 2 0 ≤ 4) →
    ∃ (v : Nat → DWord) (fl : Nat → BitVec 6),
      exec (.deq g d a b) s = .next (s.wrote t (.deq g d a b) d false v (fun _ => false) fl) ∧
      inActive t g fun k =>
        let m := t.fmodeArith
        let x := t.rd32 a k
        let c := bits (t.rd32 b k) 2 0
        (c ≤ 2 → bits x 15 8 = 0xFF → v k = 0x7FC00000#64 ∧ fl k = 0) ∧
        (∀ p n e, c ≤ 2 → bits x 15 8 ≠ 0xFF →
          (if c = 0 then m.read fmtE4m3 (bits x 7 0) else if c = 1 then m.read fmtE5m2 (bits x 7 0) else m.read fmtE2m1 (bits x 3 0)).1
            = .fin p n e →
          let r := m.round fmtF32 (.fin p (scale2 n e ((bits x 15 8 : Int) - 127)).1 (scale2 n e ((bits x 15 8 : Int) - 127)).2)
          v k = zext64 (BitVec.ofNat 32 r.1) ∧ fl k = r.2) ∧
        (c ≤ 2 → bits x 15 8 ≠ 0xFF →
          let e := if c = 0 then m.read fmtE4m3 (bits x 7 0) else if c = 1 then m.read fmtE5m2 (bits x 7 0) else m.read fmtE2m1 (bits x 3 0)
          (e.1.isNan = true → v k = 0x7FC00000#64 ∧ fl k = 0) ∧
          ∀ p, e.1 = .inf p → v k = (if p then 0xFF800000#64 else 0x7F800000#64) ∧ fl k = 0) ∧
        (3 ≤ c →
          let q := if c = 3 then bits x 3 0 else bits x 7 0
          let z := if c = 3 then bits x 11 8 else bits x 15 8
          let y := (m.read fmtF16 (bits x 31 16)).1.mul (.ofInt ((q : Int) - z))
          v k = zext64 (BitVec.ofNat 32 (m.round fmtF32 y.1).1) ∧
          fl k = (m.read fmtF16 (bits x 31 16)).2 ||| y.2 ||| (m.round fmtF32 y.1).2)

/-- R49, R161: PXUNPACK gives lane i the pixels 2i and 2i + 1 of the string of the active lanes' words; PXPACK makes
the string of the active lanes' pixel pairs and gives lane j its word j, with SA where one of the lane's own pixels
saturates. -/
def Obligations.PixelResults : Prop :=
  ∀ (g : Guard) (d a b : Opnd) (w : Word) (s : State) (t : Thread), t.clean g false [a, b] → agreed t g b w → bits w 1 0 ≠ 3 →
    (s.atSlot t (.pxunpack g d a b) → bits w 31 3 = 0 →
      ∃ v : Nat → DWord,
        exec (.pxunpack g d a b) s = .next (s.wrote t (.pxunpack g d a b) d false v) ∧
        inActive t g fun k => v k = zext64 (ofBits fun j => pixelBit t g a w (2 * k + j / 16) (j % 16))) ∧
    (s.atSlot t (.pxpack g d a b) → bits w 31 4 = 0 →
      ∃ (v : Nat → DWord) (fl : Nat → BitVec 6),
        exec (.pxpack g d a b) s = .next (s.wrote t (.pxpack g d a b) d false v (fun _ => false) fl) ∧
        inActive t g fun k =>
          v k = zext64 (ofBits fun j => decide (32 * k + j < 64 * widthOf w) &&
            (packedPixel t g a w ((32 * k + j) / widthOf w)).testBit ((32 * k + j) % widthOf w)) ∧
          fl k = if bit w 2 = false ∧ bit w 3 = true ∧
              (2 ^ widthOf w ≤ (loHalf (t.rd32 a k)).toNat ∨ 2 ^ widthOf w ≤ (hiHalf (t.rd32 a k)).toNat) then flSA else 0)

/-- R156, R157, R161, R165: a control word that differs between the active lanes raises the format-divergence trap,
cause 0x18, in QUANT, PXUNPACK and PXPACK, and a reserved one the illegal-instruction trap, cause 0x04, in these and DEQ. (The order of
these among themselves and after the domain trap is log entry 14.) -/
def Sys2Proof.Claims.ControlWordTraps : Prop :=
  ∀ (g : Guard) (d a b : Opnd) (s : State) (t : Thread), t.clean g false [a, b] →
    (s.atSlot t (.quant g d a b) →
      ((∃ w, agreed t g b w ∧ t.active g ≠ 0 ∧ (bits w 31 13 ≠ 0 ∨ bits w 7 2 ≠ 0 ∨ bits w 1 0 = 3)) →
        exec (.quant g d a b) s = .next (s.trapCur 0x04 (t.active g) 0 0)) ∧
      ((∃ j < 32, ∃ k < 32, bit (t.active g) j = true ∧ bit (t.active g) k = true ∧ t.rd32 b j ≠ t.rd32 b k) →
        exec (.quant g d a b) s = .next (s.trapCur 0x18 (t.active g) 0 0))) ∧
    (s.atSlot t (.deq g d a b) →
      (∃ k < 32, bit (t.active g) k = true ∧ (bits (t.rd32 b k) 31 3 ≠ 0 ∨ 4 < bits (t.rd32 b k) 2 0)) →
      exec (.deq g d a b) s = .next (s.trapCur 0x04 (t.active g) 0 0)) ∧
    (∀ row ∈ ([(.pxunpack, 3), (.pxpack, 4)] : List ((Guard → Opnd → Opnd → Opnd → Instr) × Nat)),
      s.atSlot t (row.1 g d a b) →
      ((∃ w, agreed t g b w ∧ t.active g ≠ 0 ∧ (bits w 31 row.2 ≠ 0 ∨ bits w 1 0 = 3)) →
        exec (row.1 g d a b) s = .next (s.trapCur 0x04 (t.active g) 0 0)) ∧
      ((∃ j < 32, ∃ k < 32, bit (t.active g) j = true ∧ bit (t.active g) k = true ∧ t.rd32 b j ≠ t.rd32 b k) →
        (inActive t g fun k => bits (t.rd32 b k) 31 row.2 = 0 ∧ bits (t.rd32 b k) 1 0 ≠ 3) →
        exec (row.1 g d a b) s = .next (s.trapCur 0x18 (t.active g) 0 0)))

namespace Sys2Proof.Claims

/-- Instructions that may read no mark in some of their operands, with the width each is read in (R65, R110, R111, R141). -/
def strictForms (g : Guard) (d a b c : Opnd) (pt pf : Pred) (cond : BitVec 2) (h : Bool) : List (Instr × List (Opnd × Bool)) :=
  (twoWord.map fun row => (row.1 g d a b, [(a, false), (b, false)])) ++
  (oneWord.map fun row => (row.1 g d a, [(a, false)])) ++
  (threeWord.map fun row => (row.1 g d a b, [(d, false), (a, false), (b, false)])) ++
  (divisions.map fun row => (row.1 g d a b, [(a, false), (b, false)])) ++
  (packedInts.map fun row => (row.1 g d a b, [(a, false), (b, false)])) ++
  (([.frcpF32, .frsqF32, .fsqrtF32, .fexp2F32, .flog2F32, .fsinF32, .fcosF32, .ftanhF32, .fgeluF32, .fsigmF32] :
    List (Guard → Opnd → Opnd → Instr)).map fun i => (i g d a, [(a, false)])) ++
  (([.icmpEqZ32, .icmpLtS32, .icmpLeS32, .icmpLtZ32, .icmpLeZ32, .fcmpEqF32, .fcmpLtF32, .fcmpLeF32, .fcmpUnF32] :
    List (Guard → Pred → Pred → Opnd → Opnd → Instr)).map fun i => (i g pt pf a b, [(a, false), (b, false)])) ++
  (wordReductions.map fun row => (row.1 g d a, [(a, false)])) ++
  (floatReductions.map fun row => (row.1 g d a, [(a, false)])) ++
  (sourceLanes.map fun row => (row.1 g d a b, [(b, false)])) ++
  [(.imulwS32 g d a b, [(a, false), (b, false)]), (.imulwZ32 g d a b, [(a, false), (b, false)]), (.andZ64 g d a b, [(a, true), (b, true)]),
   (.orZ64 g d a b, [(a, true), (b, true)]), (.xorZ64 g d a b, [(a, true), (b, true)]), (.shlZ64 g d a b, [(a, true), (b, false)]),
   (.shrZ64 g d a b, [(a, true), (b, false)]), (.shrS64 g d a b, [(a, true), (b, false)]), (.popcZ64 g d a, [(a, true)]),
   (.clzZ64 g d a, [(a, true)]), (.leaS64 g d a b, [(a, true), (b, false)]), (.icmpS64 g pt pf a b cond, [(a, true), (b, true)]),
   (.icmpZ64 g pt pf a b cond, [(a, true), (b, true)]), (.fcmpF16 g pt pf a b h cond, [(a, false), (b, false)]),
   (.fcmpBf16 g pt pf a b h cond, [(a, false), (b, false)]), (.fminF32 g d a b, [(a, false), (b, false)]),
   (.fmaxF32 g d a b, [(a, false), (b, false)]), (.imadS16x2 g d a b, [(d, false), (a, false), (b, false)]),
   (.iabsS16x2 g d a, [(a, false)]), (.dotsS16x2 g d a b c, [(a, false), (b, false), (c, false)]), (.fdivF32 g d a b, [(b, false)]),
   (.fexp2F16x2 g d a, [(a, false)]), (.quant g d a b, [(a, false), (b, false)]), (.deq g d a b, [(a, false), (b, false)]),
   (.pxunpack g d a b, [(a, false), (b, false)]), (.pxpack g d a b, [(a, false), (b, false)])]

end Sys2Proof.Claims

/-- R65, R66, R111, R141: an active lane that reads a marked operand where the instruction may read no mark, or two marked
factors of a product, raises the domain trap, cause 0x19, with the active lanes. (That it comes before the divide check and the checks of
control words is log entry 14.) -/
def Sys2Proof.Claims.DomainTraps : Prop :=
  ∀ (g : Guard) (d a b c : Opnd) (pt pf : Pred) (cond : BitVec 2) (h : Bool) (s : State) (t : Thread),
    (∀ row ∈ strictForms g d a b c pt pf cond h, s.atSlot t row.1 →
      (∃ k < 32, bit (t.active g) k = true ∧ ∃ m ∈ row.2, t.marked m.2 m.1 k = true) →
      exec row.1 s = .next (s.trapCur 0x19 (t.active g) 0 0)) ∧
    ((∃ k < 32, bit (t.active g) k = true ∧ t.marked false a k = true ∧ t.marked false b k = true) →
      (∀ row ∈ products, s.atSlot t (row.1 g d a b) → exec (row.1 g d a b) s = .next (s.trapCur 0x19 (t.active g) 0 0)) ∧
      (∀ row ∈ multiplyAdds, s.atSlot t (row.1 g d a b) → exec (row.1 g d a b) s = .next (s.trapCur 0x19 (t.active g) 0 0)) ∧
      (∀ row ∈ multiplyAdds3, s.atSlot t (row.1 g d a b c) → exec (row.1 g d a b c) s = .next (s.trapCur 0x19 (t.active g) 0 0)))

/-! ### Control transfer and special registers (R32, R130 to R139, R263, R265) -/

namespace Sys2Proof.Claims

/-- A lane's entry e of the return entries. -/
def retEntry (t : Thread) (e k : Nat) : Word := laneGet (SMap.get t.ret [] e) 0 k
/-- A lane's call level. -/
def levelOf (t : Thread) (k : Nat) : Nat := laneGet t.level 0 k

/-- The registers u are those of t past the instruction with other program counters in the active lanes. -/
def jumped (t u : Thread) (i : Instr) (target : Nat → Word) : Prop :=
  { u with vpc := [], ret := [], level := [], live := 0 } = { t.past i with vpc := [], ret := [], level := [], live := 0 } ∧
  ∀ k < 32, u.pcOf k = if bit (t.active i.guard) k then target k else (t.past i).pcOf k

/-- Return entries and levels are unchanged. -/
def sameCalls (t u : Thread) : Prop := u.ret = t.ret ∧ u.level = t.level ∧ u.live = t.live

/-- The active lanes have pushed an address (R132). -/
def pushed (t u : Thread) (i : Instr) (x : Word) : Prop :=
  u.live = t.live ∧
  (∀ k < 32, levelOf u k = levelOf t k + if bit (t.active i.guard) k then 1 else 0) ∧
  ∀ e < 32, ∀ k < 32, retEntry u e k = if bit (t.active i.guard) k ∧ levelOf t k = e then x else retEntry t e k

/-- The offsets of the running clause's header and of the next one (R89, R132). -/
def headerAt (t : Thread) : Nat := match t.clause with | some c => c.hdr | none => 0
def nextHeader (t : Thread) : Nat := match t.clause with | some c => c.hdr + 4 * (c.slots.length + 1) | none => 0

/-- A special register whose value is the same in every lane (R32, R137, R138), for a ray and its beam and context. -/
def sharedSpecials (s : State) (core : Nat) (r : Ray) (b : Beam) (c : Ctx) : List (BitVec 7 × DWord) :=
  [(0x00#7, BitVec.ofNat 64 (match r.th.clause with | some c => c.hdr + 4 * (c.next + 1) | none => 0)),
   (0x02#7, zext64 r.th.fmode), (0x04#7, BitVec.ofNat 64 r.rayId), (0x05#7, BitVec.ofNat 64 r.role),
   (0x06#7, BitVec.ofNat 64 b.gangPos), (0x07#7, zext64 r.th.live), (0x08#7, BitVec.ofNat 64 r.pos),
   (0x09#7, BitVec.ofNat 64 (b.pageIdx % 2 ^ 48)), (0x0A#7, BitVec.ofNat 64 b.retry), (0x0B#7, BitVec.ofNat 64 core),
   (0x0C#7, BitVec.ofNat 64 s.clock), (0x0D#7, r.th.retired), (0x0E#7, BitVec.ofNat 64 b.codeBase),
   (0x20#7, if c.lntab = 0 then 0 else c.lnmask), (0x21#7, if c.lntab = 0 then 0 else c.lnpend)]

/-- A write's clock, %coreid and %rayid come after another's. -/
def laterThan (a b : Nat × Nat × Nat) : Bool := decide (b.1 < a.1 ∨ (b.1 = a.1 ∧ (b.2.1 < a.2.1 ∨ (b.2.1 = a.2.1 ∧ b.2.2 < a.2.2))))

/-- The bank status of a bank in %bankmode (R264). -/
def bankWord (n : Nat) (x : Bank) : Nat :=
  (match x.mode with | .cache => 0 | .scratch => 1 | .fifo => 2) + 4 * (n % 64) + 256 * x.win.toNat + 512 * x.sw.toNat +
  if x.mode = .fifo then 2 ^ 10 * (x.head % 2 ^ 15) + 2 ^ 25 * (x.tail % 2 ^ 15) + 2 ^ 40 * (x.count % 2 ^ 16) else 0

end Sys2Proof.Claims

/-- R89, R102, R130, R132 to R134: BRA, CALL, RET, BRX, CALLX and EXIT whose checks hold set the program counter of
their active lanes to the target, the popped entry with bits [1:0] read as 0 (log entry 43) or 0xFFFFFFFC; a call pushes the next
clause header, a return pops, EXIT ends its lanes; every other lane goes on past the instruction. -/
def Sys2Proof.Claims.ControlResults : Prop :=
  ∀ (g : Guard) (a : Opnd) (disp : BitVec 21) (s : State) (t : Thread),
    (s.atSlot t (.bra g disp) → ∃ u,
      exec (.bra g disp) s = .next (s.finishSlot u) ∧ sameCalls t u ∧
      jumped t u (.bra g disp) fun _ => BitVec.ofInt 32 (headerAt t + 4 * disp.toInt)) ∧
    (s.atSlot t (.call g disp) → (inActive t g fun k => levelOf t k < t.depth) → ∃ u,
      exec (.call g disp) s = .next (s.finishSlot u) ∧ pushed t u (.call g disp) (BitVec.ofNat 32 (nextHeader t)) ∧
      jumped t u (.call g disp) fun _ => BitVec.ofInt 32 (headerAt t + 4 * disp.toInt)) ∧
    (s.atSlot t (.ret g) → (inActive t g fun k => levelOf t k ≠ 0) → ∃ u,
      exec (.ret g) s = .next (s.finishSlot u) ∧ u.ret = t.ret ∧ u.live = t.live ∧
      (∀ k < 32, levelOf u k = levelOf t k - if bit (t.active g) k then 1 else 0) ∧
      jumped t u (.ret g) fun k => retEntry t (levelOf t k - 1) k &&& 0xFFFFFFFC#32) ∧
    (s.atSlot t (.brx g a) → t.clean g false [a] →
      (inActive t g fun k => (t.rd32 a k).toNat % 4 = 0 ∧ (t.rd32 a k).toNat < t.span) → ∃ u,
      exec (.brx g a) s = .next (s.finishSlot u) ∧ sameCalls t u ∧ jumped t u (.brx g a) fun k => t.rd32 a k) ∧
    (s.atSlot t (.callx g a) → t.clean g false [a] →
      (inActive t g fun k => (t.rd32 a k).toNat % 4 = 0 ∧ (t.rd32 a k).toNat < t.span ∧ levelOf t k < t.depth) → ∃ u,
      exec (.callx g a) s = .next (s.finishSlot u) ∧ pushed t u (.callx g a) (BitVec.ofNat 32 (nextHeader t)) ∧
      jumped t u (.callx g a) fun k => t.rd32 a k) ∧
    (s.atSlot t (.exit g) → s.inHandler = false → ∃ u,
      exec (.exit g) s = .next (s.finishSlot u) ∧ u.ret = t.ret ∧ u.level = t.level ∧
      (∀ k < 32, bit u.live k = (bit t.live k && !bit (t.active g) k)) ∧
      jumped t u (.exit g) fun _ => 0xFFFFFFFC#32)

/-- R132, R133, R368, R370: the traps of control transfers, in the active lanes: call depth 0x20, return at level 0
0x21, a register target unaligned or outside the code span 0x07, before the depth, EXIT inside a lantern handler 0x51
and LNRET outside one 0x50. -/
def Sys2Proof.Claims.ControlTraps : Prop :=
  ∀ (g : Guard) (a : Opnd) (disp : BitVec 21) (s : State) (t : Thread),
    (s.atSlot t (.call g disp) → (¬ inActive t g fun k => levelOf t k < t.depth) →
      exec (.call g disp) s = .next (s.trapCur 0x20 (t.active g) 0 0)) ∧
    (s.atSlot t (.ret g) → (¬ inActive t g fun k => levelOf t k ≠ 0) →
      exec (.ret g) s = .next (s.trapCur 0x21 (t.active g) 0 0)) ∧
    (s.atSlot t (.brx g a) → t.clean g false [a] →
      (¬ inActive t g fun k => (t.rd32 a k).toNat % 4 = 0 ∧ (t.rd32 a k).toNat < t.span) →
      exec (.brx g a) s = .next (s.trapCur 0x07 (t.active g) 0 0)) ∧
    (s.atSlot t (.callx g a) → t.clean g false [a] →
      ((¬ inActive t g fun k => (t.rd32 a k).toNat % 4 = 0 ∧ (t.rd32 a k).toNat < t.span) →
        exec (.callx g a) s = .next (s.trapCur 0x07 (t.active g) 0 0)) ∧
      ((inActive t g fun k => (t.rd32 a k).toNat % 4 = 0 ∧ (t.rd32 a k).toNat < t.span) →
        (¬ inActive t g fun k => levelOf t k < t.depth) →
        exec (.callx g a) s = .next (s.trapCur 0x20 (t.active g) 0 0))) ∧
    (s.atSlot t (.exit g) → s.inHandler = true → t.active g ≠ 0 →
      exec (.exit g) s = .next (s.trapCur 0x51 (t.active g) 0 0)) ∧
    (∀ core rslot r, s.executes core rslot r → r.lantern.inHandler = false → r.th.active g ≠ 0 →
      exec (.lnret g) s = .next (s.trapCur 0x50 (r.th.active g) 0 0))

/-- R135, R370: YIELD changes no register but the program counter and, with an active lane, records the ready rays of
its quarter pipe that go first; LNRET in a handler restores what delivery saved, with bits [1:0] of a program counter read as 0 (log entry 43), and leaves the
handler. -/
def Sys2Proof.Claims.YieldAndReturn : Prop :=
  ∀ (g : Guard) (s : State) (core rslot : Nat) (r : Ray), s.executes core rslot r →
    (r.th.active g = 0 →
      exec (.yield g) s = .next (s.finishSlot (r.th.past (.yield g))) ∧
      exec (.lnret g) s = .next (s.finishSlot (r.th.past (.lnret g)))) ∧
    (r.th.active g ≠ 0 → ∃ r1 ks,
      let s1 := s.finishSlot (r.th.past (.yield g))
      s1.ray core rslot = some r1 ∧
      (∀ k, k ∈ ks ↔ ∃ q, (k, q) ∈ (s1.core core).rays ∧ k ≠ rslot ∧ q.pipe = r1.pipe ∧ s1.rayReady core k = true) ∧
      exec (.yield g) s = .next (s1.setRay core rslot { r1 with yieldTo := ks, yieldAt := s1.clock })) ∧
    (r.th.active g ≠ 0 → r.lantern.inHandler = true →
      exec (.lnret g) s =
        .next ((s.setRay core rslot { r with lantern := { r.lantern with inHandler := false } }).finishSlot
          { r.th.past (.lnret g) with
            vpc := laneTab fun k => if bit r.lantern.live k then laneGet r.lantern.vpc 0 k &&& 0xFFFFFFFC#32 else 0xFFFFFFFC#32
            p := r.lantern.p
            live := r.lantern.live
            level := r.lantern.level }))

/-- R32, R137, R138, R264: MFS writes the special register's value with its mark clear: %flags and %laneid of the
lane itself, the threshold registers, the selected bank's status and every other register alike in all lanes. That %lnmask and %lnpend
read 0 without a lantern table is log entry 83. -/
def Sys2Proof.Claims.MfsResults : Prop :=
  ∀ (g : Guard) (d : Opnd) (n : BitVec 7) (s : State) (core rslot : Nat) (r : Ray) (b : Beam) (c : Ctx) (x : DWord),
    s.executes core rslot r → s.beam r.l r.pos = some b → SMap.get? s.ctxs (s.ctxOf r.l) = some c →
    s.atSlot r.th (.mfs g d n) →
    ((n, x) ∈ sharedSpecials s core r b c →
      exec (.mfs g d n) s = .next (s.wrote r.th (.mfs g d n) d
        (decide (n ∈ [0x09#7, 0x0C#7, 0x0D#7, 0x0E#7, 0x20#7, 0x21#7])) fun _ => x)) ∧
    (n = 0x01#7 → exec (.mfs g d n) s =
      .next (s.wrote r.th (.mfs g d n) d false fun k => BitVec.ofNat 64 (laneGet r.th.flags 0 k).toNat)) ∧
    (n = 0x03#7 → exec (.mfs g d n) s = .next (s.wrote r.th (.mfs g d n) d false fun k => BitVec.ofNat 64 k)) ∧
    (∀ j : Nat, j < 16 → n = BitVec.ofNat 7 (16 + j) →
      exec (.mfs g d n) s = .next (s.wrote r.th (.mfs g d n) d false fun _ => zext64 (laneGet b.h 0 j))) ∧
    (n = 0x28#7 → exec (.mfs g d n) s = .next (s.wrote r.th (.mfs g d n) d true fun _ =>
      BitVec.ofNat 64 (bankWord r.bankSel ((s.cluster (core / 4)).bank r.bankSel))))

/-- R29 to R31, R43, R139, R263: MTS writes %flags lane by lane, and of any other register the lowest active lane's
value once: %fmode, a threshold register as its clause ends (where a higher %rayid has not written it in the same clock), %lnmask of a context with a lantern table unless a ray of a higher
%coreid or %rayid has written it in the same clock, the bank %bankmode selects; with no active lane it writes nothing; a reserved rounding mode traps with cause 0x08.
That a write of %lnmask without a lantern table is ignored is log entry 83. -/
def Sys2Proof.Claims.MtsResults : Prop :=
  ∀ (g : Guard) (n : BitVec 7) (b : Opnd) (s : State) (core rslot : Nat) (r : Ray),
    s.executes core rslot r → s.atSlot r.th (.mts g n b) →
    r.th.clean g (decide (n ∈ [0x20#7, 0x28#7])) [b] →
    let i : Instr := .mts g n b
    let go (u : State) (r' : Ray) : Host.Outcome State Fault Refusal :=
      .next ((u.setRay core rslot r').finishSlot (r'.th.past i))
    (r.th.active g = 0 → exec i s = .next (s.finishSlot (r.th.past i))) ∧
    ∀ k0, lowest (r.th.active g) = some k0 →
      (n = 0x01#7 → exec i s = go s { r with th := { r.th with
        flags := laneTab fun k => if bit (r.th.active g) k then BitVec.ofNat 6 (r.th.rd32 b k).toNat else laneGet r.th.flags 0 k } }) ∧
      (n = 0x02#7 → bits (r.th.rd32 b k0) 2 0 ≤ 4 →
        exec i s = go s { r with th := { r.th with fmode := BitVec.ofNat 32 (bits (r.th.rd32 b k0) 6 0) } }) ∧
      (n = 0x02#7 → 4 < bits (r.th.rd32 b k0) 2 0 → exec i s = .next (s.trapCur 0x08 (r.th.active g) 0 0)) ∧
      (∀ j : Nat, j < 16 → n = BitVec.ofNat 7 (16 + j) → ∀ c, r.th.clause = some c →
        exec i s = go s { r with th := { r.th with clause := some { c with hset := SMap.put c.hset j (r.th.rd32 b k0) } } }) ∧
      (n = 0x20#7 → exec i s = .next ((s.updCtx (s.ctxOf r.l) fun c =>
        if c.lntab = 0 ∨ laterThan c.maskAt (s.clock, core, r.rayId) then c
        else { c with lnmask := r.th.rd64 false b k0, maskAt := (s.clock, core, r.rayId) }).finishSlot (r.th.past i))) ∧
      (n = 0x28#7 → bits (r.th.rd64 false b k0) 63 62 = 0 →
        exec i s = go s { r with bankSel := bits (r.th.rd64 false b k0) 5 0 }) ∧
      ∀ (j : Nat) (x : Word) (c : Clause) (m : Beam), r.th.clause = some c → c.hset = [(j, x)] → s.beam r.l r.pos = some m → j < m.h.length →
        let u := s.endClause core rslot
        ∃ m' r', u.beam r.l r.pos = some m' ∧ u.ray core rslot = some r' ∧ r'.th = { r.th with clause := none } ∧
          ((∀ q, SMap.get? m.hAt j = some (s.clock, q) → q ≤ r.rayId) → m'.h.getD j 0 = x) ∧
          ((∃ q, SMap.get? m.hAt j = some (s.clock, q) ∧ r.rayId < q) → m'.h.getD j 0 = m.h.getD j 0) ∧
          ∀ k, k ≠ j → m'.h.getD k 0 = m.h.getD k 0

namespace Sys2Proof.Claims

/-- ERR of a SWITCH of some banks to a mode for a context (R265): 0x10 where a bank holds windows, 0x11 where fewer than 8 banks would
be left in CACHE mode, counting a bank under a switch as of the mode it goes to, 0x12 where a bank in another mode than CACHE is not
the context's, 0x13 where a bank is being switched, in this order (log entry 15). -/
def errOfSwitch (c : Cluster) (ctx : Nat) (bs : List Nat) (m : BankMode) (err : Nat) : Prop :=
  let modeOf (j : Nat) : BankMode := match c.switches.find? fun w => w.banks.contains j with | some w => w.mode | none => (c.bank j).mode
  let left := ((List.range 64).filter fun j => (if j ∈ bs then m else modeOf j) = .cache).length
  let win := ∃ j ∈ bs, (c.bank j).win = true
  let foreign := ∃ j ∈ bs, (c.bank j).mode ≠ .cache ∧ (c.bank j).owner ≠ some ctx
  let busy := ∃ j ∈ bs, (c.bank j).sw = true
  (err = 0x10 ∧ win) ∨ (err = 0x11 ∧ ¬ win ∧ left < 8) ∨ (err = 0x12 ∧ ¬ win ∧ 8 ≤ left ∧ foreign) ∨
  (err = 0x13 ∧ ¬ win ∧ 8 ≤ left ∧ ¬ foreign ∧ busy) ∨ (err = 0 ∧ ¬ win ∧ 8 ≤ left ∧ ¬ foreign ∧ ¬ busy)

/-- What a legal SWITCH command x of a ray does at once (R265): with ERR 0 and banks to change, the token becomes pending
and reads 0, those banks' SW bits are set and the switch is queued; otherwise the token takes DONE and ERR. -/
def switchEffect (s : State) (core rslot : Nat) (r : Ray) (x : DWord) (u : State) (r' : Ray) : Prop :=
  let tok := bits x 44 40
  let bs := (List.range (bits x 13 8 + 1)).map fun j => bits x 5 0 + j
  let mode : BankMode := if bits x 33 32 = 0 then .cache else if bits x 33 32 = 1 then .scratch else .fifo
  let c := s.cluster (core / 4)
  let todo := bs.filter fun j => (c.bank j).mode != mode
  ∃ err, errOfSwitch c (s.ctxOf r.l) bs mode err ∧
  if err ≠ 0 ∨ todo = [] then
    r' = { r with th := { r.th with s := SMap.put r.th.s tok (BitVec.ofNat 64 (2 ^ 63 + err * 2 ^ 48)) } } ∧
    u = s.setRay core rslot r'
  else
    r' = { r with th := { r.th with s := SMap.put r.th.s tok 0 }, pend := tok :: r.pend } ∧
    ∃ c', u = (s.setRay core rslot r').setCluster (core / 4) c' ∧
      c'.switches = c.switches ++ [⟨core, rslot, r.l, r.pos, some tok, mode, some (s.ctxOf r.l), false, todo⟩] ∧
      (∀ j, c'.bank j = if j ∈ todo then { c.bank j with sw := true } else c.bank j) ∧
      { c' with switches := [], banks := [] } = { c with switches := [], banks := [] }

/-- A SWITCH command that R263 allows, and one that it refuses. -/
def switchLegal (x : DWord) : Prop := bits x 63 62 = 1 ∧ bits x 33 32 ≠ 3 ∧ bits x 44 40 ≤ 23 ∧ bits x 5 0 + bits x 13 8 ≤ 63
def switchIllegal (x : DWord) : Prop :=
  2 ≤ bits x 63 62 ∨ (bits x 63 62 = 1 ∧ (bits x 33 32 = 3 ∨ 23 < bits x 44 40 ∨ 63 < bits x 5 0 + bits x 13 8))

end Sys2Proof.Claims

/-- R263, R265: a command written to %bankmode by MTS, or the SELECT and SWITCH rows: SELECT sets the ray's bank
selector; a legal SWITCH whose token is not pending is accepted or refused for all its banks together, by the conditions of a switch (R265); an
illegal one traps with cause 0x35. The order among the conditions, and that a switch with nothing to change ends at once with ERR 0,
are log entry 15. -/
def Sys2Proof.Claims.BankSwitchIssue : Prop :=
  ∀ (g : Guard) (b : Opnd) (x : DWord) (s : State) (core rslot : Nat) (r : Ray), s.executes core rslot r →
    (bits x 63 62 = 0 → exec (.bankmodeSelect x) s = .next (s.setRay core rslot { r with bankSel := bits x 5 0 })) ∧
    (switchLegal x → r.pend.contains (bits x 44 40) = false → ∃ u r', switchEffect s core rslot r x u r' ∧
      exec (.bankmodeSwitch x) s = .next u ∧
      (s.atSlot r.th (.mts g 0x28#7 b) → r.th.clean g true [b] →
        ∀ k0, lowest (r.th.active g) = some k0 → r.th.rd64 false b k0 = x →
        exec (.mts g 0x28#7 b) s = .next (u.finishSlot (r'.th.past (.mts g 0x28#7 b))))) ∧
    (switchIllegal x → s.atSlot r.th (.mts g 0x28#7 b) → r.th.clean g true [b] →
      ∀ k0, lowest (r.th.active g) = some k0 → r.th.rd64 false b k0 = x →
      exec (.mts g 0x28#7 b) s = .next (s.trapCur 0x35 (r.th.active g) 0 0))

/-! ### Traps and system instructions (R365, R369, R379, R380, R387, R389) -/

namespace Sys2Proof.Claims

/-- The fields of an event record of KIND 1 (R380). -/
def trapEvent (e : BitVec 256) (ctx rslot : Nat) (r : Ray) (t : TrapInfo) : Prop :=
  bits e 15 0 = t.info % 2 ^ 16 ∧ bits e 23 16 = t.cause % 2 ^ 8 ∧ bits e 27 24 = t.slot % 2 ^ 4 ∧ bits e 31 28 = 1 ∧
  bits e 39 32 = 0 ∧ bits e 40 40 = 0 ∧ bits e 42 41 = r.role % 4 ∧ bits e 47 43 = r.rayId % 32 ∧ bits e 53 48 = rslot % 64 ∧
  bits e 63 54 = ctx % 1024 ∧ bits e 95 64 = t.pc % 2 ^ 32 ∧ bits e 127 96 = t.lanes.toNat ∧ bits e 255 128 = t.detail % 2 ^ 128

/-- A core but for its rays, its quarter pipes and its events. -/
def coreRest (c : Core) : Core := { c with rays := [], pipes := [], events := [], late := [] }

/-- A source of an event (R380): the core's translation fault, its sequencer, a record slot whose ray has ended, or a ray. -/
def sourceOf (e : BitVec 256) (x : Nat × Nat) : Prop :=
  if bits e 31 28 = 5 ∨ bits e 31 28 = 6 then x = (bits e 31 28, 0)
  else if bit e 40 = true ∧ (bits e 31 28 = 2 ∨ bits e 31 28 = 3) then ∃ k < 16, bit e k = true ∧ x = (1, k)
  else x = (0, bits e 53 48)

/-- A core's event queue has taken an event; one of whose sources an event is undelivered waits for that to be discarded (R380;
the wait is the model's, log entry 102). -/
def eventRaised (c c' : Core) (e : BitVec 256) : Prop :=
  ((∀ x ∈ c.events, ¬ ∃ q, sourceOf x q ∧ sourceOf e q) → c'.events = c.events ++ [e] ∧ c'.late = c.late) ∧
  ((∃ x ∈ c.events, ∃ q, sourceOf x q ∧ sourceOf e q) → c'.events = c.events ∧ c'.late = c.late ++ [e])

end Sys2Proof.Claims

/-- R185, R209, R379, R380: taking a precise trap parks the ray at the trapping point with its registers, its vpc, its held
clause and its latches unchanged, loses its reservations, raises one event of KIND 1 with the context, resident slot,
%rayid, role, SLOT, CAUSE, PC, LANES, DETAIL and INFO, gives back the places of the fork queue that its clause took, and changes no
other ray and nothing else of the machine. -/
def Sys2Proof.Claims.PreciseTrap : Prop :=
  ∀ (s : State) (core rslot : Nat) (r : Ray) (why : ParkReason) (t : TrapInfo), s.ray core rslot = some r →
    let u := s.takeTrap core rslot why t
    (∃ r', u.ray core rslot = some r' ∧ r' = { r with parked := some why, resv := [], stall := none, unresolved := [] } ∧
      r'.th = r.th) ∧
    (∃ e, eventRaised (s.core core) (u.core core) e ∧ trapEvent e (s.ctxOf r.l) rslot r t) ∧
    (∀ k, k ≠ rslot → u.ray core k = s.ray core k) ∧ coreRest (u.core core) = coreRest (s.core core) ∧
    (∀ j, j ≠ core → u.core j = s.core j) ∧ { u with cores := [], clusters := [] } = { s with cores := [], clusters := [] } ∧
    ∀ cl, u.cluster cl = if cl = core / 4 then
      { s.cluster cl with places := (s.cluster cl).places.filter fun p => !(p.1 == core && p.2 == rslot) } else s.cluster cl

/-- R27, R91, R379: a run-time trap of the ray that executes is a precise trap whose PC is the offset of the trapping
instruction's word and whose SLOT is its slot in the clause; a trap of a stream ends the stream with a STATUS. -/
def Sys2Proof.Claims.RunTimeTrap : Prop :=
  ∀ (s : State) (cause detail info : Nat) (lanes : Mask),
    (∀ core rslot r c, s.executes core rslot r → r.th.clause = some c →
      s.trapCur cause lanes detail info =
        s.takeTrap core rslot .runTrap ⟨cause, c.next + 1, c.hdr + 4 * (c.next + 1), lanes, detail, info⟩) ∧
    (∀ cl x c, s.cur = .stream cl → (s.cluster cl).stream = some x → x.th.clause = some c →
      ∃ y, (s.trapCur cause lanes detail info).cluster cl = { s.cluster cl with stream := some y } ∧
        y = { x with state := .ended, status := (if cause = 0x20 ∨ cause = 0x21 then 0x43 else cause), failPc := c.hdr + 4 * (c.next + 1) } ∧
        { s.trapCur cause lanes detail info with clusters := [] } = { s with clusters := [] })

/-- R389: BKPT and TRET with an active lane raise the precise traps with causes 0x60, INFO n, and 0x62; SVCALL passes
its slot and is then parked with cause 0x61, INFO n and its own PC; TERM ends the ray or its beam with RESULT 2; with
no active lane each only passes. -/
def Sys2Proof.Claims.SystemResults : Prop :=
  ∀ (g : Guard) (n : BitVec 16) (s : State) (core rslot : Nat) (r : Ray) (c : Clause),
    s.executes core rslot r → r.th.clause = some c →
    (r.th.active g = 0 → ∀ i ∈ [Instr.bkpt g n, .svcall g n, .tret g, .termRay g, .termBeam g],
      exec i s = .next (s.finishSlot (r.th.past i))) ∧
    (r.th.active g ≠ 0 →
      exec (.bkpt g n) s = .next (s.trapCur 0x60 (r.th.active g) 0 n.toNat) ∧
      exec (.tret g) s = .next (s.trapCur 0x62 (r.th.active g) 0 0) ∧
      exec (.svcall g n) s = .next ((s.finishSlot (r.th.past (.svcall g n))).takeTrap core rslot .svcall
        ⟨0x61, c.next + 1, c.hdr + 4 * (c.next + 1), r.th.active g, 0, n.toNat⟩) ∧
      exec (.termRay g) s = .next ((s.finishSlot (r.th.past (.termRay g))).killRay core rslot) ∧
      exec (.termBeam g) s = .next ((s.finishSlot (r.th.past (.termBeam g))).termBeam r.l r.pos 2))

/-- R185, R387: terminating a ray ends every lane, which then reads 0xFFFFFFFC, loses its reservations, drops its
clause and leaves a lantern handler; its issued operations and every other ray stay. A beam terminated while it is resident, or
saved, has RESULT 2, or 3 whenever it was aborted (where both happen, 3: the model's reading, log entry 38); its rays end, and
no save or flush of it is under way. -/
def Sys2Proof.Claims.Termination : Prop :=
  (∀ (s : State) (core rslot : Nat) (r : Ray), s.ray core rslot = some r → r.dueStore = [] → r.dueWb = [] →
    ∃ r', (s.killRay core rslot).ray core rslot = some r' ∧ r'.th.live = 0 ∧ (∀ k < 32, r'.th.pcOf k = 0xFFFFFFFC#32) ∧
      r'.resv = [] ∧ r'.th.clause = none ∧ r'.parked = none ∧ r'.lantern.inHandler = false ∧ r'.th.v = r.th.v ∧
      ((s.killRay core rslot).core core).ops = (s.core core).ops ∧
      (∀ k, k ≠ rslot → (s.killRay core rslot).ray core k = s.ray core k) ∧
      (∀ j, j ≠ core → (s.killRay core rslot).core j = s.core j)) ∧
  (∀ (s : State) (l pos result : Nat) (b : Beam), s.beam l pos = some b →
    ∃ b', (s.termBeam l pos result).beam l pos = some b' ∧ b'.result = max b.result result ∧ b'.choice = none ∧
      ∀ k ∈ b.rays, ∀ r, (s.termBeam l pos result).ray b.core k = some r → r.th.live = 0) ∧
  (∀ (s : State) (l pos result : Nat) (v : Saved), s.beam l pos = none → SMap.get? s.saved (beamKey l pos) = some v →
    ∃ v', SMap.get? (s.termBeam l pos result).saved (beamKey l pos) = some v' ∧ v'.beam.result = max v.beam.result result ∧
      v'.replay = [] ∧ ∀ r ∈ v'.rays, r.th.live = 0)

/-- R26, R364, R365: LNSEND with an active lane whose descriptor has no reserved bit set sends once, with the operands of
the lowest active lane, and waits; its slot ends once the status has come, which is written to d; a reserved bit traps
with cause 0x35; with no active lane nothing is sent, and the latch takes d as it is (R26). -/
def Sys2Proof.Claims.LanternSend : Prop :=
  ∀ (g : Guard) (d a b : Opnd) (s : State) (core rslot : Nat) (r : Ray),
    s.executes core rslot r → s.atSlot r.th (.lnsend g d a b) →
    (r.th.active g = 0 → exec (.lnsend g d a b) s = .next (s.finishSlot ((r.th.deliver d false 0 (fun _ => 0) fun _ => false).advance 2))) ∧
    ∀ k0, lowest (r.th.active g) = some k0 →
      (∀ st, r.stall = some (.answered st) →
        exec (.lnsend g d a b) s = .next (s.finishSlot
          ((r.th.deliver d false (r.th.active g) (fun _ => BitVec.ofNat 64 st) fun _ => false).advance 2))) ∧
      (r.stall = none → r.th.clean g true [a, b] →
        (bits (r.th.rd64 false a k0) 63 37 ≠ 0 → exec (.lnsend g d a b) s = .next (s.trapCur 0x35 (r.th.active g) 0 0)) ∧
        (bits (r.th.rd64 false a k0) 63 37 = 0 → ∃ u, exec (.lnsend g d a b) s = .next u ∧
          u = { s.setRay core rslot { r with stall := some .lnsend } with
            lnsends := s.lnsends ++ [⟨.ray (s.ctxOf r.l) core rslot, r.th.rd64 false a k0, r.th.rd64 false b k0⟩] }))

/-- R26, R369: LNCLR of a vector up to 63 gives s(d) its payload if it is pending, s(d + 1) its pending bit, number and
count, and clears them; a greater number traps with cause 0x35; with no active lane no register changes, and the latch takes s(d) (R26). -/
def Sys2Proof.Claims.LanternClear : Prop :=
  ∀ (g : Guard) (n : Fin 24) (a : Opnd) (s : State) (core rslot : Nat) (r : Ray) (c : Ctx),
    let i : Instr := .lnclr g (.s n) a
    s.executes core rslot r → s.atSlot r.th i → r.pend.contains n.val = false → r.pend.contains (n.val + 1) = false →
    SMap.get? s.ctxs (s.ctxOf r.l) = some c →
    (r.th.active g = 0 → exec i s = .next (s.finishSlot ((r.th.deliver (.s n) true 0 (fun _ => 0) fun _ => false).advance 2))) ∧
    ∀ k0, lowest (r.th.active g) = some k0 → r.th.clean g false [a] →
      let v := (r.th.rd32 a k0).toNat
      (63 < v → exec i s = .next (s.trapCur 0x35 (r.th.active g) 0 0)) ∧
      (v ≤ 63 → ∃ (u : State) (t : Thread), exec i s = .next (u.finishSlot (t.advance 2)) ∧
        u = s.updCtx (s.ctxOf r.l) (fun c =>
          { c with lnpend := c.lnpend &&& ~~~(BitVec.ofNat 64 (2 ^ v)), vecs := SMap.del c.vecs v }) ∧
        SMap.get t.s 0 n.val = (if bit c.lnpend v then (SMap.get c.vecs ⟨0, 0, false⟩ v).payload else 0) ∧
        SMap.get t.s 0 (n.val + 1) =
          BitVec.ofNat 64 ((bit c.lnpend v).toNat * 2 ^ 63 + v * 2 ^ 8 + (SMap.get c.vecs ⟨0, 0, false⟩ v).count % 256) ∧
        (∀ q, q ≠ n.val → q ≠ n.val + 1 → SMap.get t.s 0 q = SMap.get r.th.s 0 q) ∧
        { t with s := [], latches := [] } = { r.th with s := [], latches := [] })

/-! ### Memory instructions (R24, R162 to R190) -/

namespace Sys2Proof.Claims

/-- The bytes of an access of a TYPE code (R170). -/
def accessSize (ty : Nat) : Nat := [1, 1, 2, 2, 4, 8, 16].getD ty 16

/-- A memory-format instruction: what its issue checks and captures (R164 to R167). -/
structure MemRow where
  i : Instr
  size : Nat
  ofs : MemOfs
  scratch : Bool
  fifo : Bool
  /-- its page must be writable -/
  writes : Bool
  /-- a store: it needs a free record slot, and a page that is not writable fails its check later (R173, R381) -/
  store : Bool
  /-- operands read as a non-linear instruction reads them, with their widths -/
  marks : List (Opnd × Bool)
  kind : OpKind
  data : Thread → Nat → BitVec 128

/-- A source of 4 or 8 bytes as a number. -/
def srcNum (t : Thread) (wide : Bool) (o : Opnd) (k : Nat) : Nat := if wide then (t.rd64 false o k).toNat else (t.rd32 o k).toNat

/-- The data of a store of a TYPE code: a word, a pair, or a group of four registers (R170, R171). -/
def storeBits (d : Opnd) (ty : Nat) (t : Thread) (k : Nat) : BitVec 128 :=
  match d, ty with
  | .v n, 6 => t.vreg (n + 3) k ++ t.vreg (n + 2) k ++ t.vreg (n + 1) k ++ t.vreg n k
  | _, 5 | _, 6 => (t.rd64 false d k).setWidth 128
  | _, _ => (t.rd32 d k).setWidth 128

/-- The loads, stores, atomics and reservations (R169, R170, R175, R176, R182 to R184), and SPAWN, whose operand is a
packet's global address (R206); fz is FZ32 as an atomic captures it. -/
def memRows (g : Guard) (d a : Opnd) (dc : BitVec 3) (ofs : MemOfs) (c : Opnd) (cp : BitVec 2) (ty scope aty : BitVec 3)
    (op : BitVec 4) (w fz : Bool) : List MemRow :=
  let ld (i : Instr) (ty cp : Nat) (ro : Bool) : MemRow :=
    ⟨i, accessSize ty, ofs, !ro, !ro && (ty == 4 || ty == 5), false, false, [(a, true)], .load ro ty cp, fun _ _ => 0⟩
  let st (i : Instr) (ty cp : Nat) (nt : Bool) : MemRow :=
    ⟨i, accessSize ty, ofs, !nt, !nt && (ty == 4 || ty == 5), true, true, [(a, true)], .store nt ty cp, storeBits d ty⟩
  let aw := aty == 2 || aty == 3
  [ld (.ldZ32 g d a dc ofs) 4 0 false, ld (.ldZ64 g d a dc ofs) 5 0 false, ld (.ldroZ32 g d a dc ofs) 4 0 true,
   ld (.ldroZ64 g d a dc ofs) 5 0 true, ld (.ldType g d a dc ofs cp ty) ty.toNat cp.toNat false,
   st (.stZ32 g d a dc ofs) 4 0 false, st (.stZ64 g d a dc ofs) 5 0 false, st (.stntZ32 g d a dc ofs) 4 0 true,
   st (.stntZ64 g d a dc ofs) 5 0 true, st (.stType g d a dc ofs cp ty) ty.toNat cp.toNat false,
   ⟨.atom g d a dc ofs c scope aty op, if aw then 8 else 4, ofs, true, false, true, false,
     [(a, true), (c, aw)] ++ (if op = 7 then [(d, aw)] else []), .atom scope.toNat aty.toNat op.toNat fz,
     fun t k => BitVec.ofNat 128 (srcNum t aw c k + srcNum t aw d k * 2 ^ 64)⟩,
   ⟨.ldres g d a dc ofs w, if w then 8 else 4, ofs, true, false, false, false, [(a, true)], .ldres w, fun _ _ => 0⟩,
   ⟨.stcon g d a dc ofs c w, if w then 8 else 4, ofs, true, false, true, true, [(a, true)], .stcon w,
     fun t k => BitVec.ofNat 128 (srcNum t w c k)⟩,
   ⟨.spawn g d a dc, 64, .scaled 0, false, false, false, false, [(a, true)], .spawn [] [], fun _ _ => 0⟩]

/-- The effective address: the 64-bit register plus the offset, scaled by the access size or a signed literal (R100, R164). -/
def effective (t : Thread) (a : Opnd) (ofs : MemOfs) (size k : Nat) : DWord :=
  t.rd64 false a k + match ofs with
    | .scaled n => BitVec.ofNat 64 (n * size)
    | .lit x => BitVec.signExtend 64 x

/-- The space of an address is one the instruction may use, and its bits are legal there (R163, R165, R269). -/
def spaceOk (s : State) (core : Nat) (r : Ray) (scratch fifo : Bool) (x : DWord) : Prop :=
  bits x 63 56 = 0 ∨ (bits x 63 56 = 1 ∧ scratch = true ∧ bits x 55 23 = 0) ∨
  (bits x 63 56 = 2 ∧ fifo = true ∧ bits x 55 6 = 0 ∧
    let b := (s.cluster (core / 4)).bank (bits x 5 0)
    b.mode = .fifo ∧ b.owner = some (s.ctxOf r.l) ∧ b.sw = false)

/-- The address is aligned to its size; a FIFO address names a bank alone. -/
def alignOk (size : Nat) (x : DWord) : Prop := bits x 63 56 = 2 ∨ bits x 55 0 % size = 0

/-- A scratchpad access lies in reach (R163). -/
def reachOk (s : State) (r : Ray) (size : Nat) (x : DWord) : Prop :=
  bits x 63 56 = 1 → s.inReach r.l r.pos (bits x 22 0) size = true

/-- Where an address that passes lies: its place, found in the core's TLB for global memory (R172, R273, R281). -/
def placeIs (s : State) (core : Nat) (r : Ray) (size : Nat) (writes : Bool) (x : DWord) (p : Place) : Prop :=
  (bits x 63 56 = 1 ∧ p = .scratch (bits x 22 0)) ∨ (bits x 63 56 = 2 ∧ p = .fifo (bits x 5 0)) ∨
  (bits x 63 56 = 0 ∧ ∃ e, (s.core core).tlbFind (s.ctxOf r.l) x.toNat = some e ∧ (writes = true → e.w = true) ∧
    p = .phys e.host (e.pa + (x.toNat - e.va)) e.nc ∧ (e.host = false → e.pa + (x.toNat - e.va) + size ≤ 384 * 2 ^ 30))

/-- The lanes of an instruction in which a condition fails. -/
def failing (t : Thread) (g : Guard) (f : Mask) (p : Nat → Prop) : Prop :=
  ∀ k < 32, bit f k = true ↔ bit (t.active g) k = true ∧ ¬ p k

end Sys2Proof.Claims

/-- R24, R162 to R167, R169 to R184: a memory-format instruction none of whose checks fails issues one operation that
captures its lanes' addresses, places and data, counts it, and passes; with no active lane the operation is empty. That a FIFO address is
free of alignment, and that a bank's owner and SW bit are part of the space check, is log entry 13; that an atomic takes FZ32 as it
issues is log entry 107. -/
def Obligations.MemoryIssue : Prop :=
  ∀ (g : Guard) (d a : Opnd) (dc : BitVec 3) (ofs : MemOfs) (c : Opnd) (cp : BitVec 2) (ty scope aty : BitVec 3)
    (op : BitVec 4) (w : Bool) (s : State) (core rslot : Nat) (r : Ray) (ps : Nat → Place),
    s.executes core rslot r → ty ≠ 7 → ∀ row ∈ memRows g d a dc ofs c cp ty scope aty op w (bit r.th.fmode 3), s.atSlot r.th row.i →
    (r.th.active g = 0 →
      exec row.i s = .next (s.issueOp core rslot r row.i (s.newOp core rslot r row.i (some dc.toNat) d 0 [] [] [] .empty))) ∧
    (r.th.active g ≠ 0 → (∀ m ∈ row.marks, r.th.clean g m.2 [m.1]) → (row.store = true → (s.core core).recs.length ≠ 16) →
      (inActive r.th g fun k =>
        let x := effective r.th a row.ofs row.size k
        spaceOk s core r row.scratch row.fifo x ∧ alignOk row.size x ∧ reachOk s r row.size x ∧
        placeIs s core r row.size row.writes x (ps k)) →
      exec row.i s = .next (s.issueOp core rslot r row.i
        (s.newOp core rslot r row.i (some dc.toNat) d (r.th.active g) (laneTab fun k => effective r.th a row.ofs row.size k)
          (laneTab fun k => if bit (r.th.active g) k then ps k else .off) (laneTab fun k => row.data r.th k) row.kind)))

/-- R163 to R165: the first check that fails in any active lane decides: the space and its bits with cause 0x33, then
the alignment with 0x31, then the scratchpad's reach with 0x32; the trap names the lanes that fail it and the address of
the lowest of them. That a FIFO address is free of alignment, and that a bank of another owner or being switched answers 0x33, is log
entry 13. -/
def Sys2Proof.Claims.MemoryChecks : Prop :=
  ∀ (g : Guard) (d a : Opnd) (dc : BitVec 3) (ofs : MemOfs) (c : Opnd) (cp : BitVec 2) (ty scope aty : BitVec 3)
    (op : BitVec 4) (w : Bool) (s : State) (core rslot : Nat) (r : Ray) (f : Mask) (k0 : Nat),
    s.executes core rslot r → ty ≠ 7 → ∀ row ∈ memRows g d a dc ofs c cp ty scope aty op w (bit r.th.fmode 3), s.atSlot r.th row.i →
    (∀ m ∈ row.marks, r.th.clean g m.2 [m.1]) → (row.store = true → (s.core core).recs.length ≠ 16) →
    lowest f = some k0 →
    let x (k : Nat) := effective r.th a row.ofs row.size k
    (failing r.th g f (fun k => spaceOk s core r row.scratch row.fifo (x k)) →
      exec row.i s = .next (s.trapCur 0x33 f (x k0).toNat 0)) ∧
    (failing r.th g f (fun k => alignOk row.size (x k)) →
      (inActive r.th g fun k => spaceOk s core r row.scratch row.fifo (x k)) →
      exec row.i s = .next (s.trapCur 0x31 f (x k0).toNat 0)) ∧
    (failing r.th g f (fun k => reachOk s r row.size (x k)) →
      (inActive r.th g fun k => spaceOk s core r row.scratch row.fifo (x k) ∧ alignOk row.size (x k)) →
      exec row.i s = .next (s.trapCur 0x32 f (x k0).toNat 0))

/-- R172, R272, R273: where the core's TLB does not hold a translation, the first miss in ascending order of the lanes' lines asks a
walker of the die for it and the slot stalls, once the other checks hold. -/
def Sys2Proof.Claims.TranslationMiss : Prop :=
  ∀ (g : Guard) (d a : Opnd) (dc : BitVec 3) (ofs : MemOfs) (c : Opnd) (cp : BitVec 2) (ty scope aty : BitVec 3)
    (op : BitVec 4) (w : Bool) (s : State) (core rslot : Nat) (r : Ray) (k0 : Nat),
    s.executes core rslot r → ty ≠ 7 → ∀ row ∈ memRows g d a dc ofs c cp ty scope aty op w (bit r.th.fmode 3), s.atSlot r.th row.i →
    (∀ m ∈ row.marks, r.th.clean g m.2 [m.1]) → (row.store = true → (s.core core).recs.length ≠ 16) →
    let x (k : Nat) := effective r.th a row.ofs row.size k
    (inActive r.th g fun k => bits (x k) 63 56 = 0 ∧ alignOk row.size (x k)) →
    let misses (k : Nat) : Prop := bit (r.th.active g) k = true ∧ (s.core core).tlbFind (s.ctxOf r.l) (x k).toNat = none
    k0 < 32 → misses k0 →
    (∀ k < 32, misses k → (x k0).toNat / 1024 < (x k).toNat / 1024 ∨ ((x k0).toNat / 1024 = (x k).toNat / 1024 ∧ k0 ≤ k)) →
    r.unresolved = [] →
    exec row.i s = .next { s.setRay core rslot { r with stall := some .walk } with
      walks := SMap.put s.walks (core / 4 / 36)
        (SMap.get s.walks [] (core / 4 / 36) ++ [⟨core, rslot, s.ctxOf r.l, (x k0).toNat, row.writes⟩]) }

/-- R24, R89, R167: issuing an operation appends it to the core's operations, adds 1 to the counter it names, and the
slot is over with a latch of 0; nothing is read or written in memory. -/
def Sys2Proof.Claims.IssueEffect : Prop :=
  ∀ (s : State) (core rslot : Nat) (r : Ray) (i : Instr) (o : Op) (n : Nat),
    s.executes core rslot r → o.dc = some n → n < r.dc.length → o.done = false → o.counted = false → o.isOver = false →
    (∀ p ∈ (s.core core).ops, p.done = false ∧ p.isOver = false) → r.th.clause ≠ none →
    let u := s.issueOp core rslot r i o
    (u.core core).ops = (s.core core).ops ++ [o] ∧
    (∃ r', u.ray core rslot = some r' ∧ (∀ m, r'.dc.getD m 0 = if m = n then r.dc.getD m 0 + 1 else r.dc.getD m 0) ∧
      { r'.th with clause := none } = { r.th.past i with clause := none }) ∧
    (∀ k, k ≠ rslot → u.ray core k = s.ray core k) ∧ (∀ j, j ≠ core → u.core j = s.core j) ∧
    u.hbm = s.hbm ∧ u.host = s.host ∧ u.clusters = s.clusters ∧ u.l2 = s.l2 ∧ (u.core core).l1 = (s.core core).l1

/-- R24: a core decrements a counter for an operation exactly when it is done and every older operation of its ray on
that counter is done as well. -/
def Sys2Proof.Claims.CountersInOrder : Prop :=
  ∀ (c : Core) (k : Nat) (o : Op) (n : Nat), c.ops[k]? = some o → o.dc = some n → o.counted = false → o.isOver = false →
    (∀ p ∈ c.ops, p.counted = true → p.done = true) →
    ((∃ p ∈ c.retire.ops, p = { o with counted := true }) ∨ o ∈ c.retire.ops) ∧
    (o.done = true → (∀ p ∈ c.ops.take k, p.rslot = o.rslot → p.dc = some n → p.done = true) →
      { o with counted := true } ∈ c.retire.ops) ∧
    (∀ rs r m, SMap.get? c.rays rs = some r → ∃ r', SMap.get? c.retire.rays rs = some r' ∧ r'.th = r.th ∧
      r'.dc.getD m 0 = r.dc.getD m 0 - ((List.range c.ops.length).countP fun j =>
        match c.ops[j]? with
        | some p => p.rslot == rs && p.dc == some m && !p.counted && p.done &&
            (c.ops.take j).all fun q => q.rslot != rs || q.dc != some m || q.done
        | none => false))

/-! ### Copies, tile references, barriers and synchronisation (R178 to R213, R282, R296) -/

namespace Sys2Proof.Claims

/-- A copy as it is issued: nothing accepted, read or done (R191, R282); one that names a bank that a switch holds will end with
ERR 0x01 (R266). -/
def freshCopy (kind : CopyKind) (tok : Nat) (tok2 : Option Nat) (record tile : DWord) (desc : List DWord) (scope : Nat)
    (acq rel : Bool) (switched : Bool) : Copy :=
  { kind := kind, tok := tok, tok2 := tok2, record := record, tile := tile, desc := desc, scope := scope, acq := acq
    rel := rel, accepted := false, lay := none, nch := 0, buf := [], err := if switched then 0x01 else 0, recv := [], done1 := [], done2 := [], ended1 := false
    ended2 := false }

/-- The bytes of tile that a box of a record's elements takes, in whole chunks of 512 (R195); 0 where the record cannot
be read. -/
def tileRoom (s : State) (core ctx : Nat) (record : DWord) (desc : List DWord) : Nat :=
  match s.layoutRaw core 2 ctx record.toNat with
  | some w => roundUp (boxBytes (nbits w 67 64) (descBox desc)) 512
  | none => 0

/-- A tile or buffer in scratchpad: its space and bits, alignment to 512, and its reach, unless a switch holds it (R195, R266). -/
def tileOk (s : State) (core : Nat) (r : Ray) (x : DWord) (n : Nat) : Prop :=
  bits x 63 56 = 1 ∧ bits x 55 23 = 0 ∧ bits x 22 0 % 512 = 0 ∧
  (s.inReach r.l r.pos (bits x 22 0) n = true ∨ s.switching (core / 4) (bits x 22 0) n = true)

/-- A copy instruction: the registers it needs besides its operands, the operands read without marks, its checks at
issue and the copy it starts, both from A's value and the operands of the lowest active lane. -/
structure CopyRow where
  i : Instr
  regs : List Nat
  marks : List Opnd
  ok : DWord → Prop
  copy : DWord → Copy

/-- The copies (R194, R198, R199), for a ray of a core and the lowest active lane. -/
def copyRows (g : Guard) (n m : Fin 24) (a c : Opnd) (dc : BitVec 3) (acq rel : Bool) (scope rb : BitVec 3) (t2 : BitVec 5)
    (s : State) (core : Nat) (r : Ray) (k0 : Nat) : List CopyRow :=
  let desc (k : Nat) : List DWord := (List.range k).map fun j => SMap.get r.th.s 0 (m.val + j)
  let group (k : Nat) : List Nat := (List.range k).map fun j => m.val + j
  let boxOk (k : Nat) (x : DWord) : Prop := bits x 63 56 = 0 ∧ x.toNat % 128 = 0 ∧
    tileOk s core r ((desc k).headD 0) (tileRoom s core (s.ctxOf r.l) x (desc k))
  let bufferOk (x : DWord) : Prop := (bits x 63 56 = 0 ∧ x.toNat % 512 = 0) ∨ tileOk s core r x 16384
  let boxSw (k : Nat) (x : DWord) : Bool :=
    s.switching (core / 4) (bits ((desc k).headD 0) 22 0) (tileRoom s core (s.ctxOf r.l) x (desc k))
  let bufferSw (x : DWord) : Bool := bits x 63 56 == 1 && s.switching (core / 4) (bits x 22 0) 16384
  let idx : DWord := r.th.rd64 false c k0
  let mcast (x : DWord) (sw : Bool) : Copy :=
    freshCopy (.mcast (bits ((desc 6).getD 5 0) 35 0) rb.toNat) n none x ((desc 6).headD 0) (desc 6) scope.toNat acq rel sw
  [⟨.xcopyIn g (.s n) a dc (.s m) acq rel scope, group 5, [a], boxOk 5, fun x =>
      freshCopy .xin n none x ((desc 5).headD 0) (desc 5) scope.toNat acq rel (boxSw 5 x)⟩,
   ⟨.xcopyOut g (.s n) a dc (.s m) acq scope t2, t2.toNat :: group 5, [a], boxOk 5, fun x =>
      freshCopy .xout n (some t2.toNat) x ((desc 5).headD 0) (desc 5) scope.toNat acq false (boxSw 5 x)⟩,
   ⟨.xmcast g (.s n) a dc (.s m) acq rel scope rb, group 6, [a], boxOk 6, fun x =>
      mcast x (boxSw 6 x || s.mcastSwitching core (mcast x false) (tileRoom s core (s.ctxOf r.l) x (desc 6)))⟩,
   ⟨.fread g (.s n) a dc c rel scope, [], [a, c], bufferOk, fun x => freshCopy .fread n none idx x [] scope.toNat false rel (bufferSw x)⟩,
   ⟨.fwrite g (.s n) a dc c t2, [t2.toNat], [a, c], bufferOk, fun x => freshCopy .fwrite n (some t2.toNat) idx x [] 1 false false (bufferSw x)⟩]

/-- WAITC's condition (R200). -/
def tokenMet (tok mask : DWord) : Prop :=
  BitVec.extractLsb' 0 48 (tok &&& mask) = BitVec.extractLsb' 0 48 mask ∨ (bits tok 63 63 = 1 ∧ bits tok 55 48 ≠ 0)

/-- A scratchpad reference whose space, address bits and alignment are legal (R163, R164, R178). -/
def refOk (x fields : DWord) (align : Nat) : Prop :=
  bits x 63 56 = 1 ∧ bits (x &&& ~~~fields) 55 23 = 0 ∧ bits x 22 0 % align = 0

/-- A ray's own earlier accesses to some scratchpad bytes have taken effect (R168). -/
def ownDone (s : State) (core rslot ofs n : Nat) : Prop := (s.core core).ownAccess rslot (0, ofs, n) = false

/-- The place of an operation that acts once: the lowest active lane's. -/
def onceAt (act : Mask) (p : Place) : List Place := laneTab fun k => if lowest act = some k then p else .off

/-- Approximation m of level k of Forward over samples x (R60). -/
def approxAt (x : Nat → Word) : Nat → Nat → Word
  | 0, m => x m
  | k + 1, m => BitVec.ofNat 32 (halfSum (f32val (approxAt x k (2 * m))) (f32val (approxAt x k (2 * m + 1))))

/-- Coefficients c are Forward of samples x over N positions and L levels: the last approximations, then at M to 2M - 1 the details of
the level with M positions (R60). -/
def forwardIs (N L : Nat) (x c : Nat → Word) : Prop :=
  (∀ p < N / 2 ^ L, c p = approxAt x L p) ∧ ∀ l < L, ∀ m < N / 2 ^ (l + 1),
    c (N / 2 ^ (l + 1) + m) = BitVec.ofNat 32 (halfSum (f32val (approxAt x l (2 * m))) (f32val (approxAt x l (2 * m + 1))).neg)

/-- Sample n of Inverse over coefficients c, after k of its levels, the first of which joins M approximations to M details (R60). -/
def inverseAt (M : Nat) (c : Nat → Word) : Nat → Nat → Word
  | 0, n => c n
  | k + 1, n =>
    let d := f32val (c (M * 2 ^ k + n / 2))
    BitVec.ofNat 32 (roundRne fmtF32 ((f32val (inverseAt M c k (n / 2))).add .rne (if n % 2 = 0 then d else d.neg)).1)

/-- A threshold drops a unit of 32 values: it is positive, and above every magnitude (R62). -/
def drops (thr : Word) (v : Nat → XVal) : Prop :=
  (f32val thr = .inf false ∨ ∃ n d, n ≠ 0 ∧ f32val thr = .fin false n d) ∧
  ∀ i < 32, ∃ s n d, v i = .fin s n d ∧ (XVal.fin false n d).lt (f32val thr) = true

/-- A head and data are the stored form of a tile of coefficients (R56, R57, R62): each rounded to the format, the units in ascending order
but for the detail units that the threshold drops. -/
def formed (hd : Head) (data : List Byte) (tag fmt nlog ch : Nat) (thr : Word) (coef : Nat → Nat → Word) : Prop :=
  let N := 2 ^ nlog
  let L := tag % 8
  let code (v i : Nat) : Nat := roundRne (tileFmt fmt) (f32val (coef (32 * (v / N) + i) (v % N)))
  let present := (List.range (N * ch)).filter fun v => hd.bitmap.testBit v
  hd.tag = tag ∧ hd.fmt = fmt ∧ hd.nlog = nlog ∧ hd.ch = ch ∧ hd.count = present.length ∧
  (∀ v, hd.bitmap.testBit v = true ↔ v < N * ch ∧
    (L = 0 ∨ v % N < N / 2 ^ L ∨ ¬ drops thr fun i => ((tileFmt fmt).decode false (code v i)).1)) ∧
  data = present.flatMap fun v => (List.range 32).flatMap fun i => leBytes (if fmt = 0 then 4 else 2) (code v i)

/-- A tag as the device writes it (R54). -/
def written (tag : Nat) : Nat := if tag % 8 = 0 then 0 else tag

/-- A released barrier counts from 0 in its next phase (R201). -/
def released (x : Bar) : Bar := if x.e ≤ x.count then ⟨x.e, 0, x.phase + 1⟩ else x

end Sys2Proof.Claims

/-- R20, R191, R194 to R199, R282: a copy instruction with no pending token among its registers, room among the 16
copies of its core, unmarked operands and checks that hold makes its tokens pending and 0, and issues a copy that waits
for acceptance; with no active lane it issues an empty operation and no token changes; with 16 copies it waits. (That the record is read at issue
for the size of its box is log entry 30; that a copy which names a bank under a switch is issued and carries ERR 0x01, log entry 82.) -/
def Sys2Proof.Claims.CopyIssue : Prop :=
  ∀ (g : Guard) (n m : Fin 24) (a c : Opnd) (dc : BitVec 3) (acq rel : Bool) (scope rb : BitVec 3) (t2 : BitVec 5)
    (s : State) (core rslot : Nat) (r : Ray) (k0 : Nat), s.executes core rslot r →
    ∀ row ∈ copyRows g n m a c dc acq rel scope rb t2 s core r k0, s.atSlot r.th row.i →
    (∀ q ∈ row.regs, r.pend.contains q = false) →
    (r.th.active g = 0 →
      exec row.i s = .next (s.issueOp core rslot r row.i (s.newOp core rslot r row.i (some dc.toNat) (.s n) 0 [] [] [] .empty))) ∧
    (lowest (r.th.active g) = some k0 →
      let x := r.th.rd64 false a k0
      let cp := row.copy x
      (s.copies core = 16 → exec row.i s = .next (s.setRay core rslot { r with stall := some .copyRoom })) ∧
      (s.copies core < 16 → r.th.clean g true row.marks → row.ok x → r.pend.contains n.val = false →
        exec row.i s = .next (s.issueOp core rslot
          { r with
            th := { r.th with s := (cp.tok :: cp.tok2.toList).foldl (fun v t => SMap.put v t 0) r.th.s }
            pend := r.pend ++ (cp.tok :: cp.tok2.toList) } row.i
          (s.newOp core rslot r row.i (some dc.toNat) (.s n) (r.th.active g) (laneTab fun _ => x) [] [] (.copy cp)))))

/-- R200: WAITC writes 1 in the lanes whose token has every masked chunk done or an error, else 0; with W it waits
while an active lane's condition is false. -/
def Sys2Proof.Claims.WaitcResults : Prop :=
  ∀ (g : Guard) (d a b : Opnd) (w : Bool) (s : State) (core rslot : Nat) (r : Ray), s.executes core rslot r →
    r.pendingAmong [d, b] = none → r.th.clean g true [a, b] →
    let met (k : Nat) : Prop := tokenMet (r.th.rd64 false a k) (r.th.rd64 false b k)
    ((w = true ∧ ¬ inActive r.th g met) → exec (.waitc g d a b w) s = .next (s.setRay core rslot { r with stall := some .waitc })) ∧
    ((w = false ∨ inActive r.th g met) → ∃ v : Nat → DWord, (∀ k < 32, (met k → v k = 1) ∧ (¬ met k → v k = 0)) ∧
      exec (.waitc g d a b w) s = .next (s.finishSlot
        ((r.th.deliver d false (r.th.active g) v fun _ => false).advance (Instr.waitc g d a b w).size)))

/-- R54 to R62, R163, R164, R168, R178 to R181: LDT and LDT.C whose head obeys the rules, with a unit of the tile, and STH whose
reference is a legal head over unmarked registers of the ray, issue one operation at the lowest active lane's
reference; STH forms the tile it will store as it issues, Forward of its lanes' registers. LDT's head is read as the ray's own earlier accesses leave it (log entry
69); the order of STH's checks is log entry 28. -/
def Sys2Proof.Claims.TileIssue : Prop :=
  ∀ (g : Guard) (d a : Opnd) (n : Fin 96) (dc : BitVec 3) (s : State) (core rslot : Nat) (r : Ray) (k0 : Nat),
    s.executes core rslot r → lowest (r.th.active g) = some k0 → r.th.clean g true [a] →
    let x := r.th.rd64 false a k0
    let o := bits x 22 0
    let issued (i : Instr) (d : Opnd) (kind : OpKind) : Host.Outcome State Fault Refusal :=
      .next (s.issueOp core rslot r i (s.newOp core rslot r i (some dc.toNat) d (r.th.active g) (laneTab fun _ => x)
        (onceAt (r.th.active g) (.scratch o)) [] kind))
    let seen := s.performOwn core rslot
    let hd := headOf ((seen.cluster (core / 4)).sram.readBytes o 128)
    (refOk x (BitVec.ofNat 64 (0x1FF * 2 ^ 32)) 128 → seen.inReach r.l r.pos o 128 = true →
      headBad hd.1 hd.2 = false → bits x 40 32 < hd.1.units →
      (s.atSlot r.th (.ldt g d a dc) →
        seen.inReach r.l r.pos (o + 128 + (hd.1.span false (bits x 40 32)).1) (hd.1.span false (bits x 40 32)).2 = true →
        exec (.ldt g d a dc) s = issued (.ldt g d a dc) d (.ldt false x)) ∧
      (s.atSlot r.th (.ldtC g d a dc) → hd.1.tag % 8 ≠ 0 →
        seen.inReach r.l r.pos (o + 128 + (hd.1.span true (bits x 40 32)).1) (hd.1.span true (bits x 40 32)).2 = true →
        exec (.ldtC g d a dc) s = issued (.ldtC g d a dc) d (.ldt true x))) ∧
    (s.atSlot r.th (.sth g (.v n) a dc) → refOk x (BitVec.ofNat 64 (0x7FFF * 2 ^ 41)) 128 →
      let nlog := bits x 45 43
      let ch := bits x 47 46 + 1
      let sample (c p : Nat) : Word := if bit (r.th.active g) (c % 32) then r.th.vreg (n + c / 32 * 2 ^ nlog + p) (c % 32) else 0
      let thr := s.threshold r.l r.pos (bits x 55 52)
      let tile := buildTile true (bits x 55 48) (bits x 42 41) nlog ch (f32val thr) fun c p => (sample c p).toNat
      shapeBad (bits x 55 48) (bits x 42 41) nlog ch = false → n + 2 ^ nlog * ch ≤ r.th.allot →
      (inActive r.th g fun k => ∀ u < 2 ^ nlog * ch, r.th.vmark (n + u) k = false) →
      (∃ coef, (∀ c < 32 * ch, forwardIs (2 ^ nlog) (bits x 50 48) (sample c) (coef c)) ∧
        formed tile.1 tile.2 (written (bits x 55 48)) (bits x 42 41) nlog ch thr coef) ∧
      (s.inReach r.l r.pos o (128 + tile.2.length) = true →
        exec (.sth g (.v n) a dc) s = issued (.sth g (.v n) a dc) (.v n) (.sth tile.1.bytes tile.2)))

/-- R207 to R213: FORK of an object that is not queued or running sets its STATE to 1, enters the fork with its argument,
object and entry offset at the end of its cluster's queue and counts it for its beam, once the ray's own earlier accesses to the object
have taken effect, as they do in the slot (log entry 69); JOIN issues an operation that
completes with the object's STATUS once nothing of the ray holds it and the object is ended, or with 0xFF if it is idle (log entry 37);
FEED with one legal format word in every active lane issues an operation that holds the registers as they are (the order of its checks
is log entry 28, a lane with some registers marked log entry 90). FORK's place in the queue was taken as its clause began (log entry
33). The memory is in canonical form. -/
def Obligations.RendezvousIssue : Prop :=
  ∀ (g : Guard) (d a c : Opnd) (n : Fin 96) (dc : BitVec 3) (s : State) (core rslot : Nat) (r : Ray) (k0 : Nat),
    s.executes core rslot r → s.memWf → lowest (r.th.active g) = some k0 → r.th.clean g true [a] →
    (∀ p ∈ (s.core core).ops, p.id < (s.core core).nextOp) →
    let x := r.th.rd64 false a k0
    let o := bits x 22 0
    let op (i : Instr) (d : Opnd) (kind : OpKind) : Op :=
      s.newOp core rslot r i (some dc.toNat) d (r.th.active g) (laneTab fun _ => x) (onceAt (r.th.active g) (.scratch o)) [] kind
    let iF : Instr := .fork g d a dc c
    let iJ : Instr := .join g d a dc
    let iE : Instr := .feed g (.v n) a dc c
    (s.atSlot r.th iF → refOk x 0 64 → ownDone s core rslot o 64 → r.th.clean g false [c] → s.inReach r.l r.pos o 64 = true →
      s.rvState (core / 4) o ∈ [0, 3] → ∃ u v, exec iF s = .next u ∧
        v = (s.issueOp core rslot r iF (op iF .nul .fork)).givePlace core rslot ∧
        (u.cluster (core / 4)).forks = (s.cluster (core / 4)).forks ++
          [⟨core, rslot, r.l, r.pos, s.ctxOf r.l, r.rayId, r.role, (s.core core).nextOp, r.th.rd64 false d k0, x, r.th.rd32 c k0⟩] ∧
        u.rvState (core / 4) o = 1 ∧ u.rvStatus (core / 4) o = s.rvStatus (core / 4) o ∧
        (∀ b, v.beam r.l r.pos = some b → u.beam r.l r.pos = some { b with streams := b.streams + 1 })) ∧
    (s.atSlot r.th iF → ¬ ownDone s core rslot o 64 → ∀ s1, s1 = s.performOwn core rslot → ∀ r1 k1, s1.executes core rslot r1 →
      lowest (r1.th.active g) = some k1 → ownDone s1 core rslot (bits (r1.th.rd64 false a k1) 22 0) 64 → s1.tokenWait iF = none →
      exec iF s = exec iF s1) ∧
    (s.atSlot r.th iJ → refOk x 0 64 → s.inReach r.l r.pos o 64 = true →
      exec iJ s = .next ((s.issueOp core rslot r iJ (op iJ d .join)).settleJoinsOf core)) ∧
    (∀ p : Op, p.kind = .join → p.done = false → (s.core core).mayPerform p = true → ∀ k1, lowest p.act = some k1 → p.place.getD k1 .off = .scratch o →
      (s.rvState (core / 4) o = 3 → s.settleJoin core p = (s.setRv (core / 4) o 0 none).completeOp core p fun t =>
        t.setLoad p.d 4 p.act (fun _ => BitVec.ofNat 128 (s.rvStatus (core / 4) o)) false) ∧
      (s.rvState (core / 4) o = 0 → s.settleJoin core p = s.completeOp core p fun t =>
        t.setLoad p.d 4 p.act (fun _ => 0xFF) false) ∧
      (s.rvState (core / 4) o ∈ [1, 2] → s.settleJoin core p = s)) ∧
    (s.atSlot r.th iE → refOk x 0 512 → r.th.clean g false [c] →
      let w := r.th.rd32 c k0
      let planes := if bits w 3 0 ≤ 1 then 4 else if bits w 3 0 ≤ 4 then 8 else 16
      let isMarked (k : Nat) : Prop := ∃ j < planes, r.th.vmark (n + j) k = true
      (inActive r.th g fun k => r.th.rd32 c k = w) → bits w 31 16 = 0 → bits w 7 6 = 0 → bits w 3 3 = 0 →
      n + planes ≤ r.th.allot →
      (((inActive r.th g fun k => ¬ isMarked k) ∧ bits w 15 8 = 0) ∨
        ((inActive r.th g isMarked) ∧ bits w 10 8 ≠ 0 ∧ bits w 10 8 ≠ 7)) →
      s.inReach r.l r.pos o (512 * planes) = true →
      exec iE s = .next (s.issueOp core rslot r iE { op iE (.v n) (.feed w.toNat planes) with data := r.th.feedData (.v n) }))

/-- R213, R219: TAKE writes v(D + j) of the active lanes with element (32q + i, c + j) of the tile, or 0 where another
context or none owns it, marked where the tile's tag is not 0, and passes, the latch of an inactive lane v(D); no other register changes. -/
def Sys2Proof.Claims.TakeResults : Prop :=
  ∀ (g : Guard) (m : Fin 96) (t : BitVec 4) (q : BitVec 2) (c : BitVec 7) (n : BitVec 4) (s : State) (core rslot : Nat) (r : Ray),
    s.executes core rslot r → r.th.kind = .ray →
    let i : Instr := .take g (.v m) t q c n
    let tile := (s.cluster (core / 4)).tile t.toNat
    let mine : Prop := tile.owner = some (s.ctxOf r.l)
    ∃ (u : Thread) (l : Latch), exec i s = .next ({ s with tick := s.tick + 1 }.finishSlot ((u.push l).advance i.size)) ∧
      { u with v := [], marks := [] } = { r.th with v := [], marks := [] } ∧
      (∀ k < 32, bit (r.th.active g) k = false → laneGet l.vals 0 k = zext64 (r.th.vreg m k) ∧ bit l.mark k = r.th.vmark m k) ∧
      (∀ j ≤ n.toNat, ∀ k < 32,
        (bit (r.th.active g) k = true →
          (mine → u.vreg (m + j) k = SMap.get tile.elems 0 (128 * (32 * q.toNat + k) + (c.toNat + j)) ∧
            (u.vmark (m + j) k = true ↔ tile.tag ≠ 0)) ∧
          (¬ mine → u.vreg (m + j) k = 0 ∧ u.vmark (m + j) k = false)) ∧
        (bit (r.th.active g) k = false → u.vreg (m + j) k = r.th.vreg (m + j) k ∧ u.vmark (m + j) k = r.th.vmark (m + j) k)) ∧
      ∀ p, (p < m ∨ m + n.toNat < p) → ∀ k < 32, u.vreg p k = r.th.vreg p k ∧ u.vmark p k = r.th.vmark p k

/-- R201, R203, R204, R250, R254: BAR.INIT with E from 1 to 1024 sets it, BAR.ARV counts and records one arrival, a clock later than one of a higher
%rayid in the same clock, and a barrier whose count has reached E begins its next phase from 0; BAR.ADDR writes the barrier's address; CALADV advances the ray's phase
without leaving 64 bits and CALADV.ALLOW sets its beam's; that a clock passes where an arrival comes out of the order of its clock
is the model's way of keeping that order (log entry 113); another E traps with cause 0x35; with no active lane the register-free forms pass. -/
def Obligations.BarrierResults : Prop :=
  ∀ (g : Guard) (d a : Opnd) (k : BitVec 3) (s : State) (core rslot : Nat) (r : Ray), s.executes core rslot r →
    (r.th.active g = 0 → ∀ i ∈ [Instr.barInit g a k, .barArv g k, .caladv g a, .caladvAllow g a], s.atSlot r.th i →
      exec i s = .next (s.finishSlot (r.th.past i))) ∧
    (s.atSlot r.th (.barAddr g d k) → ∀ x, s.launch r.l = some x →
      exec (.barAddr g d k) s = .next (s.wrote r.th (.barAddr g d k) d true fun _ => BitVec.ofNat 64
        (3 * 2 ^ 56 + s.ctxOf r.l % 1024 * 2 ^ 46 + r.pos % 2 ^ 32 * 2 ^ 14 + x.serial % 2048 * 2 ^ 3 + k.toNat))) ∧
    ∀ k0, lowest (r.th.active g) = some k0 →
      let e := (r.th.rd32 a k0).toNat
      (s.atSlot r.th (.barInit g a k) → r.th.clean g false [a] →
        (e = 0 ∨ 1024 < e → exec (.barInit g a k) s = .next (s.trapCur 0x35 (r.th.active g) 0 0)) ∧
        (1 ≤ e → e ≤ 1024 → exec (.barInit g a k) s = .next ((s.updBeam r.l r.pos fun b =>
          b.updBar k.toNat fun x => released ⟨e, x.count, x.phase⟩).finishSlot (r.th.past (.barInit g a k))))) ∧
      (s.atSlot r.th (.barArv g k) → ∀ b, s.beam r.l r.pos = some b →
        let v := if b.arrAt.1 = s.clock ∧ r.rayId < b.arrAt.2 then s.pass 1 else s
        exec (.barArv g k) s = .next (((v.setRay core rslot { r with arrival := some (k.toNat, (b.bar k.toNat).phase) }).updBeam
          r.l r.pos fun b => { b.updBar k.toNat fun x => released ⟨x.e, x.count + 1, x.phase⟩ with
            arrAt := (v.clock, r.rayId) }).finishSlot (r.th.past (.barArv g k)))) ∧
      (s.atSlot r.th (.caladv g a) → r.th.clean g false [a] → ∀ p : DWord,
        p.toNat = (if r.phase.toNat + e < 2 ^ 64 then r.phase.toNat + e else 2 ^ 64 - 1) →
        exec (.caladv g a) s = .next ((s.setRay core rslot { r with phase := p, adv := true }).finishSlot (r.th.past (.caladv g a)))) ∧
      (s.atSlot r.th (.caladvAllow g a) → r.th.clean g false [a] →
        exec (.caladvAllow g a) s = .next ((s.updBeam r.l r.pos fun b => { b with allow := e }).finishSlot
          (r.th.past (.caladvAllow g a))))

/-- R186 to R190, R202, R205: ACQ and REL of a bound object, ARRIVE at a barrier of the own context, BWAIT on another
position of the list and FENCE issue one operation; ARRIVE's arrival is on its way. An object that is not bound traps
with cause 0x34, another space or context with 0x33, the own position or one outside the list with 0x36. -/
def Sys2Proof.Claims.SynchronisationIssue : Prop :=
  ∀ (g : Guard) (d a : Opnd) (dc scope : BitVec 3) (ofs : MemOfs) (s : State) (core rslot : Nat) (r : Ray),
    s.executes core rslot r →
    let issued (i : Instr) (d : Opnd) (act : Mask) (ea : List DWord) (place : List Place) (kind : OpKind) : State :=
      s.issueOp core rslot r i (s.newOp core rslot r i (some dc.toNat) d act ea place [] kind)
    let act := r.th.active g
    (act = 0 → exec (.fence g dc scope) s = .next (issued (.fence g dc scope) .nul 0 [] [] .empty) ∧
      ∀ i ∈ [Instr.arrive g a dc, .bwait g d a dc, .acq g d a dc ofs, .rel g d a dc ofs], s.atSlot r.th i →
        ∃ d', exec i s = .next (issued i d' 0 [] [] .empty)) ∧
    (act ≠ 0 → exec (.fence g dc scope) s = .next (issued (.fence g dc scope) .nul act [] [] (.fence scope.toNat))) ∧
    ∀ k0, lowest act = some k0 →
      (s.atSlot r.th (.arrive g a dc) → r.th.clean g true [a] →
        let x := r.th.rd64 false a k0
        (bits x 63 56 ≠ 3 ∨ bits x 55 46 ≠ s.ctxOf r.l → exec (.arrive g a dc) s = .next (s.trapCur 0x33 act x.toNat 0)) ∧
        (bits x 63 56 = 3 → bits x 55 46 = s.ctxOf r.l → ∃ u, u = issued (.arrive g a dc) .nul act (laneTab fun _ => x) [] .arrive ∧
          exec (.arrive g a dc) s = .next { u with
            arrivals := s.arrivals ++ [⟨x, none, some (core, (s.core core).nextOp), none⟩] })) ∧
      (s.atSlot r.th (.bwait g d a dc) → r.th.clean g false [a] → ∀ y, s.launch r.l = some y →
        let p := (r.th.rd32 a k0).toNat
        (p = r.pos ∨ y.nent ≤ p → exec (.bwait g d a dc) s = .next (s.trapCur 0x36 act 0 0)) ∧
        (p ≠ r.pos → p < y.nent → exec (.bwait g d a dc) s = .next (issued (.bwait g d a dc) d act [] [] (.bwait p)))) ∧
      ∀ rel : Bool,
        let i : Instr := if rel then .rel g d a dc ofs else .acq g d a dc ofs
        let ea (k : Nat) : DWord := effective r.th a ofs 64 k
        let x := ea k0
        s.atSlot r.th i → r.th.clean g true [a] → (rel = true → (s.core core).recs.length ≠ 16) →
        bits x 63 56 = 0 → x.toNat % 64 = 0 →
        ((s.regionsOf r.l x.toNat = [] → exec i s = .next (s.trapCur 0x34 act 0 0)) ∧
        (s.regionsOf r.l x.toNat ≠ [] → ∀ e, (s.core core).tlbFind (s.ctxOf r.l) x.toNat = some e →
          (rel = true → e.w = true) → (e.host = false → e.pa + (x.toNat - e.va) + 64 ≤ 384 * 2 ^ 30) → ∃ data,
          exec i s = .next (s.issueOp core rslot r i (s.newOp core rslot r i (some dc.toNat) d act (laneTab ea)
            (onceAt act (.phys e.host (e.pa + (x.toNat - e.va)) e.nc)) data (if rel then .rel else .acq)))))

/-- R176, R177: DRAINNT passes once every earlier STNT of its ray has been performed, DRAINST once every earlier store that is no
FIFO access alone has passed or failed its check, and each waits until then; with no active lane each passes. Where a store has
failed, DRAINST inside a clause parks the ray before its next instruction (the place is the model's, log entry 40). -/
def Sys2Proof.Claims.DrainResults : Prop :=
  ∀ (g : Guard) (s : State) (core rslot : Nat) (r : Ray), s.executes core rslot r →
    let own (p : Op) : Prop := p ∈ (s.core core).ops ∧ p.rslot = rslot
    let noNt : Prop := ∀ p, own p → ∀ ty cp, p.kind = .store true ty cp → p.done = true
    let queued (p : Op) : Prop := ∀ k < 32, bit p.act k = true → ∃ b, p.place.getD k .off = .fifo b
    let checked : Prop := ∀ p, own p → (∃ nt ty cp, p.kind = .store nt ty cp) ∨ (∃ w, p.kind = .stcon w) → p.checked = true ∨ queued p
    ((r.th.active g = 0 ∨ noNt) → exec (.drainnt g) s = .next (s.finishSlot (r.th.past (.drainnt g)))) ∧
    ((r.th.active g ≠ 0 ∧ ¬ noNt) → exec (.drainnt g) s = .next (s.setRay core rslot { r with stall := some .drain })) ∧
    ((r.th.active g = 0 ∨ (checked ∧ r.dueStore = [])) →
      exec (.drainst g) s = .next (s.finishSlot (r.th.past (.drainst g)))) ∧
    ((r.th.active g ≠ 0 ∧ ¬ checked) → exec (.drainst g) s = .next (s.setRay core rslot { r with stall := some .drain })) ∧
    (r.th.active g ≠ 0 → checked → r.dueStore ≠ [] → r.parked = none → ∃ r1,
      (s.finishSlot (r.th.past (.drainst g))).ray core rslot = some r1 ∧
      exec (.drainst g) s = .next (if r1.th.clause.isSome then (s.finishSlot (r.th.past (.drainst g))).parkStores core rslot r1
        else s.finishSlot (r.th.past (.drainst g))))

/-! ### The sequencer's instructions (R214 to R234) -/

namespace Sys2Proof.Claims

/-- The stream that executes, with its cluster. -/
def streams (s : State) (cl : Nat) (x : Stream) : Prop := s.cur = .stream cl ∧ (s.cluster cl).stream = some x

/-- A scratchpad operand of a stream with its offset: space 0x00 or 0x01 and no bit above the offset (R217). -/
def offsetOf (x : DWord) (align o : Nat) : Prop := bits x 63 56 ≤ 1 ∧ bits x 55 23 = 0 ∧ o = bits x 22 0 ∧ o % align = 0

/-- Scratchpad bytes lie in the forking beam's reach, below the end of the scratchpad (R217). -/
def inStream (s : State) (x : Stream) (o n : Nat) : Prop := o + n ≤ 8 * 2 ^ 20 ∧ s.inReach x.fork.l x.fork.pos o n = true

/-- A descriptor written since the stream began, legal (R222 to R224) and, moved by an offset, in reach (R223). -/
def descOk (s : State) (x : Stream) (d : Desc) (j o : Nat) : Prop :=
  SMap.get? x.desc j = some d ∧ d.bad = false ∧ s.descReach x d o = true

/-- A tile command: what it checks, what it captures, and its SCOPE, ACQ and REL (R220, R221). -/
structure SeqRow where
  i : Instr
  scope : Nat
  acq : Bool
  rel : Bool
  ok : Prop
  op : TileOp

/-- A 64-bit operand of a stream. -/
def seqArg (x : Stream) (o : Opnd) : DWord := x.th.rd64 false o 0

/-- The tile commands (R225, R228 to R232), for a stream, the offsets of its operands and its two descriptors. -/
def seqRows (g : Guard) (a b : Opnd) (scope : BitVec 3) (rel acq : Bool) (db da t : BitVec 4) (s : State) (x : Stream)
    (oa ob : Nat) (p q : Desc) : List SeqRow :=
  let pair : Prop := descOk s x p da.toNat oa ∧ descOk s x q db.toNat ob ∧ p.kb = q.kb ∧
    offsetOf (seqArg x a) 1 oa ∧ offsetOf (seqArg x b) 1 ob
  let h (k : Nat) : Word := s.threshold x.fork.l x.fork.pos k
  let w := seqArg x b
  [⟨.mma g a b scope rel acq db da t, scope.toNat, acq, rel, pair, .mma false t.toNat p q oa ob⟩,
   ⟨.mmaz g a b scope rel acq db da t, scope.toNat, acq, rel, pair, .mma true t.toNat p q oa ob⟩,
   ⟨.mzero g t, 2, false, false, True, .mzero t.toNat⟩,
   ⟨.mhaar g a b scope rel t, scope.toNat, false, rel,
     offsetOf (seqArg x a) 128 oa ∧ bits w 63 10 = 0 ∧ bits w 9 8 ≠ 3 ∧ inStream s x oa 65664,
     .mhaar t.toNat oa (BitVec.ofNat 8 (bits w 7 0)) (bits w 9 8) (h (bits w 7 4))⟩,
   ⟨.mihaarTile g scope rel t, scope.toNat, false, rel, True, .mihaarTile t.toNat⟩,
   ⟨.mihaar g a b scope rel, scope.toNat, false, rel,
     offsetOf (seqArg x a) 128 oa ∧ offsetOf (seqArg x b) 128 ob ∧ inStream s x oa 128, .mihaar oa ob⟩,
   ⟨.mthrTile g a scope rel, scope.toNat, false, rel, offsetOf (seqArg x a) 1 oa ∧ inStream s x oa 128,
     .mthrTile oa ((List.range 16).map h)⟩,
   ⟨.msig g a, 2, false, false, bits (seqArg x a) 63 56 = 3 ∧ bits (seqArg x a) 55 46 = x.fork.ctx, .msig (seqArg x a)⟩]

end Sys2Proof.Claims

/-- R216, R217, R220, R221, R225, R228 to R232: a tile command whose checks hold captures its descriptors, operands and
threshold values, joins the end of its cluster's command queue and passes; with 8 commands queued the slot runs again
later; another SCOPE ends the stream with STATUS 0x40 (before any other check of the command: that order is the model's own, log entry 111); under a
false guard it only passes. -/
def Sys2Proof.Claims.TileCommandIssue : Prop :=
  ∀ (g : Guard) (a b : Opnd) (scope : BitVec 3) (rel acq : Bool) (db da t : BitVec 4) (s : State) (cl : Nat) (x : Stream)
    (oa ob : Nat) (p q : Desc), streams s cl x → ∀ row ∈ seqRows g a b scope rel acq db da t s x oa ob p q,
    (x.th.active g = 0 → exec row.i s = .next (s.finishSlot (x.th.past row.i))) ∧
    (x.th.active g ≠ 0 → (s.cluster cl).cmds.length = 8 → exec row.i s = .next s) ∧
    (x.th.active g ≠ 0 → (s.cluster cl).cmds.length < 8 →
      (row.scope ∉ [2, 3, 4, 5] → exec row.i s = .next (s.streamFault cl 0x40 x.th.pcNow)) ∧
      (row.scope ∈ [2, 3, 4, 5] → row.ok → exec row.i s = .next
        ((s.setCluster cl { s.cluster cl with cmds := (s.cluster cl).cmds ++ [⟨row.op, x.th.pcNow, row.acq, row.rel⟩] }).finishSlot
          (x.th.past row.i))))

/-- R217, R231, R233, R234: MTHR.SET writes a threshold register of the forking beam, and
stands over a ray's write of the same clock (R31), MDESC a descriptor slot, MEND
ends issue with STATUS 0x00, and MWAIT passes, its stream waiting where the flag has not reached the value; a flag that is not
aligned to 8 ends the stream with STATUS 0x41; under a false guard each only passes. -/
def Sys2Proof.Claims.SequencerResults : Prop :=
  ∀ (g : Guard) (a b : Opnd) (j : BitVec 4) (e : Bool) (s : State) (cl : Nat) (x : Stream), streams s cl x →
    (x.th.active g = 0 → ∀ i ∈ [Instr.mthrSet g a j, .mdesc g a b j, .mwait g a b e, .mend g],
      exec i s = .next (s.finishSlot (x.th.past i))) ∧
    (x.th.active g ≠ 0 →
      let go (i : Instr) (u : State) (y : Stream) : Host.Outcome State Fault Refusal :=
        .next ((u.setCluster cl { u.cluster cl with stream := some y }).finishSlot (x.th.past i))
      ((∀ b, s.beam x.fork.l x.fork.pos = some b → ∀ t q, SMap.get? b.hAt j.toNat = some (t, q) → q ≤ 32) →
        exec (.mthrSet g a j) s = .next ((s.updBeam x.fork.l x.fork.pos fun b =>
        { b with h := setAt b.h j.toNat (lo32 (seqArg x a)), hAt := SMap.put b.hAt j.toNat (s.clock, 32) }).finishSlot (x.th.past (.mthrSet g a j)))) ∧
      exec (.mdesc g a b j) s = go (.mdesc g a b j) s { x with desc := SMap.put x.desc j.toNat ⟨seqArg x a, seqArg x b⟩ } ∧
      exec (.mend g) s = go (.mend g) s { x with state := .ended, status := 0 } ∧
      (bits (seqArg x a) 22 0 % 8 ≠ 0 → exec (.mwait g a b e) s = .next (s.streamFault cl 0x41 x.th.pcNow)) ∧
      ∀ o, offsetOf (seqArg x a) 8 o → inStream s x o 8 →
        let v := s.scratchN cl o 8
        let met : Prop := if e then v = (seqArg x b).toNat else (seqArg x b).toNat ≤ v
        (met → exec (.mwait g a b e) s = .next (s.finishSlot (x.th.past (.mwait g a b e)))) ∧
        (¬ met → exec (.mwait g a b e) s = go (.mwait g a b e) s { x with state := .mwait o (seqArg x b) e }))

/-! ### Banks, clause entry and translation as events (R88 to R92, R109, R248, R249, R262 to R275, R384, R388) -/

namespace Sys2Proof.Claims

/-- An entry of a page table that a walk follows: V = 1 and its reserved bits 0 (R274). -/
def entryOk (e : Nat) : Prop := nbits e 0 0 = 1 ∧ nbits e 3 3 = 0 ∧ nbits e 7 6 = 0 ∧ nbits e 63 52 = 0

/-- The index of a virtual address in the table of a level (R274). -/
def tableIndex (va level : Nat) : Nat := [nbits va 55 39, nbits va 38 30, nbits va 29 21, nbits va 20 16].getD level 0

/-- The entries of a context's tables on the way to a virtual address, from the root: all but the last lead to a next table
(R274, R275). -/
def onTheWay (s : State) (c : Ctx) (va : Nat) (es : List Nat) : Prop :=
  es.length ≤ 4 ∧ ∀ j < es.length,
    es.getD j 0 = s.homeN ((if j = 0 then c.root else nbits (es.getD (j - 1) 0) 51 8 * 256) + 8 * tableIndex va j) 8 ∧
    (j + 1 < es.length → entryOk (es.getD j 0) ∧ nbits (es.getD j 0) 1 1 = 0)

/-- A slot's wait and what ends it (R248). -/
def stallEnds (s : State) (core rslot : Nat) (r : Ray) : Prop :=
  match r.stall with
  | some (.token q) => r.pend.contains q = false
  | some .copyRoom => s.copies core < 16
  | some .recordSlots => (s.core core).recs.length < 16
  | some .waitc => r.waitcOver = true
  | some .drain => (∃ g, r.heldInstr = some (.drainnt g) ∧ (s.core core).ntLeft rslot = false) ∨
      (∃ g, r.heldInstr = some (.drainst g) ∧ (s.core core).oldestUnchecked rslot = none)
  | _ => False

/-- The offsets of a bank. -/
def inBank (bank a : Nat) : Prop := bank * 2 ^ 17 ≤ a ∧ a < (bank + 1) * 2 ^ 17

/-- The class of the instruction that a word and its extension word open (R94, R105, R107). -/
def classAt (w x : Word) : Nat :=
  let o := bits w 31 25
  let e := bits x 31 24
  if o = 0x7F then (if e ≤ 0x17 then 0 else if e = 0x18 then 2 else if e ≤ 0x27 then 1 else if e ≤ 0x35 then 4 else if e ≤ 0x43 then 6 else 5)
  else if o ≤ 0x57 then 0 else if o ≤ 0x67 then 2 else if o ≤ 0x6F then 3 else if o ≤ 0x7C then 1 else 6

/-- An opcode lies in a range of primary ones, or of extended ones (R105, R107). -/
def opIn (w x : Word) (prim ext : List (Nat × Nat)) : Prop :=
  if bits w 31 25 = 0x7F then ∃ q ∈ ext, q.1 ≤ bits x 31 24 ∧ bits x 31 24 ≤ q.2
  else ∃ q ∈ prim, q.1 ≤ bits w 31 25 ∧ bits w 31 25 ≤ q.2

/-- The instructions that raise flags (R142), that stand last (R90, R216), that a stream may run (R108), of the memory format
(R105, R107), and the extended opcodes that are assigned (R107). -/
def raises (w x : Word) : Prop := opIn w x [(0x30, 0x35), (0x38, 0x47), (0x4A, 0x4D), (0x58, 0x62), (0x64, 0x67)] [(0x10, 0x18)]
def standsLast (w x : Word) : Prop := opIn w x [(0x68, 0x6F)] [(0x40, 0x43), (0x69, 0x69)]
def streamMay (w x : Word) : Prop := opIn w x [(0x00, 0x27), (0x68, 0x6A), (0x6D, 0x6D)] [(0x00, 0x0F), (0x60, 0x69)]
def memoryForm (w x : Word) : Prop :=
  opIn w x [(0x70, 0x7C)] [(0x20, 0x25), (0x28, 0x2B), (0x2D, 0x2F), (0x32, 0x33), (0x35, 0x35)]
def assigned (x : Word) : Prop :=
  ∃ q ∈ [(0x00, 0x18), (0x20, 0x35), (0x38, 0x39), (0x40, 0x43), (0x60, 0x69)], q.1 ≤ bits x 31 24 ∧ bits x 31 24 ≤ q.2

/-- The special-register numbers of R32, and those that MTS may not write. -/
def listedReg (n : Nat) : Prop := n ≤ 0x0E ∨ (0x10 ≤ n ∧ n ≤ 0x1F) ∨ n = 0x20 ∨ n = 0x21 ∨ n = 0x28
def readOnlyReg (n : Nat) : Prop := n = 0x00 ∨ (0x03 ≤ n ∧ n ≤ 0x0E) ∨ n = 0x21

/-- The source type of a conversion code's low three bits (R154). -/
def codeSource (k : Nat) : Nat := [0, 1, 2, 3, 4, 5, 8, 12].getD k 0

/-- Instructions with their destinations and sources, each 64 bits wide or not, a set that holds every kind of operand of the plain
families (R16, R96). -/
def operandRows (g : Guard) (d a b c : Opnd) (pt pf : Pred) (dc : BitVec 3) (ofs : MemOfs) :
    List (Instr × List (Bool × Opnd) × List (Bool × Opnd)) :=
  [(.iaddS32 g d a b, [(false, d)], [(false, a), (false, b)]), (.faddF16x2 g d a b, [(false, d)], [(false, a), (false, b)]),
   (.shflIdx g d a b, [(false, d)], [(false, a), (false, b)]), (.iaddS64 g d a b, [(true, d)], [(true, a), (true, b)]),
   (.imulwS32 g d a b, [(true, d)], [(false, a), (false, b)]), (.leaS64 g d a b, [(true, d)], [(true, a), (false, b)]),
   (.movZ64 g d a, [(true, d)], [(true, a)]), (.frcpF32 g d a, [(false, d)], [(false, a)]),
   (.icmpEqZ32 g pt pf a b, [], [(false, a), (false, b)]), (.iadd3S32 g d a b c, [(false, d)], [(false, a), (false, b), (false, c)]),
   (.ldZ32 g d a dc ofs, [(false, d)], [(true, a)]), (.ldZ64 g d a dc ofs, [(true, d)], [(true, a)]),
   (.stZ32 g d a dc ofs, [], [(false, d), (true, a)]), (.stZ64 g d a dc ofs, [], [(true, d), (true, a)])]

end Sys2Proof.Claims

/-- R266, R268: a step of a switch, once nothing touches the bank, zeroes it, gives it its mode, owner and use with SW
0, and ends the token after the last bank; the dispatcher begins to take a CACHE bank while 8 stay, or to return
a window bank that holds no window. -/
def Sys2Proof.Claims.BankSteps : Prop :=
  ∀ (s : State) (cl bank : Nat), bank < 64 →
    (∀ w, ((s.cluster cl).switches.find? fun w => w.banks.head? == some bank) = some w → s.bankBusy cl bank = false →
      ∃ u, exec (.bankSwitchStep cl bank) s = .next u ∧
        (u.cluster cl).bank bank = ⟨w.mode, (if w.mode = .cache then none else w.ctx), (w.win && w.mode == .scratch), false, 0, 0, 0⟩ ∧
        (∀ b, b ≠ bank → (u.cluster cl).bank b = (s.cluster cl).bank b) ∧
        (∀ a, (inBank bank a → (u.cluster cl).sram.read a = 0) ∧
          (¬ inBank bank a → (u.cluster cl).sram.read a = (s.cluster cl).sram.read a)) ∧
        ∀ tok r, w.banks = [bank] → w.tok = some tok → s.ray w.core w.rslot = some r → r.l = w.l → r.pos = w.pos →
          ∃ r', u.ray w.core w.rslot = some r' ∧ SMap.get r'.th.s 0 tok = BitVec.ofNat 64 (2 ^ 63) ∧ tok ∉ r'.pend) ∧
    (let k := (s.cluster cl).bank bank
     let take (mode : BankMode) (win : Bool) : State := s.setCluster cl
       { (s.cluster cl).setBank bank { k with sw := true } with
         switches := (s.cluster cl).switches ++ [⟨4 * cl, 64, 0, 0, none, mode, none, win, [bank]⟩] }
     (k.sw = false → k.mode = .cache → 8 ≤ (s.cluster cl).cacheAfter [bank] .scratch →
        exec (.dispatcherBankTake cl bank) s = .next (take .scratch true)) ∧
     (k.sw = false → k.mode = .scratch → k.win = true →
        (∀ w ∈ (s.cluster cl).windows, (bank + 1) * 2 ^ 17 ≤ w.ofs ∨ w.ofs + w.size ≤ bank * 2 ^ 17) →
        exec (.dispatcherBankTake cl bank) s = .next (take .cache false)))

/-- R88, R89, R92, R109, R248, R249: a free quarter pipe's choice whose clause is fetched and passes its checks enters it:
the clause's lanes are those at the issue address, whose vpc goes past the header, its latches are empty and the pipe
is its own; a clause that fails its checks traps before any of it runs, with the lowest failing slot and its cause. A
choice that resumed inside a clause goes on with it. -/
def Sys2Proof.Claims.ClauseEntry : Prop :=
  ∀ (s : State) (core pipe rslot : Nat) (r : Ray),
    pipe < 4 → SMap.get? (s.core core).pipes pipe = none → s.module.throttled = false →
    s.chooseRay core pipe = some rslot → s.ray core rslot = some r →
    (∀ c, r.th.clause = some c → ∃ u r', exec (.clauseEntry core pipe) s = .next u ∧ u.ray core rslot = some r' ∧
      r'.th = r.th ∧ SMap.get? (u.core core).pipes r.pipe = some rslot ∧ u.hbm = s.hbm ∧ u.host = s.host) ∧
    ∀ (a : Nat) (w : Word) (ws : List Word), r.th.clause = none → r.th.issue = some a →
      a + 4 ≤ r.th.span → s.fetchWords core (s.ctxOf r.l) (s.codeBase r.l r.pos + a) 1 = .ok [w] →
      s.fetchWords core (s.ctxOf r.l) (s.codeBase r.l r.pos + a + 4) (bits w 31 28) = .ok ws →
      (∀ slot cause, clauseFail ⟨false, r.th.allot, r.th.span, a, w⟩ ws = some (slot, cause) →
        exec (.clauseEntry core pipe) s = .next (s.takeTrap core rslot .clauseTrap ⟨cause, slot, a, r.th.lanesAt a, 0, 0⟩)) ∧
      (clauseFail ⟨false, r.th.allot, r.th.span, a, w⟩ ws = none →
        ∃ u r', exec (.clauseEntry core pipe) s = .next u ∧ u.ray core rslot = some r' ∧
          r'.th.clause = some ⟨a, w, ws, 0, 1, r.th.lanesAt a, []⟩ ∧ r'.th.latches = [] ∧
          (∀ k < 32, r'.th.pcOf k = if bit r.th.live k ∧ (r.th.pcOf k).toNat = a then BitVec.ofNat 32 (a + 4) else r.th.pcOf k) ∧
          { r'.th with clause := none, latches := [], vpc := [] } = { r.th with clause := none, latches := [], vpc := [] } ∧
          SMap.get? (u.core core).pipes r.pipe = some rslot ∧ u.hbm = s.hbm ∧ u.host = s.host)

/-- R16, R17, R27, R42, R88, R90, R93, R94, R96, R98, R102, R103, R105, R107 to R109: the checks of a clause's entry, cause by cause: a header
with COUNT 0, CLASS 7, THRESH without WAIT, a QUIET bit above COUNT or beyond the code span has 0x01, a CLASS that the stream does not accept
0x02; then the slots in order, of which the first that fails names its lowest cause: 0x02 for another class or one that the stream
does not accept, 0x03 for an unassigned XOP, 0x04 for words that no instruction has (an unused field, a reserved bit), a DC of 6 or 7, an
unlisted special register or CVT code, 0x05 for QUIET over an instruction without flags, a literal or an extension word, 0x06 for an
instruction that must stand last and does not, an extension word or a literal beyond COUNT, 0x07 for a jump out of the span, 0x10 for an
operand code illegal where it stands, 0x11 for a latch at or beyond the instruction's position, 0x12 for a register at or above the
allotment, 0x13 for an odd register of 64 bits. (That a ray's clause of CLASS 5 fails at its header is log entry 10, the causes
beside 0x06 for a missing literal log entry 70.) -/
def Sys2Proof.Claims.ClauseChecks : Prop :=
  ∀ (e : ClauseEnv) (fuel k pos : Nat),
    (∀ ws : List Word,
      let n := bits e.word 31 28
      let cl := bits e.word 27 25
      let wait := bits e.word 9 4
      let thresh := bits e.word 3 1
      let bad1 : Prop := n = 0 ∨ cl = 7 ∨ (thresh ≠ 0 ∧ wait = 0) ∨ (∃ j < 15, n ≤ j ∧ bit e.word (10 + j) = true) ∨
        e.span < e.hdr + 4 * (n + 1) ∨
        (e.seq = true ∧ (wait ≠ 0 ∨ thresh ≠ 0 ∨ (∃ j < 15, bit e.word (10 + j) = true) ∨ bit e.word 0 = true))
      let bad2 : Prop := if e.seq then cl ∉ [0, 3, 5] else cl = 5
      (bad1 → clauseFail e ws = some (0, 0x01)) ∧ (¬ bad1 → bad2 → clauseFail e ws = some (0, 0x02)) ∧
      (¬ bad1 → ¬ bad2 → clauseFail e ws = (slotFail e 16 0 1 ws).map fun (k, cs) => (k, cs.foldl min 0xFF))) ∧
    (∀ (w : Word) (t : List Word),
      let got := slotFail e (fuel + 1) k pos (w :: t)
      (bits w 31 25 = 0x7F → t = [] → got = some (k + 1, [0x06])) ∧
      (∀ x t', bits w 31 25 = 0x7F → t = x :: t' → ¬ assigned x → got = some (k + 1, [0x03])) ∧
      (∀ i v, i.encodable = true → i.usesLit = true → encode i = w :: t ++ [v] → ∃ cs, got = some (k + 1, 0x06 :: cs)) ∧
      ((bits w 31 25 = 0x7F → ∃ x t', t = x :: t' ∧ assigned x) →
        (∀ i, i.encodable = true → (∀ rest, encode i ++ rest ≠ w :: t) ∧ ∀ v, encode i ≠ w :: t ++ [v]) →
        ∃ cs, got = some (k + 1, cs) ∧ 0x04 ∈ cs) ∧
      ∀ i rest, i.encodable = true → encode i ++ rest = w :: t →
        let x := t.headD 0
        let cs := instrCauses e k pos rest.length i
        (cs ≠ [] → got = some (k + 1, cs)) ∧
        (cs = [] → (∀ j, j + 1 < i.size → bit e.word (10 + k + 1 + j) = true → (∀ m < j, bit e.word (10 + k + 1 + m) = false) →
            got = some (k + 2 + j, [0x05])) ∧
          ((∀ j, j + 1 < i.size → bit e.word (10 + k + 1 + j) = false) → got = slotFail e fuel (k + i.size) (pos + 1) rest)) ∧
        (0x02 ∈ cs ↔ classAt w x ≠ bits e.word 27 25 ∨ (e.seq = true ∧ ¬ streamMay w x) ∨ (e.seq = false ∧ classAt w x = 5)) ∧
        (0x05 ∈ cs ↔ bit e.word (10 + k) = true ∧ ¬ raises w x) ∧
        (0x06 ∈ cs ↔ standsLast w x ∧ rest ≠ []) ∧
        (0x07 ∈ cs ↔ (bits w 31 25 = 0x68 ∨ bits w 31 25 = 0x69) ∧
          let target : Int := e.hdr + 4 * (BitVec.ofNat 21 (bits w 20 0)).toInt
          (target < 0 ∨ (e.span : Int) ≤ target)) ∧
        (memoryForm w x → 6 ≤ bits w 6 4 → 0x04 ∈ cs) ∧
        (bits w 31 25 < 0x60 → 0x04 ∉ cs) ∧
        (bits w 31 25 = 0x60 → (0x04 ∈ cs ↔ 14 ≤ bits w 6 3 ∨ bits w 6 3 = codeSource (bits w 2 0))) ∧
        (bits w 31 25 = 0x7D → (0x04 ∈ cs ↔ ¬ listedReg (bits w 13 7))) ∧
        (bits w 31 25 = 0x7E → (0x04 ∈ cs ↔ ¬ listedReg (bits w 13 7) ∨ readOnlyReg (bits w 13 7)))) ∧
    ∀ g d a b c pt pf dc ofs left, ∀ row ∈ operandRows g d a b c pt pf dc ofs,
      let cs := instrCauses e k pos left row.1
      (0x11 ∈ cs ↔ ∃ j : Fin 4, (∃ q ∈ row.2.2, q.2 = .l j) ∧ pos ≤ j.val + 1) ∧
      (e.seq = false →
        (0x10 ∈ cs ↔ (∃ q ∈ row.2.1, q.2 ≠ .nul ∧ (∀ n, q.2 ≠ .v n) ∧ ∀ n, q.2 ≠ .s n) ∨ ∃ q ∈ row.2.2, q.2 = .nul) ∧
        (0x12 ∈ cs ↔ ∃ q ∈ row.2.1 ++ row.2.2, ∃ n : Fin 96, q.2 = .v n ∧
          (e.allot ≤ n.val ∨ (q.1 = true ∧ n.val % 2 = 0 ∧ e.allot ≤ n.val + 1))) ∧
        (0x13 ∈ cs ↔ ∃ q ∈ row.2.1 ++ row.2.2, ∃ n : Fin 96, q.2 = .v n ∧ q.1 = true ∧ n.val % 2 = 1)) ∧
      (e.seq = true →
        (0x10 ∈ cs ↔ (∃ q ∈ row.2.1, q.2 ≠ .nul ∧ ∀ n : Fin 96, q.2 = .v n → 32 ≤ n.val) ∨
          ∃ q ∈ row.2.2, q.2 = .nul ∨ q.2 = .lane ∨ (∃ n, q.2 = .s n) ∨ ∃ n : Fin 96, q.2 = .v n ∧ 32 ≤ n.val))

/-- R135, R248, R249: rays of a pipe ready for 256 clocks are taken ahead of older ones at its next choice; 64 clocks after
its YIELD a ray may issue again; a slot whose wait is over goes on. Nothing else changes. -/
def Sys2Proof.Claims.IssueEvents : Prop :=
  ∀ (s : State) (core rslot : Nat) (r : Ray), s.ray core rslot = some r →
    (∀ pipe, ∃ u, exec (.issueStarvation core pipe) s = .next u ∧
      { u with cores := [] } = { s with cores := [] } ∧ (∀ j, j ≠ core → u.core j = s.core j) ∧
      ∀ k q, s.ray core k = some q → ∃ q', u.ray core k = some q' ∧ { q' with starved := q.starved } = q ∧
        (q'.starved = true ↔ q.starved = true ∨ (q.pipe = pipe ∧ ∃ t, q.readySince = some t ∧ t + 256 ≤ s.clock))) ∧
    (r.yieldAt + 64 ≤ s.clock → exec (.yieldTimeout core rslot) s = .next (s.setRay core rslot { r with yieldTo := [] })) ∧
    (stallEnds s core rslot r → exec (.slotStallEnd core rslot) s = .next (s.setRay core rslot { r with stall := none }))

/-- R274, R275: a walk whose last entry is a leaf of a page of 1 GiB, 2 MiB or 64 KiB, at level 1, 2 or 3, gives that page, writable
where every entry on the way is, with the leaf's NC and HOST; an entry that is not valid or has a reserved bit set, a leaf at level 0
or whose address has bits below the page size, and a table entry at level 3 give no translation. -/
def Sys2Proof.Claims.PageTableWalk : Prop :=
  ∀ (s : State) (ctx va e : Nat) (es : List Nat) (c : Ctx), SMap.get? s.ctxs ctx = some c → va < 2 ^ 56 → onTheWay s c va es →
    es.getLast? = some e →
    (¬ entryOk e → s.walk ctx va = none) ∧
    (entryOk e → nbits e 1 1 = 0 → es.length = 4 → s.walk ctx va = none) ∧
    (entryOk e → nbits e 1 1 = 1 → es.length = 1 → s.walk ctx va = none) ∧
    (entryOk e → nbits e 1 1 = 1 → ∀ size, (es.length, size) ∈ [(2, 2 ^ 30), (3, 2 ^ 21), (4, 2 ^ 16)] →
      (nbits e 51 8 * 256 % size ≠ 0 → s.walk ctx va = none) ∧
      (nbits e 51 8 * 256 % size = 0 → s.walk ctx va = some
        { ctx := ctx, va := va / size * size, size := size, pa := nbits e 51 8 * 256, nc := decide (nbits e 5 5 = 1)
          host := decide (nbits e 4 4 = 1), w := decide (∀ x ∈ es, nbits x 2 2 = 1) }))

/-- R172, R273, R380, R384, R388: a walker serves the oldest miss whose core has no fault outstanding: a translation fills
the core's TLB, which holds 256 and loses the oldest (log entry 19), and the slot goes on; a failing one leaves the fault outstanding
with an event of KIND 0x5, whatever has become of the ray. XLATE retries it, where a second failure raises a new event, or fails the
access; TLBINV drops a page's, a context's or every entry. -/
def Sys2Proof.Claims.TranslationEvents : Prop :=
  ∀ (s : State) (die core ctx : Nat) (va v : DWord),
    (∀ q r, ((SMap.get s.walks [] die).find? fun q => (s.core q.core).xfault.isNone) = some q → s.ray q.core q.rslot = some r →
      (∀ e, s.walk q.ctx q.va = some e → ∃ u r', exec (.pageWalk die) s = .next u ∧ u.ray q.core q.rslot = some r' ∧
        r' = (if r.stall = some .walk then { r with stall := none } else r) ∧
        (u.core q.core).tlb = (e :: (s.core q.core).tlb).take 256 ∧ (u.core q.core).xfault = none ∧
        SMap.get u.walks [] die = (SMap.get s.walks [] die).erase q) ∧
      (s.walk q.ctx q.va = none → ∃ u e, exec (.pageWalk die) s = .next u ∧ u.ray q.core q.rslot = some r ∧
        (u.core q.core).xfault = some q ∧ eventRaised (s.core q.core) (u.core q.core) e ∧
        bits e 31 28 = 5 ∧ bits e 63 54 = q.ctx % 1024 ∧ bits e 53 48 = q.rslot % 64 ∧ bits e 255 128 = q.va % 2 ^ 128)) ∧
    (∀ q, (s.walk q.ctx q.va = none) →
      (((SMap.get s.walks [] die).find? fun q => (s.core q.core).xfault.isNone) = some q → s.ray q.core q.rslot = none →
        ∃ u e, exec (.pageWalk die) s = .next u ∧ (u.core q.core).xfault = some q ∧ eventRaised (s.core q.core) (u.core q.core) e ∧
          bits e 31 28 = 5 ∧ bits e 40 40 = 1 ∧ bits e 63 54 = q.ctx % 1024 ∧ bits e 255 128 = q.va % 2 ^ 128) ∧
      ((s.core core).xfault = some q → q.core = core → bit v 0 = true →
        ∃ u e, exec (.xlate core v) s = .next u ∧ (u.core core).xfault = some q ∧ eventRaised (s.core core) (u.core core) e ∧
          bits e 31 28 = 5 ∧ bits e 63 54 = q.ctx % 1024 ∧ bits e 255 128 = q.va % 2 ^ 128)) ∧
    (∀ q r, (s.core core).xfault = some q → q.core = core → s.ray core q.rslot = some r → r.stall = some .walk →
      (bit v 0 = false → ∃ u, exec (.xlate core v) s = .next u ∧ (u.core core).xfault = none ∧
        u.ray core q.rslot = some { r with stall := none, unresolved := q.va / 65536 :: r.unresolved }) ∧
      (∀ e, bit v 0 = true → s.walk q.ctx q.va = some e → ∃ u, exec (.xlate core v) s = .next u ∧ (u.core core).xfault = none ∧
        (u.core core).tlb = (e :: (s.core core).tlb).take 256 ∧ u.ray core q.rslot = some { r with stall := none })) ∧
    (∀ i keep, (i, keep) ∈ ([(.tlbinvPage core ctx va, fun e => e.ctx ≠ ctx ∨ va.toNat < e.va ∨ e.va + e.size ≤ va.toNat),
        (.tlbinvContext core ctx, fun e => e.ctx ≠ ctx), (.tlbinvAll core, fun _ => False)] : List (Instr × (TlbEntry → Prop))) →
      ∃ u, exec i s = .next u ∧ (∀ e, e ∈ (u.core core).tlb ↔ e ∈ (s.core core).tlb ∧ keep e) ∧
        { u.core core with tlb := [] } = { s.core core with tlb := [] } ∧ (∀ j, j ≠ core → u.core j = s.core j) ∧
        { u with cores := [] } = { s with cores := [] })

/-! ### Operations as they complete (R168 to R190, R270, R276 to R279, R381 to R383) -/

namespace Sys2Proof.Claims

/-- An operation that may take effect now: issued, not done, not held back by an older one of its ray (R168, R188, R190). -/
def runs (s : State) (core id : Nat) (o : Op) : Prop :=
  (s.core core).op id = some o ∧ o.done = false ∧ (s.core core).mayPerform o = true

/-- A byte of memory that a cache holds written (R276, R278). -/
def heldWritten (s : State) (k : Nat) (b : Byte) : Prop :=
  (∃ core, SMap.get? (s.core core).l1.bytes k = some (b, true)) ∨
  (∃ cl, SMap.get? (s.cluster cl).cache.bytes k = some (b, true)) ∨ ∃ die, SMap.get? (s.l2Of die).bytes k = some (b, true)

/-- No byte of scratchpad is written, and memory gets only bytes written back from the caches, which held them written (R278). -/
def onlyWriteBacks (s u : State) : Prop :=
  (∀ cl a, (u.cluster cl).sram.read a = (s.cluster cl).sram.read a) ∧
  (∀ k, u.memByte k = s.memByte k ∨ heldWritten s k (u.memByte k)) ∧ ∀ k b, heldWritten u k b → heldWritten s k b

/-- The first lane whose request to global memory leaves (R272). -/
def firstGlobal (o : Op) : Option Nat := (o.laneOrder.filter fun k => bit o.act k && o.line k != 0).head?

/-- The page of the last store to a sector is still writable (R189). -/
def writable (s : State) (tag : Option StoreTag) (sec : Nat) : Prop :=
  ∀ t, tag = some t → ∃ e, s.walk t.ctx t.va = some e ∧ e.w = true ∧ sectorOf (e.key t.va) = sec

/-- No translation still in use writes the page of the last store to a sector, whose tag it has (R189). -/
def readOnly (s : State) (t : StoreTag) : Prop :=
  (∀ e, s.walk t.ctx t.va = some e → e.w = false) ∧ ∀ e, (s.core t.core).tlbFind t.ctx t.va = some e → e.w = false

/-- All of an operation's lanes have taken effect: those in memory have been served, and a bank has moved those at FIFO banks. -/
def allOver (o : Op) : Prop := o.accepted = true ∧ ∀ k < 32, bit o.act k = true → bit o.served k = true ∨ ∃ b, o.place.getD k .off = .fifo b

/-- No LDRES or STCON that the ray has issued before an operation is still to take its effect (R184). -/
def noneReserving (s : State) (core : Nat) (o : Op) : Prop :=
  ∀ p ∈ (s.core core).ops, p.id < o.id → p.rslot = o.rslot → p.done = false → ∀ w, p.kind ≠ .ldres w ∧ p.kind ≠ .stcon w

/-- A free record slot: the lowest (R381). -/
def freeSlot (c : Core) (slot : Nat) : Prop := slot < 16 ∧ SMap.get? c.recs slot = none ∧ ∀ j < slot, SMap.get? c.recs j ≠ none

/-- Every active lane is at a place that a condition names. -/
def lanesIn (o : Op) (p : Place → Prop) : Prop := ∀ k < 32, bit o.act k = true → p (o.place.getD k .off)

/-- The bytes [a, a + n) of a scratchpad as a little-endian number (R6). -/
def sramN (s : State) (cl a n : Nat) : Nat := leNat ((List.range n).map fun i => (s.cluster cl).sram.read (a + i))

/-- The value that a load of a type gives (R170, R171): zero-extended, or sign-extended to 32 bits for S8 and S16. -/
def extended (ty v : Nat) : BitVec 128 :=
  if ty = 1 then ((BitVec.ofNat 8 v).signExtend 32).setWidth 128
  else if ty = 3 then ((BitVec.ofNat 16 v).signExtend 32).setWidth 128
  else BitVec.ofNat 128 v

/-- The registers of the operation's ray take a load's values. -/
def loadsTo (o : Op) (ty : Nat) (v : Nat → BitVec 128) (t : Thread) : Thread := t.setLoad o.d ty o.act v false

/-- The highest active lane whose n bytes at a scratchpad offset hold an address: the one whose store stands (R168, R171). -/
def lastStore (o : Op) (n a : Nat) : Option Nat :=
  ((List.range 32).filter fun k => bit o.act k && match o.place.getD k .off with
    | .scratch x => decide (x ≤ a) && decide (a < x + n)
    | _ => false).getLast?

/-- The new value of an integer atomic on w bits (R182, R183). -/
def atomicInt (w : Nat) (signed : Bool) (op : Nat) (old cmp c : BitVec w) : BitVec w :=
  let le (x y : BitVec w) : Bool := if signed then x.sle y else x.ule y
  match op with
  | 0 => old + c
  | 1 => if le old c then old else c
  | 2 => if le old c then c else old
  | 3 => old &&& c
  | 4 => old ||| c
  | 5 => old ^^^ c
  | 6 => c
  | _ => if old = cmp then c else old

/-- The new value of an atomic on an FP32 word (R182, R183): a sum rounded RNE with subnormals honoured; the number that MinNum or MaxNum
chooses, FZ32 as the ray issued it; an exchange; a comparison of the bits. The other operations are reserved. -/
def atomicFloat (fz : Bool) (op : Nat) (old cmp c v : Word) : Prop :=
  (op = 0 → v = (wholeWord (rounded fmtF32 sumOf ⟨.rne, false, 0⟩) old c).1) ∧
  (∀ mx : Bool, op = (if mx then 2 else 1) → ∀ m : FMode, m.flush fmtF32 = fz → chosen mx m old c v) ∧
  (op = 6 → v = c) ∧ (op = 7 → v = if old = cmp then c else old)

end Sys2Proof.Claims

/-- R163, R168, R170, R171, R184, R272, R276: a load that completes writes its destination, each active lane of scratchpad
with the bytes there, extended, and the first lane whose request to global memory leaves with the bytes its L1 gives; memory, in
canonical form, changes by write-backs alone. LDRES also takes each active lane's reservation. An error that a load meets is logged or
poisons its data, and the load returns what it reads (log entry 20). -/
def Obligations.LoadCompletes : Prop :=
  ∀ (s : State) (core id : Nat) (o : Op), s.memWf → runs s core id o → o.fifo = false →
    (∀ ro ty cp, o.kind = .load ro ty cp → ∃ (u : State) (v : Nat → BitVec 128), exec (.loadComplete core id) s = .next (u.completeOp core o (loadsTo o ty v)) ∧
      onlyWriteBacks s u ∧
      (∀ k < 32, bit o.act k = true → ∀ a, o.place.getD k .off = .scratch a →
        v k = extended ty (sramN s (core / 4) a (accessSize ty))) ∧
      (∀ k h a nc, firstGlobal o = some k → k < 32 → ro = false → o.place.getD k .off = .phys h a nc →
        v k = extended ty (leNat ((List.range (accessSize ty)).map fun i => s.l1Byte core (physKey h a + i))))) ∧
    (∀ w, o.kind = .ldres w → ∃ (u : State) (v : Nat → BitVec 128), exec (.loadComplete core id) s = .next (u.completeOp core o (loadsTo o (if w then 5 else 4) v)) ∧
      onlyWriteBacks s u ∧
      ∀ r, s.ray core o.rslot = some r → ∃ r', u.ray core o.rslot = some r' ∧ r'.th = r.th ∧ ∀ k < 32, bit o.act k = true →
        (∀ a, o.place.getD k .off = .scratch a → v k = BitVec.ofNat 128 (sramN s (core / 4) a (if w then 8 else 4)) ∧
          r'.resv.getD k none = some ⟨true, false, a / 64 + core / 4 * 2 ^ 32⟩) ∧
        (∀ h a nc, o.place.getD k .off = .phys h a nc → r'.resv.getD k none = some (physGranule (physKey h a))))

/-- R168, R171, R173, R176, R184, R276, R278, R381, R413: a store whose lanes are all in scratchpad writes exactly their bytes, the
highest lane last, and is done; one lane's store to global memory is what its own L1 reads then, an STNT's what memory
holds at its home; where a store meets an uncorrectable error or poisoned data, in scratchpad too, it writes nothing and the failure is due
for its ray with cause 0x72 (which words a store meets is log entry 95). STCON writes 0 in the lanes whose reservation holds when their turn comes, which store, and 1 in the others, and none holds one then. A store that an
older operation of its ray still holds makes its check alone, and writes at a later such event (log entry 17). The memory is in
canonical form. -/
def Obligations.StoreCompletes : Prop :=
  ∀ (s : State) (core id : Nat) (o : Op), s.memWf → runs s core id o → o.checked = false → o.recSlot = none → o.fifo = false → o.act ≠ 0 →
    let dataByte (k i : Nat) : Byte := BitVec.ofNat 8 ((o.data.getD k 0).toNat / 256 ^ i)
    (∀ nt ty cp, o.kind = .store nt ty cp →
      (lanesIn o (fun p => ∃ a, p = .scratch a) → ∃ t : State, exec (.storeCheck core id) s = .next t ∧
        (Config.eccError s.tick = false → s.poison = [] → ∃ u : State, t = u.completeOp core o (fun t => t) ∧
          ∀ a, (u.cluster (core / 4)).sram.read a = match lastStore o (accessSize ty) a with
            | some k => (match o.place.getD k .off with | .scratch x => dataByte k (a - x) | _ => 0)
            | none => (s.cluster (core / 4)).sram.read a)) ∧
      (∀ k h a nc, o.act = BitVec.ofNat 32 (2 ^ k) → k < 32 → o.place.getD k .off = .phys h a nc → a % accessSize ty = 0 →
        (nt = true → h = true → ∃ c, SMap.get? s.ctxs o.ctx = some c ∧ c.cut = false) →
        Config.eccError s.tick = false → s.poison = [] → ∃ u : State,
          exec (.storeCheck core id) s = .next ((u.spoilGen [(physKey h a, accessSize ty)]).completeOp core o fun t => t) ∧
          ∀ i < accessSize ty, if nt then u.memByte (physKey h a + i) = dataByte k i else u.l1Byte core (physKey h a + i) = dataByte k i) ∧
      (lanesIn o (fun p => (∃ a, p = .scratch a) ∨ ∃ h a nc, p = .phys h a nc) →
        (Config.eccError s.tick = true ∨ ∃ w ∈ s.poison, w ∈ s.storeWords core o) →
        ∀ r, s.ray core o.rslot = some r → r.l = o.l → r.pos = o.pos → r.th.live ≠ 0 →
          ∃ (u : State) (e : BitVec 256), exec (.storeCheck core id) s = .next u ∧ s.sameMem u ∧
            (u.core core).op id = some { o with checked := true, accepted := true, failed := o.act, served := o.served ||| o.act } ∧
            u.ray core o.rslot = some { r with dueStore := r.dueStore ++ [⟨id, none, e⟩] } ∧ bits e 31 28 = 2 ∧ bits e 23 16 = 0x72)) ∧
    (∀ w r, o.kind = .stcon w → noneReserving s core o → s.ray core o.rslot = some r → lanesIn o (fun p => ∃ a, p = .scratch a ∧ a % (if w then 8 else 4) = 0) →
      let ofs (k : Nat) : Nat := match o.place.getD k .off with | .scratch a => a | _ => 0
      let holds (k : Nat) : Prop := bit o.act k = true ∧ r.resv.getD k none = some ⟨true, false, ofs k / 64 + core / 4 * 2 ^ 32⟩
      let stores (k : Nat) : Prop := holds k ∧ ∀ j < k, holds j → ofs j / 64 ≠ ofs k / 64
      ∃ t : State, exec (.storeCheck core id) s = .next t ∧ (Config.eccError s.tick = false → s.poison = [] →
        ∃ (u : State) (r' : Ray) (v : Nat → DWord), t = u.completeOp core o (fun t => t.setD o.d false o.act v fun _ => false) ∧
        (∀ k < 32, bit o.act k = true → (stores k → v k = 0) ∧ (¬ stores k → v k = 1)) ∧
        u.ray core o.rslot = some r' ∧ (∀ k < 32, bit o.act k = true → r'.resv.getD k none = none) ∧
        (∀ k < 32, stores k → ∀ i < (if w then 8 else 4), (u.cluster (core / 4)).sram.read (ofs k + i) = dataByte k i) ∧
        ∀ a, (∀ k < 32, stores k → a < ofs k ∨ ofs k + (if w then 8 else 4) ≤ a) →
          (u.cluster (core / 4)).sram.read a = (s.cluster (core / 4)).sram.read a))

/-- R182, R183, R272, R286: the requests of an atomic are applied location by location, with the last of them the old values
return; one lane's atomic on scratchpad returns the old value and leaves the new one, which its operation
gives: ADD, MIN, MAX, AND, OR, XOR, EXCH or CAS, signed for S32 and S64; of an FP32 word the rounded sum, MinNum, MaxNum, EXCH or CAS
(that FZ32 is taken as the ray issues is log entry 107). The memory is in canonical form. -/
def Obligations.AtomicCompletes : Prop :=
  ∀ (s : State) (core id : Nat) (o : Op) (scope ty op : Nat) (fz : Bool), s.memWf → runs s core id o → o.kind = .atom scope ty op fz →
    (o.locations.length ≤ 1 → ∃ (u : State) (v : Nat → BitVec 128),
      exec (.atomicComplete core id) s = .next (u.completeOp core o (loadsTo o (if ty = 2 ∨ ty = 3 then 5 else 4) v))) ∧
    (1 < o.locations.length → ∃ (u : State) (p : Place) (o' : Op), exec (.atomicComplete core id) s = .next u ∧ p ∈ o.locations ∧
      (u.core core).op id = some o' ∧ { o' with served := 0, olds := [] } = { o with accepted := true, served := 0, olds := [] } ∧
      (∀ k < 32, bit o'.served k = true ↔ bit o.served k = true ∨ (bit o.act k = true ∧ o.place.getD k .off = p)) ∧
      ∀ q, q ∈ o'.locations ↔ q ∈ o.locations ∧ q ≠ p) ∧
    ∀ k a, o.act = BitVec.ofNat 32 (2 ^ k) → k < 32 → o.place.getD k .off = .scratch a → o.served = 0 → o.olds = [] → ty < 5 →
      let n := if ty = 2 ∨ ty = 3 then 8 else 4
      let x := o.data.getD k 0
      let old := sramN s (core / 4) a n
      ∃ (u : State) (v : Nat → BitVec 128), exec (.atomicComplete core id) s = .next (u.completeOp core o (loadsTo o (if ty = 2 ∨ ty = 3 then 5 else 4) v)) ∧
        v k = BitVec.ofNat 128 old ∧
        (ty = 4 → atomicFloat fz op (BitVec.ofNat 32 old) (x.extractLsb' 64 32) (x.extractLsb' 0 32) (BitVec.ofNat 32 (sramN u (core / 4) a n))) ∧
        (ty < 4 → sramN u (core / 4) a n = if n = 8
          then (atomicInt 64 (ty == 2) op (BitVec.ofNat 64 old) (x.extractLsb' 64 64) (x.extractLsb' 0 64)).toNat
          else (atomicInt 32 (ty == 0) op (BitVec.ofNat 32 old) (x.extractLsb' 64 32) (x.extractLsb' 0 32)).toNat) ∧
        ∀ b, (b < a ∨ a + n ≤ b) → (u.cluster (core / 4)).sram.read b = (s.cluster (core / 4)).sram.read b

/-- R174, R270: a Z32 load of a FIFO bank with an element for every active lane takes the oldest elements, in lane
order; a Z32 store with room adds its lanes' words at the tail; HEAD, TAIL and the count move by the number of lanes. The memory is in
canonical form. -/
def Obligations.FifoCompletes : Prop :=
  ∀ (s : State) (core id : Nat) (o : Op) (b : Nat), s.memWf → runs s core id o → o.act ≠ 0 → o.accepted = false → o.served = 0 → b < 64 →
    (∀ k < 32, o.place.getD k .off = if bit o.act k then .fifo b else .off) →
    (∀ p ∈ (s.core core).ops, p.id < o.id → p.rslot = o.rslot → p.done = false → (.fifo b : Place) ∉ p.place) →
    let bank := (s.cluster (core / 4)).bank b
    let n := maskCount o.act
    let slot (j : Nat) : Nat := b * 2 ^ 17 + 4 * (j % 32768)
    let rank (k : Nat) : Nat := ((List.range k).filter fun i => bit o.act i).length
    (∀ ro cp, o.kind = .load ro 4 cp → n ≤ bank.count → ∃ (u : State) (v : Nat → BitVec 128),
      exec (.fifoOperationComplete core id) s = .next (u.completeOp core o (loadsTo o 4 v)) ∧
      (∀ k < 32, bit o.act k = true → v k = BitVec.ofNat 128 (sramN s (core / 4) (slot (bank.head + rank k)) 4)) ∧
      (u.cluster (core / 4)).bank b = { bank with head := (bank.head + n) % 32768, count := bank.count - n } ∧
      (u.cluster (core / 4)).sram = (s.cluster (core / 4)).sram) ∧
    (∀ nt cp, o.kind = .store nt 4 cp → o.failed = 0 → bank.count + n ≤ 32768 → ∃ u : State,
      exec (.fifoOperationComplete core id) s = .next (u.completeOp core o fun t => t) ∧
      (∀ k < 32, bit o.act k = true →
        sramN u (core / 4) (slot (bank.tail + rank k)) 4 = (o.data.getD k 0).toNat % 2 ^ 32) ∧
      (u.cluster (core / 4)).bank b = { bank with tail := (bank.tail + n) % 32768, count := bank.count + n })

/-- R188 to R190, R275, R278, R296, R401: an ACQ drops the clean copies of its object's regions above its scope and gives GEN at the
scope's point of coherence; a REL whose ray's writes are performed publishes them, adds 1 to GEN there and gives the
status, GEN in host memory no longer for a context whose interface has lost its trust; an object of a page with NC set is never
brought into the L1; a FENCE whose earlier accesses are performed publishes and is done, and one whose earlier accesses left all wait
at a FIFO bank, or after one that does, is done and goes on ordering the later ones (log entry 115); a write-back moves a sector's
written bytes to the level below, unless it fails. The memory is in canonical form. -/
def Obligations.SynchronisationCompletes : Prop :=
  (∀ (s : State) (core id : Nat) (o : Op) (obj k scope level : Nat), s.memWf → runs s core id o → s.objectOf o = some (obj, k, scope, level) →
    let mine : Nat → Bool := inKeys (s.objectKeys o.ctx o.l obj)
    (∀ k0 h a nc, lowest o.act = some k0 → o.place.getD k0 .off = .phys h a nc → level = if nc = true then max 2 scope else scope) ∧
    (o.kind = .acq → ∃ u0 u : State, u0 = s.dropForAcq core scope mine ∧ u = u0.toPoint core level k 8 ∧
      exec (.acqComplete core id) s = .next (u.completeOp core o (loadsTo o 5 fun _ => BitVec.ofNat 128 (u.pointRead core level k 8))) ∧
      (1 < scope → ∀ q b w, mine q = true → (q, (b, w)) ∈ (u0.core core).l1.bytes → w = true) ∧
      (2 < scope → ∀ q b w, mine q = true → (q, (b, w)) ∈ (u0.cluster (core / 4)).cache.bytes → w = true)) ∧
    (o.kind = .rel → s.relWaits core o obj = false → ∃ (u0 : State × Nat) (u1 u2 : State), u0 = s.publish core scope (s.dirtyAbove core scope mine) ∧
      u1 = u0.1.toPoint core level k 8 ∧
      u2 = (if keyHost k = true ∧ u1.cutOff o.ctx = true then u1
        else u1.pointWrite core level k (some (o.tag core (u1.roleOf core o) obj)) none (leBytes 8 (u1.pointRead core level k 8 + 1))) ∧
      exec (.relComplete core id) s = .next (u2.completeOp core o (loadsTo o 4 fun _ => BitVec.ofNat 128 u0.2)) ∧
      (k % 8 = 0 → ¬ (keyHost k = true ∧ u1.cutOff o.ctx = true) →
        u2.pointRead core level k 8 = (u1.pointRead core level k 8 + 1) % 2 ^ 64))) ∧
  (∀ (s : State) (core id : Nat) (o : Op) (scope : Nat), (s.core core).op id = some o → o.kind = .fence scope → o.isOver = false →
    (s.fenceWaits core o = false → exec (.fenceComplete core id) s =
      .next ((s.publish core scope (s.dirtyAbove core scope fun _ => true)).1.completeOp core o fun t => t)) ∧
    (s.fenceWaits core o = true →
      (∀ p ∈ (s.core core).ops, p.id < o.id → p.rslot = o.rslot → p.fenceWaits = true → (s.core core).behindFifo p = true) →
      exec (.fenceComplete core id) s = .next ((s.updOp core id fun p => { p with done := true, accepted := true }).retire core))) ∧
  (∀ (s : State) (level : CacheLevel) (unit sec : Nat), s.memWf →
    let cache (u : State) : Cache := match level with | .l1 => (u.core unit).l1 | .cluster => (u.cluster unit).cache | .l2 => u.l2Of unit
    let below (u : State) (k : Nat) (b : Byte) : Prop := match level with
      | .l1 => SMap.get? (u.cluster (unit / 4)).cache.bytes k = some (b, true)
      | .cluster => u.homeByte k = b
      | .l2 => u.memByte k = b
    let tag := SMap.get? (cache s).tags sec
    ∃ u : State, exec (.dirtyWriteBack level unit sec) s = .next u ∧
      (Config.writeBack s.tick % 2 = 0 → s.poison = [] → writable s tag sec → (level = .l2 → s.cutAt tag (256 * sec) = false) →
        ∀ i < 256, ∀ b, SMap.get? (cache s).bytes (256 * sec + i) = some (b, true) → below u (256 * sec + i) b) ∧
      ∀ t, tag = some t → Config.writeBack s.tick % 2 = 0 → s.poison = [] → readOnly s t → (cache s).dirty sec ≠ [] →
        (cache u).dirty sec = [] ∧ s.sameMem u ∧ ∃ e, (u.core t.core).wbWait = (s.core t.core).wbWait ++ [(e, t)] ∧
          bits e 31 28 = 3 ∧ bits e 23 16 = 0x73 ∧ bits e 63 54 = t.ctx % 1024 ∧ bits e 95 64 = t.pc % 2 ^ 32)

/-- R380 to R384: a failed store takes the lowest free record slot, is done once its other lanes are over, and its record, with its slot in INFO, is due
for its ray, as a failed write-back's is for the ray that its tag names, in whichever slot that is resident, and which else has ENDED set
in its event; at a boundary where nothing comes
first a ray with failures due is parked, and one event tells their slots in INFO once each has one (that the ray parks while a slot is
awaited, and that a slot stays with its report, is log entry 41); EVPOP discards the oldest event, and SFFREE frees the slots whose bits are 1. -/
def Obligations.StoreFaults : Prop :=
  ∀ (s : State) (core id rslot slot : Nat) (o : Op) (r : Ray) (mask : DWord),
    ((s.core core).op id = some o → o.done = false → o.checked = true → o.failed ≠ 0 → o.recSlot = none →
      s.ray core o.rslot = some r → r.th.live ≠ 0 → r.l = o.l → r.pos = o.pos → freeSlot (s.core core) slot →
      ∃ (u : State) (e : BitVec 256), exec (.storeFaultRecord core id) s =
          .next (if o.performed then u.completeOp core o fun t => t else u) ∧ (o.performed = true ↔ allOver o) ∧
        (u.core core).recs = SMap.put (s.core core).recs slot e ∧ (u.core core).op id = some { o with recSlot := some slot } ∧
        (let due := r.dueStore.map fun d => if d.op = id then { d with slot := some slot, record := e } else d
         ((r.awaiting = false ∨ ∃ d ∈ due, d.slot = none) → u.ray core o.rslot = some { r with dueStore := due } ∧
           (u.core core).events = (s.core core).events) ∧
         (r.awaiting = true → due ≠ [] → (∀ d ∈ due, d.slot ≠ none) →
           u.ray core o.rslot = some { r with dueStore := [], awaiting := false } ∧
           ∃ ev, eventRaised (s.core core) (u.core core) ev ∧ ∀ d ∈ due, ∀ j, d.slot = some j → j < 16 → bit ev j = true)) ∧
        bit e slot = true ∧ bits e 31 28 = 2 ∧ bits e 63 54 = o.ctx % 1024 ∧ bits e 95 64 = o.pc % 2 ^ 32 ∧ bits e 127 96 = o.failed.toNat) ∧
    (∀ r0 t rest, (s.core core).op id = none → (s.core core).wbWait = (r0, t) :: rest → freeSlot (s.core core) slot →
      let tagged (q : Nat) (y : Ray) : Prop := q < 64 ∧ s.ray core q = some y ∧ y.l = t.l ∧ y.pos = t.pos ∧ y.rayId = t.rayId ∧ y.th.live ≠ 0
      ∃ (u : State) (e : BitVec 256), exec (.storeFaultRecord core id) s = .next u ∧ bit e slot = true ∧
        (u.core core).recs = SMap.put (s.core core).recs slot e ∧ (u.core core).wbWait = rest ∧
        ((∃ q y, tagged q y) → ∃ q y, tagged q y ∧ bits e 53 48 = q ∧ u.ray core q = some { y with dueWb := y.dueWb ++ [(slot, e)] }) ∧
        ((∀ q y, ¬ tagged q y) → ∃ ev, eventRaised (s.core core) (u.core core) ev ∧ bit ev slot = true ∧ bit ev 40 = true)) ∧
    (s.ray core rslot = some r → r.parked = none → r.th.clause = none → r.th.live ≠ 0 →
      (s.ready core rslot && s.entryTrap core r) = false → r.dueStore ≠ [] →
      ∃ u : State, exec (.storeFaultReport core rslot) s = .next u ∧
        ((∀ d ∈ r.dueStore, d.slot ≠ none) →
          u.ray core rslot = some { r with parked := some .storeFault, awaiting := false, stall := none, dueStore := [] } ∧
          ∃ e, eventRaised (s.core core) (u.core core) e ∧ ∀ d ∈ r.dueStore, ∀ j, d.slot = some j → j < 16 → bit e j = true) ∧
        ((∃ d ∈ r.dueStore, d.slot = none) →
          u.ray core rslot = some { r with parked := some .storeFault, awaiting := true, stall := none } ∧
          (u.core core).events = (s.core core).events)) ∧
    (let es := (s.core core).events.drop 1
     let told (e : BitVec 256) : Prop := ∃ x ∈ es, ∃ q, sourceOf x q ∧ sourceOf e q
     ((∀ e ∈ (s.core core).late, told e) → exec (.evpop core) s = .next (s.setCore core { s.core core with events := es })) ∧
     ∀ pre e post, (s.core core).late = pre ++ e :: post → (∀ x ∈ pre, told x) → ¬ told e →
       exec (.evpop core) s = .next (s.setCore core { s.core core with events := es ++ [e], late := pre ++ post })) ∧
    (∃ u, exec (.sffree core mask) s = .next u ∧ { u.core core with recs := [] } = { s.core core with recs := [] } ∧
      (∀ j < 16, ∀ e, (j, e) ∈ (u.core core).recs ↔ (j, e) ∈ (s.core core).recs ∧ bit mask j = false))

/-! ### Engines as they work (R54 to R60, R180, R181, R191 to R199, R202, R206, R212 to R235, R256 to R258, R282, R334) -/

namespace Sys2Proof.Claims

/-- The copy of an operation of a ray, under way, its first token not ended, of a context that has not faulted. -/
def copying (s : State) (core id : Nat) (o : Op) (c : Copy) (r : Ray) : Prop :=
  (s.core core).op id = some o ∧ o.kind = .copy c ∧ o.isOver = false ∧ c.ended1 = false ∧ c.tok2 ≠ some c.tok ∧
  s.ray core o.rslot = some r ∧ r.l = o.l ∧ r.pos = o.pos ∧ s.ctxFaulted o.ctx = false

/-- The copy of an operation of a ray, not over, of a context that has not faulted. -/
def atWork (s : State) (core id : Nat) (o : Op) (c : Copy) (r : Ray) : Prop :=
  (s.core core).op id = some o ∧ o.kind = .copy c ∧ o.isOver = false ∧ c.tok2 ≠ some c.tok ∧
  s.ray core o.rslot = some r ∧ r.l = o.l ∧ r.pos = o.pos ∧ s.ctxFaulted o.ctx = false

/-- A token of an operation's ray has a value, and is pending no more once its DONE bit is set (R191). -/
def tokenIs (u : State) (core : Nat) (o : Op) (tok : Nat) (p : DWord → Prop) : Prop :=
  ∃ r, u.ray core o.rslot = some r ∧ p (SMap.get r.th.s 0 tok) ∧ (bits (SMap.get r.th.s 0 tok) 63 63 = 1 → tok ∉ r.pend)

/-- A token that has ended with an error keeps its count and chunks (R192). -/
def endsWith (old : DWord) (err : Nat) (x : DWord) : Prop :=
  bits x 63 63 = 1 ∧ bits x 55 48 = err ∧ bits x 62 56 = bits old 62 56 ∧ bits x 47 0 = bits old 47 0

/-- A token under way or done: NCH, no error, and its chunks (R191). -/
def tokenAt (nch : Nat) (done : Prop) (chunk : Nat → Prop) (x : DWord) : Prop :=
  bits x 62 57 = nch ∧ (bits x 63 63 = 1 ↔ done) ∧ bits x 55 48 = 0 ∧ ∀ j < 48, (bit x j = true ↔ chunk j)

/-- The bytes of an element of a tile, and how many units it stores before a unit (R57). -/
def elemSize (h : Head) : Nat := if h.fmt = 0 then 4 else 2
def storedBefore (h : Head) (u : Nat) : Nat := if h.tag % 8 = 0 then u else ((List.range u).filter fun j => h.bitmap.testBit j).length

/-- Elements of a tile that a unit's channel reads as (R57, R180): the stored element, or +0 of a dropped unit. -/
def unitValue (s : State) (cl base : Nat) (h : Head) (u k : Nat) : Nat :=
  if h.tag % 8 = 0 ∨ h.bitmap.testBit u = true then
    elemF32 h.fmt (sramN s cl (base + 128 + (storedBefore h u * 32 + k) * elemSize h) (elemSize h)) else 0

/-- The bytes of a tile with its head, as stored (R57). -/
def tileLength (h : Head) : Nat := 128 + storedBefore h (2 ^ h.nlog * h.ch) * 32 * elemSize h

/-- What Inverse gives at a unit's position, for a channel (R60, R64). -/
def reconstructed (s : State) (cl base : Nat) (h : Head) (u k : Nat) : Word :=
  let N := 2 ^ h.nlog
  inverseAt (N / 2 ^ (h.tag % 8)) (fun p => BitVec.ofNat 32 (unitValue s cl base h (u / N * N + p) k)) (h.tag % 8) (u % N)

/-- The second operand of a product as the engine uses it: reconstructed where both are tagged, over its n positions (R227). -/
def secondIs (n : Nat) (a b b' : Operand) : Prop :=
  if a.tag ≠ 0 ∧ b.tag ≠ 0 then (∀ j r, b'.absent j r = decide (n ≤ r)) ∧ ∀ j k, ∀ r < n, b'.value j r k = f32val
    (inverseAt (n / 2 ^ (b.tag % 8)) (fun p => if b.absent j p then 0 else BitVec.ofNat 32 (roundRne fmtF32 (b.value j p k))) (b.tag % 8) r)
  else b' = b

/-- A scratchpad range that a tile command may touch as the engine runs it (R217, R266). -/
def engineMay (s : State) (x : Stream) (o n : Nat) : Prop :=
  o + n ≤ 8 * 2 ^ 20 ∧ s.rangeReach true x.fork.l x.fork.pos o n = true

/-- The word of plane p of a row of 32 codes of w bits: bit e is bit p of code e (R212). -/
def planeRow (data : List (BitVec 128)) (w p k : Nat) : Nat :=
  let row := (List.range 4).foldl (fun n j => n + (data.getD (4 * k + j) 0).toNat * 2 ^ (128 * j)) 0
  (List.range 32).foldl (fun n e => if row.testBit (e * w + p) then n + 2 ^ e else n) 0

end Sys2Proof.Claims

/-- R192 to R195, R282, R283: the engine accepts its oldest waiting copy: a page copy of a page that its context may name
gets NCH 32 and no chunk; a tensor copy reads its record once a walker is free for a miss, under ACQ after the ray's earlier
writes, and sets the chunks without an inside element; an error found ends the token, its other bits kept: 0x01 for a
buffer that a switch holds, 0x03 for a record with an uncorrectable error, 0x08 for a page that is not the context's or holds no data. (That
room is checked with this record, and the order of errors, is log entry 30, the ERR for a switching bank log entry 82.) -/
def Sys2Proof.Claims.CopyAccepts : Prop :=
  ∀ (s : State) (core id : Nat) (o : Op) (c : Copy) (r : Ray), copying s core id o c r → s.nextCopy core = some o.id →
    let old := SMap.get r.th.s 0 c.tok
    (c.err ≠ 0 → c.err < 256 → ∃ u, exec (.copyAccept core id) s = .next u ∧ tokenIs u core o c.tok (endsWith old c.err)) ∧
    (c.err = 0 → c.kind = .fread ∨ c.kind = .fwrite →
      let held : Prop := bits c.tile 63 56 = 1 ∧ s.switching (core / 4) (bits c.tile 22 0) 16384 = true
      let ends (e : Nat) : Prop := ∃ u, exec (.copyAccept core id) s = .next u ∧ tokenIs u core o c.tok (endsWith old e)
      (held → ends 0x01) ∧
      (¬ held → bits c.record 63 48 ≠ 0 → ends 0x04) ∧
      (¬ held → bits c.record 63 48 = 0 → s.flashInRange o.ctx (bits c.record 47 0) = false → ends 0x08) ∧
      (¬ held → bits c.record 63 48 = 0 → c.kind = .fread → s.flashData o.ctx (bits c.record 47 0) = none → ends 0x08) ∧
      (¬ held → bits c.record 63 48 = 0 → s.flashInRange o.ctx (bits c.record 47 0) = true →
        (c.kind = .fread → s.flashData o.ctx (bits c.record 47 0) ≠ none) → c.done1 = [] →
        ∃ u, exec (.copyAccept core id) s = .next u ∧ tokenIs u core o c.tok (tokenAt 32 False fun _ => False))) ∧
    (let miss := s.engineMisses core o.ctx [c.record.toNat]
     let u0 := (s.engineFill core o.ctx miss).copyAcquires core c
     let met := u0.meetRecord core o c
     c.err = 0 → c.kind = .xin ∨ c.kind = .xout → (c.acq = true → s.copyWaits core o = false) →
      (miss = [] ∨ s.walkersBusy core = false) →
      (met.2 = true → ∃ u, exec (.copyAccept core id) s = .next u ∧ tokenIs u core o c.tok (endsWith old 0x03)) ∧
      (∀ e, met.2 = false → met.1.acceptTensor core o c false = .error e → e < 256 →
        ∃ u, exec (.copyAccept core id) s = .next u ∧ tokenIs u core o c.tok (endsWith old e)) ∧
      (∀ lay m, met.2 = false → met.1.acceptTensor core o c false = .ok (lay, m) →
        let nch := (m.count * m.ebytes + 511) / 512
        nch ≤ 48 → ∃ u, exec (.copyAccept core id) s = .next u ∧
          tokenIs u core o c.tok (tokenAt nch (∀ j < nch, m.outside j = true) fun j => j < nch ∧ m.outside j = true)))

/-- R192, R194, R196, R197, R199, R283: chunk j of an accepted XCOPY.IN lands in the tile, once a walker is free for each miss:
each unit inside the clip box from its address, each other as FILL, and the token's bit j is set, DONE after the last; a place that
cannot be read ends it with its ERR, an uncorrectable error with 0x03. The memory is in canonical form. (The free contents after an
error are log entry 31.) -/
def Sys2Proof.Claims.CopyChunks : Prop :=
  ∀ (s : State) (core id j : Nat) (o : Op) (c : Copy) (r : Ray), s.memWf → copying s core id o c r →
    ∀ lay, c.kind = .xin → c.lay = some lay → c.acq = false → c.accepted = true → j < c.nch → c.nch ≤ 48 → c.err = 0 →
      (∀ i ∈ c.done1, i < c.nch) → c.done1.Nodup → j ∉ c.done1 →
      let miss := s.engineMisses core o.ctx (c.chunkAddrs j)
      let u0 := s.engineFill core o.ctx miss
      (miss = [] ∨ s.walkersBusy core = false) →
      (∀ e, u0.chunkPlaces core o (boxMap lay c.desc) false j = .error e → e < 256 →
        ∃ u, exec (.copyChunkComplete core id j false) s = .next u ∧ tokenIs u core o c.tok (endsWith (SMap.get r.th.s 0 c.tok) e)) ∧
      ∀ ps, u0.chunkPlaces core o (boxMap lay c.desc) false j = .ok ps →
      ((∃ p ∈ ps, p.2.2.words (core / 4) 1 ≠ []) → Config.eccError s.tick = true → ∃ u, exec (.copyChunkComplete core id j false) s = .next u ∧
        tokenIs u core o c.tok (endsWith (SMap.get r.th.s 0 c.tok) 0x03)) ∧
      (Config.eccError s.tick = false → s.poison = [] → ∃ u, exec (.copyChunkComplete core id j false) s = .next u ∧
        let bs := ps.foldl (fun l (i, _, p) => setAt l i (s.readPlace core 2 p)) ((boxMap lay c.desc).fillBytes j)
        (u.cluster (core / 4)).sram.readBytes (bits c.tile 22 0 + 512 * j) bs.length = bs ∧
        tokenIs u core o c.tok (tokenAt c.nch (c.done1.length + 1 = c.nch) fun i => i = j ∨ i ∈ c.done1))

/-- R192, R194, R197 to R199, R282, R318, R383: an accepted XMCAST has the receiving beam of each named cluster; the chunks of the copies other
than XCOPY.IN: XCOPY.OUT takes up a tile's chunk (first token), then writes its inside units to their addresses (second); an XMCAST's lands
for every receiver, in its window or a saved one's image, and after the last each receiver's barrier gets an arrival and the token ERR 0, or
0x0A where a cluster had none; FREAD's land in the buffer; FWRITE takes up its buffer's. A place out of reach ends the tokens with
its ERR, an uncorrectable error with 0x03, a lost page with 0x08, one beyond retries with 0x06. (Log entries 92, for the
receivers, 31 and 95, for errors.) -/
def Sys2Proof.Claims.CopyOtherChunks : Prop :=
  ∀ (s : State) (core id j : Nat) (o : Op) (c : Copy) (r : Ray), s.memWf → atWork s core id o c r →
    (c.acq = true → s.copyWaits core o = false) →
    let old (tok : Nat) := SMap.get r.th.s 0 tok
    let page := bits c.record 47 0
    (∀ mask rb, c.kind = .mcast mask rb → c.ended1 = false → s.nextCopy core = some o.id → c.err = 0 →
      let miss := s.engineMisses core o.ctx [c.record.toNat]
      let met := ((s.engineFill core o.ctx miss).copyAcquires core c).meetRecord core o c
      (miss = [] ∨ s.walkersBusy core = false) → met.2 = false → ∀ lay m, met.1.acceptTensor core o c true = .ok (lay, m) →
      (∃ i, i * 512 < m.count * m.ebytes ∧ m.outside i = false) →
      ∃ u o' c', exec (.copyAccept core id) s = .next u ∧ (u.core core).op id = some o' ∧ o'.kind = .copy c' ∧ c'.accepted = true ∧
        let found := (mcastClusters core mask).map fun cl => met.1.receiver cl (bits c.tile 22 0)
        c'.recv = found.filterMap (fun x => x) ∧ c'.err = if none ∈ found then 0x0A else 0) ∧
    (c.accepted = true → j < c.nch → c.nch ≤ 48 → (∀ i ∈ c.done1, i < c.nch) → c.done1.Nodup → (∀ i ∈ c.done2, i ∈ c.done1) → c.done2.Nodup →
      let miss := s.engineMisses core o.ctx (c.chunkAddrs j)
      let u0 := s.engineFill core o.ctx miss
      (miss = [] ∨ s.walkersBusy core = false) →
      let ends (second : Bool) (tok e : Nat) : Prop :=
        ∃ u, exec (.copyChunkComplete core id j second) s = .next u ∧ tokenIs u core o tok (endsWith (old tok) e)
      let taken (bs : List Byte) : Prop := ∃ u o' c', exec (.copyChunkComplete core id j false) s = .next u ∧
        (u.core core).op id = some o' ∧ o'.kind = .copy c' ∧ SMap.get? c'.buf j = some bs ∧
        tokenIs u core o c.tok (tokenAt c.nch (c.done1.length + 1 = c.nch) fun i => i = j ∨ i ∈ c.done1)
      let last : Prop := c.done1.length + 1 = c.nch
      (∀ lay t2, c.kind = .xout → c.lay = some lay → c.err = 0 → c.tok2 = some t2 → c.ended2 = false →
        let m := boxMap lay c.desc
        let n := (m.units j).length * m.ebytes
        (c.ended1 = false → j ∉ c.done1 → (n ≠ 0 → Config.eccError s.tick = true → ends false c.tok 0x03 ∧ ends false t2 0x03) ∧
          (Config.eccError s.tick = false → s.poison = [] → taken ((s.cluster (core / 4)).sram.readBytes (bits c.tile 22 0 + 512 * j) n))) ∧
        (j ∈ c.done1 → j ∉ c.done2 → (∀ e, e < 256 → u0.chunkPlaces core o m true j = .error e →
            (c.ended1 = false → ends true c.tok e) ∧ ends true t2 e) ∧
          ∀ ps, u0.chunkPlaces core o m true j = .ok ps →
            let v := u0.writePlaces core (max 1 c.scope) (u0.copyTag core o) (ps.map fun (i, va, p) => ((va, p), (SMap.get c.buf [] j).getD i 0))
            ∃ u, exec (.copyChunkComplete core id j true) s = .next u ∧
              u.hbm = v.hbm ∧ u.host = v.host ∧ u.l2 = v.l2 ∧ u.clusters = v.clusters ∧ (u.core core).l1 = (v.core core).l1 ∧
              (∀ x ∈ ps, ∀ ofs, x.2.2 = .scratch ofs → (∀ y ∈ ps, y.2.2 = .scratch ofs → y.1 = x.1) →
                (u.cluster (core / 4)).sram.read ofs = (SMap.get c.buf [] j).getD x.1 0) ∧
              tokenIs u core o t2 (tokenAt c.nch (c.done2.length + 1 = c.nch) fun i => i = j ∨ i ∈ c.done2))) ∧
      (∀ mask rb lay, c.kind = .mcast mask rb → c.lay = some lay → c.acq = false → c.tok2 = none → c.ended1 = false → j ∉ c.done1 → c.err < 256 →
        (∀ e, e < 256 → u0.chunkPlaces core o (boxMap lay c.desc) false j = .error e → ends false c.tok e) ∧
        ∀ ps, u0.chunkPlaces core o (boxMap lay c.desc) false j = .ok ps →
        ((∃ p ∈ ps, p.2.2.words (core / 4) 1 ≠ []) → Config.eccError s.tick = true → ends false c.tok 0x03) ∧
        (Config.eccError s.tick = false → s.poison = [] → ∃ u, exec (.copyChunkComplete core id j false) s = .next u ∧
          let bs := ps.foldl (fun l (i, _, p) => setAt l i (s.readPlace core 2 p)) ((boxMap lay c.desc).fillBytes j)
          let at_ := bits c.tile 22 0 + 512 * j
          (∀ x ∈ c.recv, ∀ b, s.beam x.1 x.2 = some b → (u.cluster b.cluster).sram.readBytes at_ bs.length = bs) ∧
          (∀ x ∈ c.recv, ∀ w, s.beam x.1 x.2 = none → SMap.get? s.saved (beamKey x.1 x.2) = some w → w.beam.winOfs ≤ at_ →
            at_ + bs.length ≤ w.beam.winOfs + w.beam.winSize → w.window.length = w.beam.winSize →
            ∃ w', SMap.get? u.saved (beamKey x.1 x.2) = some w' ∧ (w'.window.drop (at_ - w.beam.winOfs)).take bs.length = bs) ∧
          (¬ last → u.arrivals = s.arrivals ∧ tokenIs u core o c.tok (tokenAt c.nch False fun i => i = j ∨ i ∈ c.done1)) ∧
          (last → u.arrivals = s.arrivals ++ c.recv.map (fun w => ⟨BitVec.ofNat 64 rb, some w, none, none⟩) ∧
            tokenIs u core o c.tok fun x => bits x 63 63 = 1 ∧ bits x 55 48 = c.err ∧ bits x 62 57 = c.nch))) ∧
      (c.kind = .fread → c.lay = none → c.tok2 = none → c.ended1 = false → c.err = 0 → j ∉ c.done1 →
        (SMap.get? c.buf 0 = none → (s.flashData o.ctx page = none → ends false c.tok 0x08) ∧
          (s.flashData o.ctx page ≠ none → s.flashCorrects = none → ends false c.tok 0x06)) ∧
        ∀ p, (SMap.get? c.buf 0 = some p ∨ (SMap.get? c.buf 0 = none ∧ s.flashData o.ctx page = some p ∧ s.flashCorrects ≠ none)) →
          (∀ e, e < 256 → u0.bufferPlaces core o c true j = .error e → ends false c.tok e) ∧
          ∀ ps, u0.bufferPlaces core o c true j = .ok ps → ∃ u, exec (.copyChunkComplete core id j false) s = .next u ∧
            (∀ i < 512, ∀ va ofs, ps[i]? = some (va, .scratch ofs) → (∀ k va', ps[k]? = some (va', .scratch ofs) → k = i) →
              ∀ x, p[512 * j + i]? = some x → (u.cluster (core / 4)).sram.read ofs = x) ∧
            (∃ v, v = (match SMap.get? c.buf 0 with | some _ => u0.bump | none => (u0.senseFlash o.ctx page).1).writePlaces core c.writeLevel
              (u0.copyTag core o) (ps.zip ((p.drop (512 * j)).take 512)) ∧
              u.hbm = v.hbm ∧ u.host = v.host ∧ u.l2 = v.l2 ∧ u.clusters = v.clusters ∧ (u.core core).l1 = (v.core core).l1) ∧
            tokenIs u core o c.tok (tokenAt c.nch last fun i => i = j ∨ i ∈ c.done1)) ∧
      (∀ t2, c.kind = .fwrite → c.lay = none → c.tok2 = some t2 → c.ended1 = false → c.ended2 = false → c.done2 = [] → c.err = 0 → j ∉ c.done1 →
        (∀ e, e < 256 → u0.bufferPlaces core o c false j = .error e → ends false c.tok e ∧ ends false t2 e) ∧
        ∀ ps, u0.bufferPlaces core o c false j = .ok ps →
          ((∃ p ∈ ps, p.2.words (core / 4) 1 ≠ []) → Config.eccError s.tick = true → ends false c.tok 0x03 ∧ ends false t2 0x03) ∧
          (Config.eccError s.tick = false → s.poison = [] → taken (ps.map fun x => s.readPlace core c.readLevel x.2))))

/-- R199, R403, R404: a page of an FWRITE whose buffer has been read is what its index holds once it is programmed, and its
second token ends; where its programming fails or the flash is read only it ends with ERR 0x07, and with 0x08 where the range
is no longer the context's (log entry 97). -/
def Sys2Proof.Claims.FlashProgram : Prop :=
  ∀ (s : State) (core id tok2 : Nat) (o : Op) (c : Copy) (r : Ray), (s.core core).op id = some o → o.kind = .copy c →
    o.isOver = false → c.kind = .fwrite → c.ended1 = true → c.ended2 = false → c.nch = 32 → c.err = 0 → c.tok2 = some tok2 → tok2 ≠ c.tok →
    s.ray core o.rslot = some r → r.l = o.l → r.pos = o.pos → s.ctxFaulted o.ctx = false →
    ∃ u, exec (.flashProgramComplete core id) s = .next u ∧
      if s.flashInRange o.ctx (bits c.record 47 0) = false then tokenIs u core o tok2 (endsWith (SMap.get r.th.s 0 tok2) 0x08)
      else if 50 * s.module.spare < Config.wear 0 ∨ Config.programFails s.tick = true then
        tokenIs u core o tok2 (endsWith (SMap.get r.th.s 0 tok2) 0x07)
      else SMap.get? u.module.flash (bits c.record 47 0) = some ⟨(List.range 32).flatMap fun j => SMap.get c.buf [] j⟩ ∧
        tokenIs u core o tok2 (tokenAt 32 True fun j => j < 32)

/-- R57, R60 to R64, R180, R181, R212, R235: LDT.C and the LDT of a spatial tile give their lanes the stored elements of their unit, +0
where it was dropped, marked for LDT.C; the LDT of a tagged tile gives what Inverse reconstructs at its position; STH leaves its head and
data at its reference and every other byte as it was; FEED leaves each active lane's row word in each plane, and the tag byte in the granules. An error that an LDT's read meets is logged or poisons its
data (log entry 20). The memory is in canonical form. -/
def Obligations.TileCompletes : Prop :=
  ∀ (s : State) (core id base : Nat) (o : Op), s.memWf → runs s core id o →
    let cl := core / 4
    (∀ coef x, o.kind = .ldt coef x → base = bits x 22 0 →
      let h := (headOf ((s.cluster cl).sram.readBytes base 128)).1
      headBad h (headOf ((s.cluster cl).sram.readBytes base 128)).2 = false → bits x 40 32 < h.units →
      (coef = true → h.tag % 8 ≠ 0) → ∃ v : Nat → BitVec 128, exec (.ldtComplete core id) s =
          .next ((s.ldtMet core o).completeOp core o fun t => t.setLoad o.d 4 o.act v coef) ∧
        ∀ k < 32, bit o.act k = true → v k = if coef = true ∨ h.tag % 8 = 0 then BitVec.ofNat 128 (unitValue s cl base h (bits x 40 32) k)
          else (reconstructed s cl base h (bits x 40 32) k).setWidth 128) ∧
    (∀ k0, lowest o.act = some k0 → o.place.getD k0 .off = .scratch base →
      (∀ head data, o.kind = .sth head data → ∃ u : State, exec (.sthComplete core id) s = .next (u.completeOp core o fun t => t) ∧
        (u.cluster cl).sram.readBytes base (head.length + data.length) = head ++ data ∧
        ∀ a, (a < base ∨ base + head.length + data.length ≤ a) → (u.cluster cl).sram.read a = (s.cluster cl).sram.read a) ∧
      (∀ word planes, o.kind = .feed word planes → base % 512 = 0 → ∃ u : State,
        exec (.feedComplete core id) s = .next (u.completeOp core o fun t => t) ∧
        (∀ p < planes, ∀ k < 32, bit o.act k = true →
          sramN u cl (base + 512 * p + 4 * (32 * nbits word 5 4 + k)) 4 = planeRow o.data planes p k) ∧
        ∀ p < planes, SMap.get (u.cluster cl).gtags 0 (base / 512 + p) = BitVec.ofNat 8 (nbits word 15 8)))

/-- R201, R202, R205, R250, R334, R348, R359: an arrival at a barrier of a resident or saved beam is counted and may complete
its phase, one that names no beam is discarded, as is one at a listed beam that is neither resident nor saved (log entry 103); a BWAIT is done in the
clock after the awaited entry became final, with its RESULT; a SPAWN's lanes learn the statuses of their packets: 0x3 without a device
queue or where its priority is above the context's, 0x2 for a packet that breaks its rules, 0x1 with the queue full, and else 0x0, WR
moved by 1 (the order of the statuses is log entry 109). -/
def Sys2Proof.Claims.WaitsComplete : Prop :=
  ∀ (s : State) (core id k : Nat) (o : Op),
    (∀ v l pos b, s.arrivals[k]? = some v → (v.target = some (l, pos) ∨ (v.target = none ∧ s.addrBeam v.addr = some (l, pos))) →
      let counts (b : Beam) : Beam :=
        { b.updBar (bits v.addr 2 0) (fun x => released ⟨x.e, x.count + 1, x.phase⟩) with arrAt := (s.clock, 32) }
      (s.beam l pos = some b → ∃ u, exec (.barrierArrival k) s = .next u ∧ u.arrivals = s.arrivals.eraseIdx k ∧
        u.beam l pos = some (counts b)) ∧
      ∀ w, s.beam l pos = none → SMap.get? s.saved (beamKey l pos) = some w → v.op = none →
        ∃ u, exec (.barrierArrival k) s = .next u ∧ u.arrivals = s.arrivals.eraseIdx k ∧
          SMap.get? u.saved (beamKey l pos) = some { w with beam := counts w.beam }) ∧
    (∀ v, s.arrivals[k]? = some v → v.op = none → (v.target = none ∧ s.addrBeam v.addr = none ∨
        ∃ l pos, (v.target = some (l, pos) ∨ (v.target = none ∧ s.addrBeam v.addr = some (l, pos))) ∧ s.beam l pos = none ∧
          SMap.get? s.saved (beamKey l pos) = none) →
      exec (.barrierArrival k) s = .next { s with arrivals := s.arrivals.eraseIdx k }) ∧
    (∀ target res at_, (s.core core).op id = some o → o.done = false → o.kind = .bwait target →
      s.finalResult o.l target = some (res, at_) → at_ < s.clock →
      exec (.bwaitComplete core id) s = .next (s.completeOp core o (loadsTo o 4 fun _ => BitVec.ofNat 128 res))) ∧
    (∀ ps st, runs s core id o → o.kind = .spawn ps st → lanesIn o (fun p => ∃ h a nc, p = .phys h a nc) →
      ∃ (u : State) (v : Nat → BitVec 128), exec (.spawnComplete core id) s = .next (u.completeOp core o (loadsTo o 4 v)) ∧
        (s.deviceQueue o.ctx = none → u = s ∧ ∀ k < 32, bit o.act k = true → v k = 3) ∧
        ∀ q x c k h a nc, s.deviceQueue o.ctx = some (q, x) → SMap.get? s.ctxs o.ctx = some c → o.act = BitVec.ofNat 32 (2 ^ k) → k < 32 →
          o.place.getD k .off = .phys h a nc →
          let w := leNat ((List.range 64).map fun i => s.l1Byte core (physKey h a + i))
          let aux := (s.readAux o.ctx (nbits w 511 448)).2
          let bad : Prop := nbits w 7 0 ≠ 1 ∨ launchBad w = true ∨ (∀ r, aux = some r → auxBad r (nbits w 288 288 == 1) = true)
          let barred : Prop := x.destroyed = true ∨ x.dev = false ∨ c.maxPri < x.pri
          (barred → v k = 3) ∧ (¬ barred → bad → v k = 2) ∧ (¬ barred → ¬ bad → x.wr = x.rd + x.size → v k = 1) ∧
          (¬ barred → ¬ bad → x.rd ≤ x.wr → x.wr < x.rd + x.size → v k = 0 ∧ ∃ y, SMap.get? u.queues q = some y ∧ y.wr = x.wr + 1 ∧ y.rd = x.rd))

/-- R208, R214, R215: the oldest fork's stream begins once the last has ended and the ray's earlier writes are performed,
with m0 its argument, m1 its object and every other register 0, its object's STATE 2; an entry offset that is no clause
header of the code span ends it with STATUS 0x07. -/
def Sys2Proof.Claims.StreamBegins : Prop :=
  ∀ (s : State) (cl : Nat) (f : Fork) (rest : List Fork), (s.cluster cl).stream = none → (s.cluster cl).cmds = [] →
    (s.cluster cl).forks = f :: rest → s.forkWaits f = false →
    ∃ u x, exec (.streamBegin cl) s = .next u ∧ (u.cluster cl).stream = some x ∧ (u.cluster cl).forks = rest ∧
      u.rvState cl (bits f.obj 22 0) = 2 ∧ x.fork = f ∧ x.desc = [] ∧ x.th.live = 1 ∧ x.th.pcOf 0 = f.entry ∧ x.th.fmode = 0 ∧
      x.th.depth = 16 ∧ x.th.clause = none ∧
      (∀ n, SMap.get x.th.m 0 n = if n = 0 then f.arg else if n = 1 then f.obj else 0) ∧ (∀ n, SMap.get x.th.s 0 n = 0) ∧
      (∀ y, s.launch f.l = some y →
        (f.entry.toNat % 4 = 0 ∧ f.entry.toNat < y.header.codeSize → x.state = .running) ∧
        (f.entry.toNat % 4 ≠ 0 ∨ y.header.codeSize ≤ f.entry.toNat → x.state = .ended ∧ x.status = 0x07))

/-- R54 to R64, R218 to R231, R233, R234: the engine executes the oldest tile command and takes it off the queue: MZERO clears its
tile; MMA adds the products to it, group by group, B reconstructed where both operands are tagged; MHAAR stores its tile's coefficients,
Forward of a spatial one, but for the units that the threshold drops; MIHAAR reconstructs a tile, MTHR.TILE drops units again; a failing
one ends the stream with its STATUS, one that reads an uncorrectable error with 0x44 (which accesses meet one is log entry 95), and discards the
rest; MWAIT goes on once its flag has its value; a stream that has ended, its commands and arrivals done, writes STATE 3 and STATUS.
(That a KIND 1 operand is read in its head's format is log entry 34, the STATUS of a stream that fails twice log entry 36, how a group's
sum is rounded and B reconstructed log entry 110; that a failing command leaves every tile and its owner, and that 0x44 comes before any
other of its failures, is log entry 111.) The memory is in canonical form. -/
def Sys2Proof.Claims.StreamEvents : Prop :=
  ∀ (s : State) (cl : Nat) (x : Stream), s.memWf → (s.cluster cl).stream = some x →
    (∀ k rest, (s.cluster cl).cmds = k :: rest → s.module.throttled = false → (∀ t, k.op.tile = some t → s.takePending cl t = false) →
      ∃ u, exec (.tileCommandExecute cl) s = .next u ∧
        let fails (st : Nat) : Prop := (u.cluster cl).cmds = [] ∧ (u.cluster cl).tiles = (s.cluster cl).tiles ∧
          (u.cluster cl).stream = some { x with state := .ended, status := st, failPc := k.pc }
        let runs : Prop := (u.cluster cl).cmds = rest ∧ (u.cluster cl).stream = some x
        let runsOn (t : Nat) (tile : Tile) : Prop := runs ∧
          (u.cluster cl).tile t = tile ∧ ∀ q, q ≠ t → (u.cluster cl).tile q = (s.cluster cl).tile q
        let stores (o : Nat) (hd : Head) (data : List Byte) : Prop :=
          (u.cluster cl).sram.readBytes o (128 + data.length) = hd.bytes ++ data
        let head (o : Nat) : Head := (headOf ((s.cluster cl).sram.readBytes o 128)).1
        let broken (o : Nat) : Prop := headBad (head o) (headOf ((s.cluster cl).sram.readBytes o 128)).2 = true
        let found (t : Nat) : Tile := let y := (s.cluster cl).tile t
          if y.owner = some x.fork.ctx ∨ y.owner = none then { y with owner := some x.fork.ctx } else ⟨[], 0, true, some x.fork.ctx⟩
        let reads := s.cmdReads cl x.fork.ctx k.op
        (reads ≠ [] → Config.eccError s.tick = true → fails 0x44) ∧ (s.poisoned reads = true → fails 0x44) ∧
        (∀ t, k.op = .mzero t → runsOn t ⟨[], 0, true, some x.fork.ctx⟩) ∧
        (Config.eccError s.tick = false → s.poison = [] →
          (∀ z t da db oa ob, k.op = .mma z t da db oa ob →
            (∀ e, s.operand x cl da oa = .error e → fails e) ∧
            (∀ a e, s.operand x cl da oa = .ok a → s.operand x cl db ob = .error e → fails e) ∧
            (∀ a b, s.operand x cl da oa = .ok a → s.operand x cl db ob = .ok b →
              let tag := if a.tag ≠ 0 then a.tag ||| 8 else b.tag &&& 0xF7
              let old := found t
              (z = false → old.empty = false → old.tag.toNat ≠ tag → fails 0x42) ∧
              ((z = true ∨ old.empty = true ∨ old.tag.toNat = tag) →
                ∃ tile b', secondIs (if db.tile then 2 ^ (head (db.base + ob)).nlog else 128) a b b' ∧ runsOn t tile ∧
                  tile.tag.toNat = tag ∧ tile.empty = false ∧ tile.owner = some x.fork.ctx ∧ ∀ m < 128, ∀ n < 128,
                    tile.elem m n = mmaElem a b' da.kb m n (if z then 0 else old.elem m n)))) ∧
          (∀ t h tag fmt thr, k.op = .mhaar t h tag fmt thr → fmt ≤ 2 →
            let w := written tag.toNat
            let L := w % 8
            let old := found t
            let spatial : Prop := old.empty = true ∨ old.tag = 0
            let value (c p : Nat) : Word := if w.testBit 3 then old.elem p c else old.elem c p
            (L = 7 ∨ (¬ spatial ∧ old.tag.toNat ≠ w) → fails 0x42) ∧
            (L ≠ 7 → (spatial ∨ old.tag.toNat = w) → ∃ coef hd data, runsOn t old ∧ stores h hd data ∧ formed hd data w fmt 7 4 thr coef ∧
              ∀ c < 128, (spatial → forwardIs 128 L (value c) (coef c)) ∧ (¬ spatial → ∀ p < 128, coef c p = value c p))) ∧
          (∀ t, k.op = .mihaarTile t →
            let old := found t
            let L := old.tag.toNat % 8
            let sample (y : Tile) (c p : Nat) : Word := if bit old.tag 3 then y.elem p c else y.elem c p
            (old.tag = 0 → runsOn t old) ∧
            (old.tag ≠ 0 → ∃ tile, runsOn t tile ∧ tile.tag = 0 ∧ tile.empty = false ∧ tile.owner = some x.fork.ctx ∧
              ∀ c < 128, ∀ p < 128, sample tile c p = inverseAt (128 / 2 ^ L) (sample old c) L p)) ∧
          (∀ src dst, k.op = .mihaar src dst →
            let h := head src
            let n := 128 + 2 ^ h.nlog * h.ch * 32 * elemSize h
            let legal : Prop := engineMay s x src (tileLength h) ∧ engineMay s x dst n ∧ (dst + n ≤ src ∨ src + tileLength h ≤ dst)
            (broken src → fails 0x42) ∧ (¬ broken src → ¬ legal → fails 0x41) ∧
            (¬ broken src → legal → ∃ hd data, runs ∧ (u.cluster cl).tiles = (s.cluster cl).tiles ∧ stores dst hd data ∧
              formed hd data 0 h.fmt h.nlog h.ch 0 fun c p => reconstructed s cl src h (c / 32 * 2 ^ h.nlog + p) (c % 32))) ∧
          (∀ o hs, k.op = .mthrTile o hs →
            let h := head o
            let N := 2 ^ h.nlog
            (broken o → fails 0x42) ∧ (¬ broken o → ¬ engineMay s x o (tileLength h) → fails 0x41) ∧
            (¬ broken o → engineMay s x o (tileLength h) → runs ∧ (u.cluster cl).tiles = (s.cluster cl).tiles ∧
              (h.tag % 8 = 0 → (u.cluster cl).sram = (s.cluster cl).sram) ∧
              (h.tag % 8 ≠ 0 → ∃ hd data, stores o hd data ∧ { hd with count := h.count, bitmap := h.bitmap } = h ∧
                (∀ v, hd.bitmap.testBit v = true ↔ v < N * h.ch ∧ h.bitmap.testBit v = true ∧ (v % N < N / 2 ^ (h.tag % 8) ∨
                  ¬ drops (hs.getD (h.tag / 16) 0) fun i => f32val (BitVec.ofNat 32 (unitValue s cl o h v i)))) ∧
                let present := (List.range (N * h.ch)).filter fun v => hd.bitmap.testBit v
                hd.count = present.length ∧ data = present.flatMap fun v =>
                  (s.cluster cl).sram.readBytes (o + 128 + storedBefore h v * 32 * elemSize h) (32 * elemSize h)))))) ∧
    (∀ f v eq, x.state = .mwait f v eq → (if eq then s.scratchN cl f 8 = v.toNat else v.toNat ≤ s.scratchN cl f 8) →
      exec (.mwaitRelease cl) s = .next (s.setCluster cl { s.cluster cl with stream := some { x with state := .running } })) ∧
    (x.state = .ended → (s.cluster cl).cmds = [] → (∀ a ∈ s.arrivals, a.msig ≠ some cl) → x.status < 256 →
      ∃ u : State, exec (.streamEnd cl) s = .next (u.settleJoins cl) ∧ (u.cluster cl).stream = none ∧
        u.rvState cl (bits x.fork.obj 22 0) = 3 ∧ u.rvStatus cl (bits x.fork.obj 22 0) = x.status)

/-- R256 to R258, R380: at a boundary where nothing comes before it, a frontier count or else a wait that has reached its limit
parks the ray and queues an event of KIND 0x4 whose record names the kind of wait, the barrier, the ray, the role and the core. (How frontiers and waits are counted is log entry 78.) -/
def Sys2Proof.Claims.LoupeReports : Prop :=
  ∀ (s : State) (core rslot : Nat) (r : Ray), s.ray core rslot = some r → s.loupeTurn core rslot r = true →
    let reports (i : Instr) (kind bar : Nat) (parked : Mask) : Prop := ∃ u e, exec i s = .next u ∧
      u.ray core rslot = some { r with parked := some .loupe } ∧ eventRaised (s.core core) (u.core core) e ∧
      bits e 31 28 = 4 ∧ bits e 63 54 = s.ctxOf r.l % 1024 ∧ bits e (128 + 31) (128 + 28) = kind ∧ bits e (128 + 18) (128 + 16) = bar ∧
      bits e (128 + 25) (128 + 21) = r.rayId % 32 ∧ bits e (128 + 9) 128 = core % 1024 ∧ bits e 255 (128 + 96) = parked.toNat
    (s.frontierDue r = true → reports (.loupeFrontierReport core rslot) 1 0 (r.th.live &&& ~~~r.lastEntered)) ∧
    (s.frontierDue r = false → s.waitDue r = true → ∀ x, r.waiting = some x →
      reports (.loupeWaitReport core rslot)
        (match x.kind with | .barrier _ => 2 | .calendar => 3 | .fifo => 4 | .join => 5)
        (match x.kind with | .barrier b => b % 8 | _ => 0) 0)

/-! ### Queues, launches, pages and beams (R241 to R261, R311 to R359, R374) -/

namespace Sys2Proof.Claims

/-- An entry of a launch stands in a state of the pipeline. -/
def entryAt (s : State) (l pos : Nat) (x : Launch) (e : Entry) (st : EntryState) : Prop :=
  s.launch l = some x ∧ SMap.get? x.entries pos = some e ∧ e.state = st

/-- After an event an entry is another, and no other entry of the launch has changed. -/
def entryIs (u : State) (l pos : Nat) (x : Launch) (e : Entry) : Prop :=
  ∃ y, u.launch l = some y ∧ SMap.get? y.entries pos = some e ∧ ∀ q, q ≠ pos → SMap.get? y.entries q = SMap.get? x.entries q

/-- An entry is FINAL with RESULT 1 and a CAUSE (R317, R332). -/
def entryFails (u : State) (l pos cause : Nat) : Prop :=
  ∃ y e, u.launch l = some y ∧ SMap.get? y.entries pos = some e ∧ e.state = .final ∧ e.result = 1 ∧ e.cause = cause

/-- The launches other than one, and everything that is no launch, are as they were. -/
def onlyLaunch (s u : State) (l : Nat) : Prop :=
  { u with launches := [] } = { s with launches := [] } ∧ ∀ k, k ≠ l → u.launch k = s.launch k

/-- Events of a queue that leave no trace but in it: nothing is cut off, no signal address is named. -/
def queueIs (u : State) (q : Nat) (p : Queue → Prop) : Prop := ∃ x, SMap.get? u.queues q = some x ∧ p x

end Sys2Proof.Claims

/-- R337, R338, R346, R395, R397, R401: a doorbell of the queue's own function moves WR up to the value rung, within the ring, and
the header of packet RD is read again; it is ignored where it would move WR back, beyond the ring, or rings another's or a device queue (which of these are ignored, and the header's reading at once, is log entry 45). A poll
reads the header of packet RD where one is published. -/
def Sys2Proof.Claims.QueueDoorbells : Prop :=
  ∀ (s : State) (fn q : Nat) (wr : DWord) (x : Queue) (c : Ctx), SMap.get? s.queues q = some x → SMap.get? s.ctxs x.ctx = some c →
    (s.answers fn = false ∨ x.dev = true ∨ x.destroyed = true ∨ c.fn ≠ fn ∨ wr.toNat < x.wr ∨ x.rd + x.size < wr.toNat → exec (.qdoor fn q wr) s = .next s) ∧
    (x.dev = false → x.destroyed = false → c.fn = fn → x.wr ≤ wr.toNat → wr.toNat ≤ x.rd + x.size → fn ≤ 15 → (s.fnOf fn).tdisp ≠ .error →
      ∃ u, exec (.qdoor fn q wr) s = .next u ∧ queueIs u q fun y => y.wr = wr.toNat ∧ y.rd = x.rd ∧ y.halt = x.halt) ∧
    (∃ u, exec (.queueHeaderPoll q) s = .next u ∧ { u with queues := [] } = { s with queues := [] } ∧
      queueIs u q fun y => { y with header := 0 } = { x with header := 0 } ∧
        ∀ bs, x.rd < x.wr → s.readVirt x.ctx (x.base + 64 * (x.rd % 2 ^ x.log2n)) 8 = some bs → y.header = BitVec.ofNat 64 (leNat bs))

/-- R338, R339, R343, R346: the device takes the packet at RD of a queue that no other takeable queue comes before: RD moves by 1
and a launch packet becomes a launch with the packet's fields. An evaluation of a barrier packet reads some of its signals, or
all that are left (how many at a time is the model's choice, log entry 114): with every one 0 the packet is done and leaves the queue's
list, with a negative one it aborts, and else it stays. -/
def Sys2Proof.Claims.PacketTake : Prop :=
  ∀ (s : State) (q : Nat) (x : Queue) (bs : List Byte), SMap.get? s.queues q = some x →
    (x.takeable = true → (∀ k y, (k, y) ∈ s.queues → k ≠ q → y.takeable = true → y.before x = false) →
      s.readVirt x.ctx (x.base + 64 * (x.rd % 2 ^ x.log2n)) 64 = some bs → nbits (leNat bs) 7 0 = 1 →
      ∃ u y, exec (.packetTake q) s = .next u ∧ (queueIs u q fun z => z.rd = x.rd + 1 ∧ z.wr = x.wr) ∧
        u.nextLaunch = s.nextLaunch + 1 ∧ u.launch s.nextLaunch = some y ∧ y.ctx = x.ctx ∧ y.queue = q ∧ y.begun = false ∧
        y.isOver = false ∧ y.kernel = nbits (leNat bs) 127 64 ∧ y.params = BitVec.ofNat 64 (nbits (leNat bs) 191 128) ∧
        y.plist = nbits (leNat bs) 255 192 ∧ y.nent = nbits (leNat bs) 287 256 ∧ y.compl = nbits (leNat bs) 383 320 ∧
        y.signal = nbits (leNat bs) 447 384 ∧ (y.hsrc = true ↔ nbits (leNat bs) 288 288 = 1)) ∧
    ∀ p, x.barriers = [p] → p.reads = [] → nbits (leNat p.bytes) 511 448 = 0 → nbits (leNat p.bytes) 8 8 = 0 →
      let whole : Prop := p.sigs.length ≤ 1 ∨ Config.pick s.tick % p.sigs.length = 0
      let spent : State := { s with tick := s.tick + 1, queues := SMap.put s.queues q { x with barriers := [] } }
      let waits : Prop := ∃ u, exec (.barrierPacketEvaluate q) s = .next u ∧
        queueIs u q fun y => { y with barriers := [] } = { x with barriers := [] } ∧ y.barriers.map (·.bytes) = [p.bytes]
      (∀ a ∈ p.sigs, s.signal x.ctx a = some 0) →
        ((whole → exec (.barrierPacketEvaluate q) s = .next spent.signalled) ∧ (¬ whole → waits)) ∧
      ((∃ a ∈ p.sigs, ∃ v, s.signal x.ctx a = some v ∧ v.testBit 63 = true) →
        ((whole → exec (.barrierPacketEvaluate q) s = .next (spent.raiseQueue q).signalled) ∧ (¬ whole → waits))) ∧
      ((∃ a ∈ p.sigs, ∀ v, s.signal x.ctx a = some v → v ≠ 0) → (∀ a ∈ p.sigs, ∀ v, s.signal x.ctx a = some v → v.testBit 63 = false) →
        waits)

/-- R203, R294, R295, R314, R344, R349, R374: a launch begins with its header, its regions and its context's next serial once its
packet, header and region binding table hold, or ends with CODE 0x04, 0x02 or 0x03 (an unreadable header as 0x02, an unreadable table as
0x03: log entry 47; what a refused launch does: log entry 48); the oldest mergeable child of a queue and those like it are given their merge
once no further child can join, and begin no sooner; those of a faulted context begin together without a header (log entry 49); a launch
whose entries are all FINAL makes its closing writes and is over, as do the
launches of a merge together, whose entries write no completion word before. -/
def Obligations.LaunchEvents : Prop :=
  (∀ (s : State) (q l1 : Nat) (x1 : Launch), (s.launches.find? fun (_, y) => y.mergeable && y.queue == q) = some (l1, x1) →
    let ks := ((s.launches.filter fun (_, y) => y.mergeable && y.queue == q && y.kernel == x1.kernel && y.thrb == x1.thrb &&
      y.hsrc == x1.hsrc && decide (y.takenAt ≤ x1.takenAt + 7600)).take 64).map (·.1)
    2 ≤ ks.length → (ks.length = 64 ∨ x1.takenAt + 7600 < s.clock) →
    ∃ u, exec (.aggregatorMerge q) s = .next u ∧ { u with launches := [] } = { s with launches := [] } ∧
      ∀ k, u.launch k = (s.launch k).map fun y => if k ∈ ks then { y with merge := ks } else y) ∧
  ∀ (s : State) (l : Nat) (x : Launch), s.launch l = some x → x.isOver = false →
    (x.begun = false → x.bad = true → ∃ u, exec (.launchBegin l) s = .next (u.endLaunch l 0x04 0) ∧ u = s.leaveMerge l) ∧
    (x.begun = false → x.bad = false → s.awaitsMerge l x = false → s.ctxFaulted x.ctx = false → x.merge = [] →
      (s.kernelHeader x.ctx x.kernel = none → exec (.launchBegin l) s = .next (s.endLaunch l 0x02 0)) ∧
      (∀ h, s.kernelHeader x.ctx x.kernel = some h →
        (s.regionTable x.ctx = none → exec (.launchBegin l) s = .next (s.endLaunch l 0x03 0)) ∧
        (∀ rs c, s.regionTable x.ctx = some rs → SMap.get? s.ctxs x.ctx = some c → ∃ u, exec (.launchBegin l) s = .next u ∧
          u.launch l = some { x with begun := true, serial := c.serials, header := h, regions := rs } ∧
          SMap.get? u.ctxs x.ctx = some { c with serials := (c.serials + 1) % 2048 }))) ∧
    (s.awaitsMerge l x = true → exec (.launchBegin l) s = .next s) ∧
    (x.begun = false → x.bad = false → s.awaitsMerge l x = false → s.ctxFaulted x.ctx = true → ∃ u, exec (.launchBegin l) s = .next u ∧
      ∀ k, u.launch k = (s.launch k).map fun y =>
        if k ∈ (if x.merge = [] then [l] else x.merge) ∧ y.bad = false ∧ y.isOver = false then { y with begun := true } else y) ∧
    (x.begun = true → x.merge = [] → x.nent ≤ x.nextPos → (∀ p e, (p, e) ∈ x.entries → e.state = .final) →
      exec (.launchComplete l) s = .next (s.closeLaunch l)) ∧
    (x.merge ≠ [] → (∀ k ∈ x.merge, ∀ y, s.launch k = some y → y.isOver = false → y.begun = true ∧ y.nent ≤ y.nextPos ∧
        ∀ p e, (p, e) ∈ y.entries → e.state = .final) →
      exec (.launchComplete l) s = .next (x.merge.foldl (fun s k => match s.launch k with
        | some y => if y.isOver then s else s.closeLaunch k
        | none => s) s)) ∧
    (∀ pos e result cause core, x.merge ≠ [] → s.sameMem (s.finalEntry l pos e result cause core))

/-- R315 to R325: an entry's way through the pipeline: it is read once and checked, a bad one fails with cause 0x03, as does one with NOPAGE and a codec or selector;
translated, or fails with 0x02; sensed with a slot of its channel; decoded, or sensed again at the next step, or fails
with 0x01; fetched from HBM or host memory at its home; decompressed with a prologue buffer, or fails with the codec's
cause; and transformed step by step, or fails with 0x06, as does a selector above NSEL or without steps. -/
def Obligations.PagePipeline : Prop :=
  ∀ (s : State) (l pos : Nat) (x : Launch) (e : Entry),
    (s.launch l = some x → SMap.get? x.entries pos = none → x.begun = true → x.isOver = false → pos = x.nextPos → pos < x.nent →
      s.launchFirst l x = true → s.ctxFaulted x.ctx = false → ∀ bs, s.readVirt x.ctx (x.plist + 8 * pos) 8 = some bs →
      let raw : DWord := BitVec.ofNat 64 (leNat bs)
      ∃ u, exec (.pageEntryTake l pos) s = .next u ∧
        (bits raw 63 60 = 0 → bits raw 59 59 = 0 → bits raw 58 56 ≤ 3 →
          entryIs u l pos x { Entry.fresh raw with state := if x.hsrc then .fetch else .translate }) ∧
        (bits raw 63 60 = 0 → bits raw 59 59 = 1 → bits raw 58 48 = 0 →
          entryIs u l pos x { Entry.fresh raw with state := .window }) ∧
        (bits raw 63 60 ≠ 0 ∨ 4 ≤ bits raw 58 56 ∨ (bits raw 59 59 = 1 ∧ bits raw 58 48 ≠ 0) → entryFails u l pos 0x03)) ∧
    (entryAt s l pos x e .translate → ∃ u, exec (.pageTranslate l pos) s = .next u ∧
      (s.flashData x.ctx (bits e.raw 47 0) = none → entryFails u l pos 0x02) ∧
      (s.flashData x.ctx (bits e.raw 47 0) ≠ none → entryIs u l pos x { e with
        state := .sense 0, channel := Config.flashChannel (bits e.raw 47 0) % 64, phys := Config.flashPhysical (bits e.raw 47 0) })) ∧
    (∀ k, entryAt s l pos x e (.sense k) → (e.slot ≠ none ∨ s.countEntries (fun y => y.slot == some e.channel) < 8) →
      ∀ d, s.flashData x.ctx (bits e.raw 47 0) = some d → ∃ u, exec (.flashSense l pos) s = .next u ∧
        entryIs u l pos x { e with state := .decode k, slot := some e.channel, data := d, retry := k } ∧ onlyLaunch s u l) ∧
    (∀ k, entryAt s l pos x e (.decode k) → ∃ u, exec (.ldpcDecode l pos) s = .next u ∧
      if Config.corrects s.tick then entryIs u l pos x { e with state := .decompress }
      else if k < s.module.retrySteps then entryIs u l pos x { e with state := .sense (k + 1), data := [] }
      else entryFails u l pos 0x01) ∧
    (entryAt s l pos x e .fetch → ∃ u, exec (.pageFetch l pos) s = .next u ∧
      (s.walk x.ctx (x.srcBase + 16384 * bits e.raw 47 0) = none → entryFails u l pos 0x07) ∧
      ∀ t, s.walk x.ctx (x.srcBase + 16384 * bits e.raw 47 0) = some t → t.host = false →
        let k := t.pa + (x.srcBase + 16384 * bits e.raw 47 0 - t.va)
        k + 16384 ≤ 384 * 2 ^ 30 →
        (Config.eccError s.tick = true → entryFails u l pos 0x07) ∧
        (Config.eccError s.tick = false → s.poison = [] → entryIs u l pos x { e with state := .decompress, data := (List.range 16384).map fun i => s.homeByte (k + i) })) ∧
    (entryAt s l pos x e .decompress → s.countEntries (fun y => y.buffer == some (s.sourceDie x pos e)) < 16 →
      ∃ u, exec (.pageDecompress l pos) s = .next u ∧
        (∀ c, decompress (bits e.raw 58 56) e.data = .error c → entryFails u l pos c) ∧
        (∀ d, decompress (bits e.raw 58 56) e.data = .ok d → entryIs u l pos x { e with
          state := if bits e.raw 55 48 = 0 then .window else .transform 1, data := d, slot := none
          buffer := some (s.sourceDie x pos e) })) ∧
    (∀ i ws w, entryAt s l pos x e (.transform i) → x.header.bindings[bits e.raw 55 48 - 1]? = some ws → ws[i - 1]? = some w → w ≠ 0 →
      bits e.raw 55 48 ≤ x.header.nsel → bits w 3 0 ≠ 2 →
      ∃ u, exec (.pageTransform l pos) s = .next u ∧
        (∀ d, applyStep w.toNat (s.blockThr x w) e.data = some d → entryIs u l pos x { e with
          state := (match ws[i]? with | some w' => if w' = 0 then .window else .transform (i + 1) | none => .window), data := d }) ∧
        (applyStep w.toNat (s.blockThr x w) e.data = none → entryFails u l pos 0x06)) ∧
    (∀ i, entryAt s l pos x e (.transform i) → (x.header.nsel < bits e.raw 55 48 ∨
        ∀ ws w, x.header.bindings[bits e.raw 55 48 - 1]? = some ws → ws[i - 1]? = some w → w = 0) →
      ∃ u, exec (.pageTransform l pos) s = .next u ∧ entryFails u l pos 0x06)

/-- R261, R327 to R331: a window of the landed size, at least 32 KiB, is carved clear of every other and zeroed on the chosen
cluster, whose landed entries wait fewest; landing writes the page into it, frees the buffer and numbers the landing. The memory is in
canonical form. -/
def Sys2Proof.Claims.WindowsLand : Prop :=
  ∀ (s : State) (l pos cl : Nat) (x : Launch) (e : Entry), s.memWf →
    (entryAt s l pos x e .window → x.header.gang ≤ 1 →
      let size := max 0x8000 ((e.data.length + 0x7FFF) / 0x8000 * 0x8000)
      s.chooseCluster x pos pos e (fun k => !((s.cluster k).carvable size).isEmpty) = some cl →
      (s.cluster cl).carvable size ≠ [] → (∀ k p, p ∈ (s.cluster k).windows → ¬ (p.l = l ∧ p.pos = pos)) →
      ∃ u ofs, exec (.windowCarve l pos) s = .next u ∧ ofs ∈ (s.cluster cl).carvable size ∧
        (u.cluster cl).windows = (s.cluster cl).windows ++ [⟨ofs, size, l, pos, false⟩] ∧
        (∀ a, ofs ≤ a → a < ofs + size → (u.cluster cl).sram.read a = 0) ∧
        entryIs u l pos x { e with state := .landing, cluster := cl, winOfs := ofs, winSize := size }) ∧
    (entryAt s l pos x e .landing → ∃ u, exec (.pageLanding l pos) s = .next u ∧
      (u.cluster e.cluster).sram.readBytes e.winOfs e.data.length = e.data ∧ u.landings = s.landings + 1 ∧
      entryIs u l pos x { e with state := .landed, data := [], buffer := none, order := s.landings, landedAt := s.clock })

/-- R13, R33, R162, R241 to R243, R252, R331, R332, R347: a landed beam that nothing precedes is placed on a core of its
cluster where it fits, a gang together once all its members are ready; a beam whose rays have ended and operations are
over leaves its core, and its entry is FINAL with its RESULT; so is that of a saved beam whose rays have ended. (What waits, and
that one without room for its save record holds nothing back, is log entry 50.) -/
def Sys2Proof.Claims.BeamEvents : Prop :=
  ∀ (s : State) (l pos : Nat) (x : Launch) (e : Entry),
    (entryAt s l pos x e .landed → x.header.gang ≤ 1 → s.mayPlace x.ctx = true →
      s.isNext e.cluster (x.candidate l pos) = true →
      ∀ core room c, s.chooseCore e.cluster x.ctx x.header = some core → SMap.get? s.ctxs x.ctx = some c →
      c.findRoom (x.header.room e.winSize) = some room →
      ∃ u b, exec (.beamPlace l pos) s = .next u ∧ u.beam l pos = some b ∧ b.core = core ∧ b.ctx = x.ctx ∧
        b.rays.length = x.header.rays ∧ b.h = List.replicate 16 0 ∧ b.result = 0 ∧
        b.bars = List.replicate 8 ⟨x.header.rays, 0, 0⟩ ∧ b.codeBase = x.kernel + x.header.codeOfs ∧
        (u.core core).freeRegs = (s.core core).freeRegs - x.header.regs ∧
        entryIs u l pos x
          { e with state := .running, core := core, die := e.cluster / 36, room := some room }) ∧
    (entryAt s l pos x e .landed → 1 < x.header.gang → s.mayPlace x.ctx = true →
      (∀ p ∈ gangMembers x.header.gang x.nent pos, ∃ y, SMap.get? x.entries p = some y ∧ (y.state = .landed ∨ y.state = .final)) →
      s.isNext e.cluster (x.candidate l pos) = true →
      ∀ u, placeGang l (gangMembers x.header.gang x.nent pos) s = some u → exec (.gangPlace l pos) s = .next u) ∧
    (∀ b, s.launch l = some x → SMap.get? x.entries pos = some e → s.beam l pos = some b → s.beamDone l pos b = true →
      ∃ u y, exec (.beamComplete l pos) s = .next u ∧ u.beam l pos = none ∧ (∀ k ∈ b.rays, u.ray b.core k = none) ∧
        (u.core b.core).freeRegs = (s.core b.core).freeRegs + x.header.regs ∧
        u.launch l = some y ∧ ∃ e', SMap.get? y.entries pos = some e' ∧ e'.state = .final ∧ e'.result = b.result ∧
          e'.cause = (if b.result = 3 then 8 else 0) ∧ e'.core = b.core) ∧
    (∀ v, s.launch l = some x → SMap.get? x.entries pos = some e → s.beam l pos = none → SMap.get? s.saved (beamKey l pos) = some v →
      v.dead = true → (∀ o ∈ v.ops, o.isOver = true) →
      ∃ u y, exec (.beamComplete l pos) s = .next u ∧ SMap.get? u.saved (beamKey l pos) = none ∧
        u.launch l = some y ∧ ∃ e', SMap.get? y.entries pos = some e' ∧ e'.state = .final ∧ e'.result = v.beam.result)

/-- R253, R350 to R352: a trigger that holds decides a beam and its gang once: drain from the upper progress limit on, flush of an
idempotent kernel below the lower one, else save, and the charges on their cores return to 0; a slice that has expired decides each of the
context's beams on its core for which another waits, and a terminated beam is none of them; a drain not complete DRAINMAX clocks after
it becomes a save, but for streams. (That the charges of every context on the core are cleared is log entry 58, the estimate of progress
log entry 91, which trigger holds log entries 50, 104 and 132.) -/
def Sys2Proof.Claims.Preemption : Prop :=
  ∀ (s : State) (l pos : Nat) (b : Beam) (x : Launch), s.launch l = some x → 0 < x.header.gang → pos < x.nent → s.beam l pos = some b →
    let resident (q : Nat) (m : Beam) : Prop := q ∈ gangMembers x.header.gang x.nent pos ∧ s.beam l q = some m
    let streams : Prop := ∃ q m, resident q m ∧ m.streams ≠ 0
    (∀ t i, t ≠ .bwait → s.triggered l pos b t = true → b.halted = false → b.choice = none → pos < 2 ^ 32 →
      (∀ k y, s.launch k = some y → y.nent ≤ 2 ^ 32) →
      (i = Instr.preemptDecision l pos t ∨ (t = .slice ∧ i = .sliceExpiry b.core b.ctx)) →
      ∃ u c, exec i s = .next u ∧
        (¬ streams → c = if s.module.drainHi ≤ s.progress l pos then .drain s.clock
          else if x.header.idem ∧ s.progress l pos < s.module.flushLo then .flush else .save false) ∧
        (streams → c = if x.header.idem ∧ s.progress l pos < s.module.flushLo then .flush else .drain s.clock) ∧
        ∀ q m, resident q m → u.beam l q = some { m with choice := if m.halted then m.choice else some c, cause := some t } ∧
          ∀ ctx, SMap.get (u.core m.core).charge 0 ctx = 0) ∧
    (∀ core ctx, s.sliceOver core ctx = false → exec (.sliceExpiry core ctx) s = .next s) ∧
    (∀ since, b.choice = some (.drain since) → since + s.module.drainMax ≤ s.clock → ¬ streams →
      ∃ u, exec (.drainTimeout l pos) s = .next u ∧ { u with beams := [] } = { s with beams := [] } ∧
        ∀ q m, resident q m → u.beam l q = some { m with choice := if m.halted then m.choice else some (.save false) })

/-- R253, R335, R354 to R359: a beam to be saved and its gang, once their rays stand at boundaries, leave their cores together with their
rays, windows and operations in their save records, whether or not their rays have ended; the failures that a parked ray has not reported go
with it and keep their record slots (log entry 123), those of an ended one are reported; flushed ones leave together, their entries
TAKEN again and what they had under way cancelled; a BWAIT of a saved beam is answered into the record; eligible saved beams return at their own windows with their rays' registers, and leave the records,
their operations issued again in their order, one that can no longer reach its bank refused (log entry 124). (When a beam can be saved is
log entry 56, what a flush leaves log entry 57, when one that waits for an absent beam is saved log entry 58, where it resumes log entry 77.) -/
def Sys2Proof.Claims.SaveAndResume : Prop :=
  ∀ (s : State) (l pos : Nat) (x : Launch) (e : Entry), s.launch l = some x → 0 < x.header.gang → pos < x.nent →
    SMap.get? x.entries pos = some e →
    let members := gangMembers x.header.gang x.nent pos
    let resident := members.filterMap fun q => (s.beam l q).map fun m => (q, m)
    let flushed := resident.filter fun p => !p.2.halted
    let reported (r : Ray) : Ray := if r.th.live = 0 then { r with dueStore := [], awaiting := false, dueWb := [] }
      else r
    (∀ b r335, s.beam l pos = some b → b.choice = some (.save r335) → (∀ p ∈ resident, s.savable l p.1 p.2 = true) →
      exec (.beamSave l pos) s = .next (resident.foldl (fun u p => u.saveBeam l p.1 p.2) s)) ∧
    (∀ b, s.beam l pos = some b → ∃ u v, u = s.saveBeam l pos b ∧ u.beam l pos = none ∧ SMap.get? u.saved (beamKey l pos) = some v ∧
      v.rays = b.rays.filterMap (fun k => (s.ray b.core k).map fun r => (reported r).saved) ∧
      v.ops = (s.core b.core).ops.filter (fun o => o.l == l && o.pos == pos) ∧
      v.window = (s.cluster b.cluster).sram.readBytes b.winOfs b.winSize ∧ (∀ k ∈ b.rays, u.ray b.core k = none) ∧
      (u.core b.core).recs = (s.core b.core).recs ∧ ∃ y, u.launch l = some y ∧ SMap.get? y.entries pos = some { e with state := .saved }) ∧
    (∀ b, s.beam l pos = some b → b.choice = some .flush →
      (∀ p ∈ flushed, s.atBoundary p.2 = true ∧ p.2.streams = 0 ∧
        ∀ o ∈ s.opsOf l p.1 p.2, o.isOver = true ∨ (o.replayable = true ∧ o.awaitsSlot = false)) →
      exec (.beamFlush l pos) s = .next (flushed.foldl (fun u p => u.discardBeam l p.1 p.2) s)) ∧
    (∀ b, s.beam l pos = some b → ∃ u, u = s.discardBeam l pos b ∧ u.beam l pos = none ∧ (∀ k ∈ b.rays, u.ray b.core k = none) ∧
      (∀ o ∈ (u.core b.core).ops, ¬ (o.l = l ∧ o.pos = pos)) ∧
      ∃ y, u.launch l = some y ∧ SMap.get? y.entries pos = some (Entry.fresh e.raw)) ∧
    (∀ v id o t res at_, SMap.get? s.saved (beamKey l pos) = some v → (v.ops.find? fun o => o.id == id) = some o →
      o.kind = .bwait t → o.done = false → s.finalResult l t = some (res, at_) → at_ < s.clock →
      ∃ u w, exec (.replyIntoSaveRecord l pos id) s = .next u ∧ SMap.get? u.saved (beamKey l pos) = some w ∧
        SMap.get? w.bwaits o.rslot = some (t, res) ∧ w.window = v.window) ∧
    (∀ v t cl, SMap.get? s.saved (beamKey l pos) = some v → s.resumeCluster (beamKey l pos) = some cl →
      (s.groupPast l pos = true ∨ v.eligible ≠ none) → s.mayPlace x.ctx = true → s.mayResume (beamKey l pos) = true →
      s.isNext cl (s.savedCandidate (beamKey l pos) v) = true → restoreGroup l cl members s = some t →
      exec (.beamResume l pos) s = .next (((s.savedGroup (beamKey l pos)).map (·.1)).foldl (fun t q => t.refuseOps l q) t)) ∧
    (∀ v u cl, s.restoreBeam l pos cl v = some u → SMap.get? u.saved (beamKey l pos) = none ∧
      ∃ b, u.beam l pos = some b ∧ b.winOfs = v.beam.winOfs ∧ b.h = v.beam.h ∧ b.bars = v.beam.bars ∧ b.cluster = cl ∧
        (u.core b.core).ops.map (fun o => { o with id := 0, rslot := 0 }) =
          ((s.core b.core).ops ++ v.ops).map (fun o => { o with id := 0, rslot := 0 }) ∧
        (u.core b.core).ro = [] ∧ ∀ q ∈ (u.core b.core).l1.bytes, q.2.2 = true) ∧
    (∀ core o, let asks (k : Nat) : Prop := k < 32 ∧ bit o.act k = true ∧ bit o.served k = false ∧ bit o.failed k = false
      let lost (p : Place) : Prop := match p with
        | .scratch a => ∃ y ∈ s.accessBytes (core / 4) o a, ∃ i < y.2, s.byteReach false o.l o.pos (y.1 + i) = false
        | .fifo n => let k := (s.cluster (core / 4)).bank n; ¬ (k.mode = .fifo ∧ k.owner = some o.ctx ∧ k.sw = false)
        | _ => False
      ((∀ k, asks k → ¬ lost (o.place.getD k .off)) → s.refuseOp core o = s) ∧
      ∀ k0 r, asks k0 → lost (o.place.getD k0 .off) → (∀ k < k0, asks k → ¬ lost (o.place.getD k .off)) →
        (s.completeOp core o id).ray core o.rslot = some r →
        (r.parked ≠ none → s.refuseOp core o = s.completeOp core o id) ∧
        (r.parked = none → ∃ t, s.refuseOp core o = (s.completeOp core o id).takeTrap core o.rslot .clauseTrap t ∧ t.pc = o.pc ∧
          ((∃ a, o.place.getD k0 .off = .scratch a) → t.cause = 0x32) ∧ ((∃ n, o.place.getD k0 .off = .fifo n) → t.cause = 0x33)))

/-! ### Lanterns, the supervisor core, the host and the module (R288, R336 to R345, R360 to R373, R384 to R416) -/

namespace Sys2Proof.Claims

/-- A command block of OP at an address, its reserved bytes 0, its arguments in 8-byte words from byte 8 (R398). -/
def blockIs (s : State) (blk : DWord) (op : Nat) (args : Nat → Nat) : Prop :=
  blk.toNat % 64 = 0 ∧ (s.block blk.toNat).op = op ∧ (s.block blk.toNat).clean = true ∧ ∀ j < 7, (s.block blk.toNat).args.getD j 0 = args j

/-- A function that takes a command now, on a module that runs a supervisor image (R396, R398, R410). -/
def commands (s : State) (fn : Nat) : Prop :=
  fn ≤ 15 ∧ (s.fnOf fn).busy = false ∧ (s.fnOf fn).tdisp ≠ .error ∧ (s.fnOf fn).doing = none ∧
  (s.module.boot = .trial ∨ s.module.boot = .confirmed) ∧ s.module.tripped = false

/-- The state after a command of a function with a status: STATUS is written to its block, CMDSTAT takes it, vector 0 is raised (R398, R399). -/
def answered (fn : Nat) (blk : DWord) (status : Nat) (u : State) : State :=
  ((u.hostWrite (blk.toNat + 2) (leBytes 2 status)).updFn fn fun f => { f with busy := false, status := status, doing := none }).updFn fn
    fun f => f.raise 0

/-- The state as a command finds it: its address is kept. -/
def called (s : State) (fn : Nat) (blk : DWord) : State := s.updFn fn fun f => { f with cmdAddr := blk.toNat }

/-- Two states differ in their functions' interfaces, their memory, its caches and the log alone. -/
def keepsWork (s u : State) : Prop :=
  u.beams = s.beams ∧ u.launches = s.launches ∧ u.saved = s.saved ∧ u.clusters = s.clusters ∧
  { u.module with log := [], seq := 0 } = { s.module with log := [], seq := 0 }

end Sys2Proof.Claims

/-- R361 to R365, R397, R415: a send that reaches its unit sets its vector's pending bit, counts up to 255 and keeps the last
payload where an entry permits it, and its sender learns the status, 0x3 where its route has lost the link; LNPAY keeps a slot's payload and LNDOOR sends
with it. -/
def Sys2Proof.Claims.LanternEvents : Prop :=
  ∀ (s : State) (k fn slot : Nat) (v : DWord),
    (∀ x c, s.lnsends[k]? = some x → bits x.desc 16 16 = 0 → SMap.get? s.ctxs (bits x.desc 15 6) = some c → c.lntab ≠ 0 →
      c.faulted = false → (∀ f j, x.sender = .host f j → f = c.fn) →
      let n := bits x.desc 5 0
      ∃ u c', exec (.lanternRecord k) s = .next u ∧ u.lnsends = s.lnsends.eraseIdx k ∧
        SMap.get? u.ctxs (bits x.desc 15 6) = some c' ∧ c'.lnmask = c.lnmask ∧
        (s.permitted (bits x.desc 15 6) c x.sender n false = true →
          bit c'.lnpend n = true ∧ (SMap.get c'.vecs ⟨0, 0, false⟩ n).payload = x.payload ∧
          (SMap.get c'.vecs ⟨0, 0, false⟩ n).count =
            (if bit c.lnpend n then min ((SMap.get c.vecs ⟨0, 0, false⟩ n).count + 1) 255 else 1)) ∧
        (s.permitted (bits x.desc 15 6) c x.sender n false = false → c' = c) ∧
        ∀ ctx core rslot r, x.sender = .ray ctx core rslot → s.ray core rslot = some r → r.stall = some .lnsend →
          ∃ r', u.ray core rslot = some r' ∧ r'.th = r.th ∧ r'.stall = some (.answered
            (if s.permitted (bits x.desc 15 6) c x.sender n false then 0 else 1))) ∧
    (∀ x ctx core rslot r, s.lnsends[k]? = some x → bits x.desc 16 16 = 1 → x.sender = .ray ctx core rslot →
      Config.route (bits x.desc 36 17) % 18 ∈ s.module.linksDown → s.ray core rslot = some r → r.stall = some .lnsend →
      ∃ u, exec (.lanternRecord k) s = .next u ∧ u.ray core rslot = some { r with stall := some (.answered 3) }) ∧
    (slot ≤ 255 → fn ≤ 15 → (s.fnOf fn).tdisp ≠ .error →
      (∃ u, exec (.lnpay fn slot v) s = .next u ∧ SMap.get (u.fnOf fn).slots (0, 0) slot = (v, (SMap.get (s.fnOf fn).slots (0, 0) slot).2) ∧
        { u with fns := [] } = { s with fns := [] }) ∧
      exec (.lndoor fn slot v) s = .next { s with
        lnsends := s.lnsends ++ [⟨.host fn slot, v, (SMap.get (s.fnOf fn).slots (0, 0) slot).1⟩] })

/-- R22, R366 to R368, R373: at a boundary where nothing comes first the lowest deliverable vector's handler ray saves vpc,
predicates, live mask and levels, and every lane enters the handler, live; its vector and results stay. -/
def Sys2Proof.Claims.LanternDelivery : Prop :=
  ∀ (s : State) (core rslot v w : Nat) (r : Ray), s.ray core rslot = some r → r.parked = none → r.th.clause = none →
    r.lantern.inHandler = false → r.dueStore = [] → r.dueWb = [] → s.frontierDue r = false →
    s.waitDue r = false → r.parkReq = false → (s.ready core rslot && s.entryTrap core r) = false →
    s.deliveryFor r = some (v, w) →
    ∃ u r', exec (.lanternDeliver core rslot) s = .next u ∧ u.ray core rslot = some r' ∧ r'.lantern = ⟨r.th.vpc, r.th.p, r.th.live, r.th.level, true, v⟩ ∧
      r'.th.live = 0xFFFFFFFF#32 ∧ (∀ k < 32, r'.th.pcOf k = BitVec.ofNat 32 (nbits w 31 2 * 4)) ∧
      { r'.th with live := 0, vpc := [] } = { r.th with live := 0, vpc := [] } ∧ r'.resv = [] ∧
      { u with cores := [] } = { s with cores := [] }

/-- R385, R387, R390, R392: RAYCMD on a slot whose ray meets what the command needs: SELECT maps a parked ray, RESUME unparks it,
RESUME.SKIP goes past its trapping instruction, PARK stops it at its next boundary, TERM ends its ray, beam or context; on any other
slot REFUSED is set and nothing else changes; of an ended ray TERM.RAY changes nothing else, and PARK only queues its event, with ENDED. RAYWIN writes the selected parked
ray's state, whose checks come at resume; a ray whose lanes it has moved goes on in its clause with those that stand at its word, if they
are the issue address's, else at its vpc (log entry 105). (RESULT 2 of TERM.RAY is log entry 39, the latch and %retired of RESUME.SKIP log
entry 42, what RAYWIN checks log entry 43, the boundary of PARK log entry 74.) -/
def Obligations.RayCommands : Prop :=
  ∀ (s : State) (core rslot : Nat),
    let cmds : List Instr := [.raycmdSelect core rslot, .raycmdResume core rslot, .raycmdResumeSkip core rslot]
    let asks : List Instr := [.raycmdPark core rslot, .raycmdTermRay core rslot, .raycmdTermBeam core rslot, .raycmdTermCtx core rslot]
    let refuses (i : Instr) : Prop := exec i s = .next (s.setCore core { s.core core with refused := true })
    let s1 := s.setCore core { s.core core with refused := false }
    (s.ray core rslot = none → ∀ i ∈ cmds ++ asks, refuses i) ∧
    ∀ r, s.ray core rslot = some r →
      (r.parked = none → ∀ i ∈ cmds, refuses i) ∧
      (r.parked ≠ none →
        exec (.raycmdSelect core rslot) s = .next (s1.setCore core { s1.core core with selected := some rslot }) ∧
        (r.rewritten = false → r.vpcWritten = 0 → r.parkReq = false → ∃ u r', exec (.raycmdResume core rslot) s = .next u ∧ u.ray core rslot = some r' ∧
          r'.parked = none ∧ r'.frontier = (if r.parked = some .loupe then 0 else r.frontier) ∧
          r'.waiting = (if r.parked = some .loupe then none else r.waiting) ∧ r'.th = r.th) ∧
        (∀ c, r.rewritten = true → r.rewriteCause = some c → ∃ u r', exec (.raycmdResume core rslot) s = .next u ∧
          u.ray core rslot = some r' ∧ r'.parked = some .clauseTrap ∧ r'.rewritten = true ∧ r'.th = r.th ∧
          (r.parked = some .loupe → r'.frontier = 0 ∧ r'.waiting = none)) ∧
        (∀ c, r.rewriteCause = none → r.vpcWritten ≠ 0 → r.parkReq = false → r.th.clause = some c →
          let stay := c.entering &&& r.th.lanesAt c.pc
          ∃ u r', exec (.raycmdResume core rslot) s = .next u ∧ u.ray core rslot = some r' ∧ r'.parked = none ∧ r'.vpcWritten = 0 ∧
            { r'.th with clause := none } = { r.th with clause := none } ∧
            ((r.th.issue = some c.pc ∧ stay ≠ 0) → r'.th.clause = some { c with entering := stay }) ∧
            (¬ (r.th.issue = some c.pc ∧ stay ≠ 0) → r'.th.clause = none))) ∧
      (r.parked = some .runTrap → r.rewritten = false → r.vpcWritten = 0 → r.parkReq = false → ∀ c i n, r.th.clause = some c →
        decode (c.slots.drop c.next) = .ok (i, n) → c.next + i.size < c.slots.length →
        ∃ u r', exec (.raycmdResumeSkip core rslot) s = .next u ∧ u.ray core rslot = some r' ∧ r'.parked = none ∧
          r'.th.clause = some { c with next := c.next + i.size, pos := c.pos + 1 } ∧ r'.th.v = r.th.v ∧ r'.th.retired = r.th.retired) ∧
      (r.th.live = 0 → exec (.raycmdTermRay core rslot) s = .next s1 ∧ ∃ u e, exec (.raycmdPark core rslot) s = .next u ∧
        u.ray core rslot = some { r with parkReq := false } ∧ eventRaised (s.core core) (u.core core) e ∧ bits e 31 28 = 7 ∧ bit e 40 = true) ∧
      (r.parked = none → r.th.clause ≠ none → r.th.live ≠ 0 → exec (.raycmdPark core rslot) s = .next (s1.setRay core rslot { r with parkReq := true })) ∧
      (∀ b, s.beam r.l r.pos = some b → r.th.live ≠ 0 → exec (.raycmdTermRay core rslot) s = .next ((s1.updBeam r.l r.pos fun b =>
        { b with result := if b.result = 0 then 2 else b.result }).killRay core rslot)) ∧
      exec (.raycmdTermBeam core rslot) s = .next (s1.termBeam r.l r.pos 2) ∧
      (∀ c, SMap.get? s.ctxs (s.ctxOf r.l) = some c → ∃ u, exec (.raycmdTermCtx core rslot) s = .next u ∧
        ∃ c', SMap.get? u.ctxs (s.ctxOf r.l) = some c' ∧ c'.faulted = true) ∧
      (r.parked ≠ none → (s.core core).selected = some rslot → ∀ n v, n < 24 →
        ∃ u r', exec (.raywin core (0x100 + 8 * n) 8 v) s = .next u ∧ u.ray core rslot = some r' ∧ r'.rewritten = true ∧
          SMap.get r'.th.s 0 n = v ∧ ∀ m, m ≠ n → SMap.get r'.th.s 0 m = SMap.get r.th.s 0 m)

/-- R336, R337, R343, R398, R403, R408: a context or queue is created from its record, HALT cleared, a context suspended or
resumed, flash erased or assigned, where the command's checks hold; each answers its status and raises vector 0. What is of another
function answers 0x0002, one that does not exist 0x0001, a module without owner 0x0006. (That WR, RD and HALT begin at 0 is log entry 45;
that ASSIGN_FLASH takes an overlapping range from whoever held it log entry 63.) -/
def Sys2Proof.Claims.ContextCommands : Prop :=
  ∀ (s : State) (fn : Nat) (blk : DWord) (args : Nat → Nat), commands s fn →
    let k := args 0
    let s1 := called s fn blk
    (blockIs s blk 0x01 args →
      let w := leNat (s.hostRead (args 1) 64)
      (s.module.ownerKey = none → exec (.createCtx fn blk) s = .next (answered fn blk 0x0006 s1)) ∧
      (∀ c, s.module.ownerKey ≠ none → SMap.get? s.ctxs k = some c → c.fn ≠ fn → exec (.createCtx fn blk) s = .next (answered fn blk 0x0002 s1)) ∧
      (s.module.ownerKey ≠ none → k ≤ 1023 → SMap.get? s.ctxs k = none → ctxBad w = false → ∃ c,
        exec (.createCtx fn blk) s = .next (answered fn blk 0 { s1 with ctxs := SMap.put s.ctxs k c }) ∧
        c.fn = fn ∧ c.root = nbits w 63 0 ∧ c.rbt = nbits w 255 192 ∧ c.lntab = nbits w 319 256 ∧ c.save = nbits w 383 320 ∧
        c.slice = nbits w 166 151 ∧ c.frontLim = nbits w 172 167 ∧ c.waitLim = nbits w 178 173 ∧ c.faulted = false ∧ c.lnpend = 0)) ∧
    (∀ x c, blockIs s blk 0x03 args → SMap.get? s.queues k = some x → SMap.get? s.ctxs x.ctx = some c → c.fn ≠ fn →
      exec (.createQueue fn blk) s = .next (answered fn blk 0x0002 s1)) ∧
    (blockIs s blk 0x03 args →
      let w := leNat (s.hostRead (args 1) 64)
      k ≤ 2047 → SMap.get? s.queues k = none → queueBad w = false → (args 2 % 64 = 0 ∨ 3 ≤ args 2 % 64) →
      (SMap.get? s.ctxs (nbits w 89 80) = none → exec (.createQueue fn blk) s = .next (answered fn blk 0x0001 s1)) ∧
      ∀ c, SMap.get? s.ctxs (nbits w 89 80) = some c →
        (c.fn ≠ fn → exec (.createQueue fn blk) s = .next (answered fn blk 0x0002 s1)) ∧
        (c.fn = fn → nbits w 70 69 ≤ c.maxPri → ∃ u, exec (.createQueue fn blk) s = .next (answered fn blk 0 u) ∧
          ∃ x, SMap.get? u.queues k = some x ∧ x.base = nbits w 63 0 ∧ x.log2n = nbits w 68 64 ∧ x.wr = 0 ∧ x.rd = 0 ∧
            x.halt = c.cut ∧ x.vector = args 2 % 64)) ∧
    (∀ x c, blockIs s blk 0x05 args → SMap.get? s.queues k = some x → SMap.get? s.ctxs x.ctx = some c → c.fn = fn →
      ∃ u, exec (.clearHalt fn blk) s = .next (answered fn blk 0 u) ∧ ∃ y, SMap.get? u.queues k = some y ∧ y = { x with halt := c.cut }) ∧
    (SMap.get? s.queues k = none → blockIs s blk 0x05 args → exec (.clearHalt fn blk) s = .next (answered fn blk 0x0001 s1)) ∧
    (SMap.get? s.ctxs k = none → (blockIs s blk 0x06 args → exec (.suspend fn blk) s = .next (answered fn blk 0x0001 s1)) ∧
      (blockIs s blk 0x07 args → exec (.resume fn blk) s = .next (answered fn blk 0x0001 s1)) ∧
      (fn = 0 → s.module.ownerKey ≠ none → blockIs s blk 0x0D args → exec (.assignFlash fn blk) s = .next (answered fn blk 0x0001 s1))) ∧
    (∀ c, SMap.get? s.ctxs k = some c →
      (c.fn ≠ fn → (blockIs s blk 0x06 args → exec (.suspend fn blk) s = .next (answered fn blk 0x0002 s1)) ∧
        (blockIs s blk 0x07 args → exec (.resume fn blk) s = .next (answered fn blk 0x0002 s1))) ∧
      (c.fn = fn →
        (blockIs s blk 0x06 args → (∀ p b, (p, b) ∈ s.beams → b.ctx ≠ k) → exec (.suspend fn blk) s =
          .next (answered fn blk 0 { s1 with ctxs := SMap.put s.ctxs k { c with suspended := true } })) ∧
        (blockIs s blk 0x07 args → exec (.resume fn blk) s =
          .next (answered fn blk 0 { s1 with ctxs := SMap.put s.ctxs k { c with suspended := false } })) ∧
        (fn = 0 → blockIs s blk 0x0D args → s.module.ownerKey ≠ none → args 1 + args 2 ≤ 2 ^ 34 → ∃ u c',
          exec (.assignFlash fn blk) s = .next (answered fn blk 0 u) ∧ SMap.get? u.ctxs k = some c' ∧ c'.flBase = args 1 ∧ c'.flCount = args 2 ∧
          ∀ j, args 1 ≤ j → j < args 1 + args 2 → SMap.get? u.module.flash j = none))) ∧
    (fn = 0 → blockIs s blk 0x0D args → s.module.ownerKey = none → exec (.assignFlash fn blk) s = .next (answered fn blk 0x0006 s1)) ∧
    (fn = 0 → blockIs s blk 0x0E args → k + args 1 ≤ 2 ^ 34 → ∃ u, exec (.eraseFlash fn blk) s = .next (answered fn blk 0 u) ∧
      ∀ j, SMap.get? u.module.flash j = if k ≤ j ∧ j < k + args 1 then none else SMap.get? s.module.flash j) ∧
    (fn ≠ 0 → blockIs s blk 0x0E args → exec (.eraseFlash fn blk) s = .next (answered fn blk 0x0002 s1))

/-- R387, R398, R402: DESTROY_CTX terminates the context and keeps its function busy until nothing of it runs; then it is gone with its queues,
launches and TLB entries, and the command ends (when, and what is zeroed: log entry 62); DESTROY_QUEUE likewise once the queue's launches
have ended. One that does not exist answers 0x0001, another function's 0x0002. -/
def Sys2Proof.Claims.DestroyCommands : Prop :=
  ∀ (s : State) (fn k : Nat) (blk : DWord) (args : Nat → Nat),
    (commands s fn → (∀ c, SMap.get? s.ctxs (args 0) = some c → c.fn = fn → blockIs s blk 0x02 args →
        ∃ u, exec (.destroyCtx fn blk) s = .next u ∧ (u.fnOf fn).busy = true ∧ (u.fnOf fn).doing = some (2, args 0) ∧
          ∃ c', SMap.get? u.ctxs (args 0) = some c' ∧ c'.faulted = true) ∧
      (∀ x c, SMap.get? s.queues (args 0) = some x → SMap.get? s.ctxs x.ctx = some c → c.fn = fn → blockIs s blk 0x04 args →
        ∃ u y, exec (.destroyQueue fn blk) s = .next u ∧ (u.fnOf fn).busy = true ∧ (u.fnOf fn).doing = some (4, args 0) ∧
          SMap.get? u.queues (args 0) = some y ∧ y.destroyed = true ∧ y.barriers = []) ∧
      (blockIs s blk 0x02 args →
        (SMap.get? s.ctxs (args 0) = none → exec (.destroyCtx fn blk) s = .next (answered fn blk 0x0001 (called s fn blk))) ∧
        ∀ c, SMap.get? s.ctxs (args 0) = some c → c.fn ≠ fn → exec (.destroyCtx fn blk) s = .next (answered fn blk 0x0002 (called s fn blk))) ∧
      (blockIs s blk 0x04 args →
        (SMap.get? s.queues (args 0) = none → exec (.destroyQueue fn blk) s = .next (answered fn blk 0x0001 (called s fn blk))) ∧
        ∀ x c, SMap.get? s.queues (args 0) = some x → SMap.get? s.ctxs x.ctx = some c → c.fn ≠ fn →
          exec (.destroyQueue fn blk) s = .next (answered fn blk 0x0002 (called s fn blk)))) ∧
    (∀ c, (s.fnOf fn).doing = some (2, k) → (s.fnOf fn).cmdAddr = blk.toNat → SMap.get? s.ctxs k = some c → s.ctxQuiet k = true →
      ∃ u, exec (.destroyCtx fn blk) s = .next (answered fn blk 0 u) ∧ SMap.get? u.ctxs k = none ∧
        (∀ q x, (q, x) ∈ u.queues → x.ctx ≠ k) ∧ (∀ l x, (l, x) ∈ u.launches → x.ctx ≠ k) ∧
        ∀ j e, e ∈ (u.core j).tlb → e.ctx ≠ k) ∧
    ((s.fnOf fn).doing = some (4, k) → (s.fnOf fn).cmdAddr = blk.toNat → (∀ l x, (l, x) ∈ s.launches → x.queue = k → x.isOver = true) →
      exec (.destroyQueue fn blk) s = .next (answered fn blk 0 { s with queues := SMap.del s.queues k }))

/-- R398, R404, R406 to R410, R414, R416: the module's own commands by the physical function 0 where their checks hold: CONFIRM_BOOT
confirms the running slot and stops the watchdog, STAGE_IMAGE marks an accepted image's slot as the trial slot, SET_POWER_CAP keeps a legal
cap, READ_LOG and FLASH_STATUS write their records, NONCE a nonce, CLAIM_OWNER begins ownership; RELEASE_OWNER terminates every context and, once
nothing of them runs, ends it; a write with no behaviour of its own has no effect. (How host memory is read and written is log entry 44, the order of a command's checks log entry 46, what
a release erases log entry 64.) The memory is in canonical form. -/
def Obligations.ModuleCommands : Prop :=
  ∀ (s : State) (blk : DWord) (args : Nat → Nat), s.memWf →
    let s1 := called s 0 blk
    (∀ n, (s.fnOf 0).doing = some (0x10, n) → (s.fnOf 0).cmdAddr = blk.toNat → (∀ p ∈ s.ctxs, s.ctxQuiet p.1 = true) →
      ∃ u, exec (.releaseOwner 0 blk) s = .next (answered 0 blk 0 u) ∧ u.module.ownerKey = none ∧ u.ctxs = [] ∧ u.module.flash = [] ∧
        ∀ a < 384 * 2 ^ 30, u.hbm.read a = 0) ∧
    (∀ fn off v, off ≠ 0x100 → exec (.registerWriteOther fn off v) s = .next s) ∧
    (commands s 0 →
    (blockIs s blk 0x08 args → (∀ t, s.module.watchdogAt = some t → s.clock < t) → ∃ u, exec (.confirmBoot 0 blk) s = .next (answered 0 blk 0 u) ∧ u.module.boot = .confirmed ∧
      u.module.trialSlot = none ∧ u.module.watchdogAt = none ∧ (s.module.slot < 2 → u.module.confirmedSlot = some s.module.slot) ∧
      (s.module.slot = 2 → u.module.confirmedSlot = s.module.confirmedSlot) ∧ u.module.svn = max s.module.svn (imageN s.module.image 8 4)) ∧
    (blockIs s blk 0x09 args →
      let bs := s.hostRead (args 0) (args 1)
      let slot := if s.module.slot = 0 then 1 else 0
      ∃ u st, exec (.stageImage 0 blk) s = .next (answered 0 blk st u) ∧ (imageBad bs (args 1) 1 = true → st = 0x0001 ∧ u = s1) ∧
        (imageBad bs (args 1) 1 = false → s.signed bs = false → st = 0x0004 ∧ u = s1) ∧
        (imageBad bs (args 1) 1 = false → s.signed bs = true → imageN bs 8 4 < s.module.svn → st = 0x0007 ∧ u = s1) ∧
        (imageBad bs (args 1) 1 = false → s.signed bs = true → s.module.svn ≤ imageN bs 8 4 → st = 0) ∧
        (st = 0 → u.module.trialSlot = some slot ∧ ∃ i, SMap.get? u.module.slots slot = some i ∧ i.bytes = bs)) ∧
    (blockIs s blk 0x0A args →
      (1600 ≤ args 0 ∧ args 0 ≤ 3200 ∧ args 0 % 50 = 0 → exec (.setPowerCap 0 blk) s =
        .next (answered 0 blk 0 { s1 with module := { s.module with cap := args 0 } })) ∧
      (args 0 < 1600 ∨ 3200 < args 0 ∨ args 0 % 50 ≠ 0 → exec (.setPowerCap 0 blk) s = .next (answered 0 blk 0x0001 s1))) ∧
    (blockIs s blk 0x0B args → exec (.readLog 0 blk) s = .next (answered 0 blk 0 (s1.hostWrite (args 0)
      (((s.module.log.filter fun r => decide (args 1 ≤ bits r 63 32)).take (args 2)).flatMap fun r => leBytes 24 r.toNat)))) ∧
    (blockIs s blk 0x0C args → exec (.flashStatus 0 blk) s = .next (answered 0 blk 0 (s1.hostWrite (args 0) s.module.flashRecord))) ∧
    (blockIs s blk 0x0F args → ∃ u bs, exec (.nonce 0 blk) s = .next (answered 0 blk 0 u) ∧ bs.length = 32 ∧
      u.module.nonce = some bs ∧ (args 0 + 32 ≤ 2 ^ 56 → u.hostRead (args 0) 32 = bs)) ∧
    (blockIs s blk 0x10 args →
      (s.module.ownerKey = none → exec (.releaseOwner 0 blk) s = .next (answered 0 blk 0x0006 s1)) ∧
      (∀ key, s.module.ownerKey = some key →
        let bs := s.hostRead (args 0) 29856
        let ok : Prop := s.module.nonce = some (bs.take 32) ∧ (bs.drop 32).take 32 = serialDigest ∧ s.stated key (bs.drop 64) = true
        (¬ ok → ∃ u, exec (.releaseOwner 0 blk) s = .next (answered 0 blk 0x0004 u) ∧ u.module.nonce = none ∧ u.ctxs = s.ctxs) ∧
        (ok → ∃ u, exec (.releaseOwner 0 blk) s = .next u ∧ u.module.nonce = none ∧ u.module.ownerKey = some key ∧
          (u.fnOf 0).busy = true ∧ (u.fnOf 0).doing = some (0x10, 0) ∧
          ∀ k c, SMap.get? s.ctxs k = some c → ∃ c', SMap.get? u.ctxs k = some c' ∧ c'.faulted = true))) ∧
    (blockIs s blk 0x11 args →
      (s.module.ownerKey ≠ none → exec (.claimOwner 0 blk) s = .next (answered 0 blk 0x0006 s1)) ∧
      (s.module.ownerKey = none → (s.fnOf 0).session = false → exec (.claimOwner 0 blk) s = .next (answered 0 blk 0x0002 s1)) ∧
      (s.module.ownerKey = none → (s.fnOf 0).session = true →
        let bs := s.hostRead (args 0) 29856
        ∃ u st, exec (.claimOwner 0 blk) s = .next (answered 0 blk st u) ∧ u.module.nonce = none ∧
          u.module.ownerKey = (if s.stated (bs.take 64) (bs.drop 64) then some (bs.take 64) else none) ∧
          (st = 0 ↔ s.stated (bs.take 64) (bs.drop 64) = true))))

/-- R288, R364, R400, R401: a locked interface that loses trust goes to ERROR, without a session, its queues halted and its contexts
faulted; LOCK and START of an interface with a session move it from unlocked to locked and to RUN; a measurement is
answered; without an identity nothing is; a peer's or host's write reaches memory, and after a loss of trust does nothing; a peer's
LNSEND goes to the lantern unit; a vector is masked or unmasked, and a page that firmware moves is zeroed. (How a session and its states
begin and end is log entry 96, what a peer's request does log entries 60 and 75, the requests for masks and pages log entries 94 and 62.)
The memory is in canonical form. -/
def Sys2Proof.Claims.TrustEvents : Prop :=
  ∀ (s : State) (fn a : Nat) (bs : List Byte), s.memWf →
    (fn ≤ 15 → (s.fnOf fn).everLocked = true → (s.fnOf fn).tdisp ≠ .error →
      (∃ u, exec (.trustLoss fn) s = .next u ∧ (u.fnOf fn).tdisp = .error ∧ (u.fnOf fn).session = false ∧
        ∀ k c, SMap.get? s.ctxs k = some c → c.fn = fn → (∃ c', SMap.get? u.ctxs k = some c' ∧ c'.faulted = true ∧ c'.cut = true) ∧
          ∀ q x, SMap.get? s.queues q = some x → x.ctx = k → ∃ y, SMap.get? u.queues q = some y ∧ y.halt = true)) ∧
    (s.module.seeded = false → ∀ msg, exec (.spdmRequest fn msg) s = .next s) ∧
    (s.module.seeded = true → fn ≤ 15 → (s.fnOf fn).session = true →
      ((s.fnOf fn).tdisp = .unlocked → exec (.spdmRequest fn .lockInterface) s = .next ((s.updFn fn fun f =>
        { f with tdisp := .locked, everLocked := true }).updFn fn fun f => f.raise 2)) ∧
      ((s.fnOf fn).tdisp = .locked → exec (.spdmRequest fn .startInterface) s = .next ((s.updFn fn fun f =>
        { f with tdisp := .run }).updFn fn fun f => f.raise 2))) ∧
    (∀ j, s.module.seeded = true → fn ≤ 15 → 1 ≤ j → j ≤ 6 → exec (.spdmRequest fn (.measurement j)) s = .next (s.updFn fn fun f =>
      { f with measured := some (j, Config.measure j (s.measures j)) })) ∧
    (s.module.seeded = true → fn ≤ 15 → (s.fnOf fn).tdisp ≠ .error → exec (.spdmRequest fn .keyExchange) s = .next (s.updFn fn fun f => { f with session := true })) ∧
    ((s.fnOf fn).tdisp = .error ∨ 15 < fn → exec (.peerRequest fn (.writeHbm a bs)) s = .next s ∧
      exec (.peerRequest fn (.writeHost a bs)) s = .next s) ∧
    (fn ≤ 15 → (s.fnOf fn).tdisp ≠ .error →
      (a + bs.length ≤ 384 * 2 ^ 30 → ∃ u : State, exec (.peerRequest fn (.writeHbm a bs)) s = .next (u.spoilGen [(a, bs.length)]) ∧
        (∀ i < bs.length, (a + i) / 1024 = (a + bs.length - 1) / 1024 → u.homeByte (a + i) = bs.getD i 0) ∧ keepsWork s u) ∧
      (a + bs.length ≤ 2 ^ 56 → ∃ u : State, exec (.peerRequest fn (.writeHost a bs)) s = .next (u.spoilGen [(2 ^ 56 + a, bs.length)]) ∧
        ∀ i < bs.length, u.host.read (a + i) = bs.getD i 0)) ∧
    (∀ b n, exec (.peerRequest fn (.readHbm b n)) s = .next s) ∧
    (∀ vec, fn ≤ 15 → (s.fnOf fn).tdisp ≠ .error → vec < 64 → ∃ u1 u2, exec (.peerRequest fn (.mask vec true)) s = .next u1 ∧
      exec (.peerRequest fn (.mask vec false)) s = .next u2 ∧ vec ∈ (u1.fnOf fn).masked ∧ (u1.fnOf fn).raised = (s.fnOf fn).raised ∧
      vec ∉ (u2.fnOf fn).masked ∧ vec ∉ (u2.fnOf fn).pending ∧
      (u2.fnOf fn).raised = (s.fnOf fn).raised ++ (if vec ∈ (s.fnOf fn).pending then [vec] else [])) ∧
    (∀ page, 65536 * (page + 1) ≤ 384 * 2 ^ 30 → ∃ u : State, exec (.peerRequest fn (.movePage page)) s = .next u ∧
      (∀ i < 65536, u.homeByte (65536 * page + i) = 0) ∧ u.ctxs = s.ctxs) ∧
    ∀ m ctx vec payload, exec (.peerRequest fn (.lantern m ctx vec payload)) s = .next { s with
      lnsends := s.lnsends ++ [⟨.peer m, BitVec.ofNat 64 (ctx % 1024 * 64 + vec % 64), payload⟩] }

/-- R405 to R416: a reset keeps what flash holds and boots: recovery without a seed, helper data or repair maps; the trial slot, or the
confirmed one, if accepted, each under a watchdog of 30 s and with the patch RAM locked; a watchdog that expires clears the trial mark; a
shared image that fails is tried 3 times, and a block of it that does not match its digest stops the module. Throttling and a trip are
kept, a trip faulting every context; a flit of one of the 18 links is replayed up to 8 times, and what is in flight over a link that goes
down is refused with 0x3; a scrub visit changes no memory, and an uncorrectable find poisons its word. (What a reset keeps is log entry 65,
the records at boot log entry 98, the watchdog's start log entry 100, the blocks of an image log entry 101, the units of a scrub log entries
95 and 106.) -/
def Sys2Proof.Claims.ModuleEvents : Prop :=
  ∀ (s : State) (link flit blk addr : Nat) (unit : ScrubUnit),
    (∃ u, exec .moduleReset s = .next u ∧ u.cores = [] ∧ u.ctxs = [] ∧ u.hbm = [] ∧ u.host = s.host ∧ u.clock = 0 ∧
      u.module.slots = s.module.slots ∧
      (s.module.absent = [] → s.module.seedOk = true → u.module.ownerKey = s.module.ownerKey ∧ u.module.flash = s.module.flash ∧ u.module.svn = s.module.svn) ∧
      (s.module.seedOk = false ∨ .sramMap ∈ s.module.absent ∨ .hbmMap ∈ s.module.absent ∨ .helper ∈ s.module.absent →
        u.module.boot = .recovery) ∧
      (s.module.seedOk = true → s.module.absent = [] →
        let begins (slot : Nat) (st : BootState) (bs : List Byte) : Prop := u.module.boot = st ∧ u.module.slot = slot ∧
          u.module.image = bs ∧ u.module.patchLocked = true ∧ u.module.patch.length ≤ 64 ∧ u.module.watchdogAt = some (30 * 1900000000)
        (s.module.shared = true → ∀ bs, s.sharedImage = some bs → begins 2 .trial bs) ∧
        (s.module.shared = false → s.module.trialSlot = none →
          (∀ k i, s.module.confirmedSlot = some k → s.slotImage k = some i → begins k .confirmed i.bytes) ∧
          (∀ k, s.module.confirmedSlot = some k → s.slotImage k = none → u.module.boot = .recovery ∧ u.module.seq = s.module.seq + 1)) ∧
        ∀ t, s.module.shared = false → s.module.trialSlot = some t →
          (∀ i, s.slotImage t = some i → begins t .trial i.bytes) ∧
          (s.slotImage t = none → u.module.trialSlot = none ∧
            (∀ k i, s.module.confirmedSlot = some k → s.slotImage k = some i → begins k .confirmed i.bytes ∧
              u.module.seq = s.module.seq + 1) ∧
            ∀ k, s.module.confirmedSlot = some k → s.slotImage k = none → u.module.boot = .recovery ∧ u.module.seq = s.module.seq + 2))) ∧
    (∀ t, s.module.watchdogAt = some t → (s.module.boot = .trial ∨ s.module.boot = .confirmed) → t ≤ s.clock →
      ∃ u, exec .watchdogExpiry s = .next u ∧
        u.module.trialSlot = none ∧ s.module.seq + 1 ≤ u.module.seq ∧ u.cores = [] ∧ u.hbm = [] ∧
        ∀ k i, s.module.seedOk = true → s.module.absent = [] → s.module.shared = false → s.module.confirmedSlot = some k →
          s.slotImage k = some i → u.module.boot = .confirmed ∧ u.module.slot = k ∧ u.module.seq = s.module.seq + 1) ∧
    (∀ o n, s.module.slot = 2 → (s.module.boot = .trial ∨ s.module.boot = .confirmed) → (imageBlocks s.module.image)[blk]? = some (o, n) →
      let same : Prop := Config.shake256 (s.hostRead (s.module.sharedAddr + o) n) = ((imageSection s.module.image 5).drop (32 * blk)).take 32
      (same → exec (.imageBlockFill blk) s = .next s) ∧
      (¬ same → ∃ u, exec (.imageBlockFill blk) s = .next u ∧ u.module.boot = .failed ∧
        ∀ k c, SMap.get? s.ctxs k = some c → c.fn ≤ 15 → ∃ c', SMap.get? u.ctxs k = some c' ∧ c'.faulted = true)) ∧
    (∀ t, s.module.retryAt = some t → s.module.shared = true → s.module.boot = .rom → 0 < s.module.sharedFails → t ≤ s.clock →
      ∃ u, exec .sharedBootRetry s = .next u ∧
        (∀ bs, s.sharedImage = some bs → u.module.boot = .trial ∧ u.module.slot = 2 ∧ u.module.sharedFails = 0) ∧
        (s.sharedImage = none → u.module.sharedFails = s.module.sharedFails + 1 ∧
          (u.module.boot = .recovery ↔ 3 ≤ s.module.sharedFails + 1))) ∧
    (∃ u, exec (.patrolScrub unit addr) s = .next u ∧ s.sameMem u ∧ u.module.seq ≤ s.module.seq + 1 ∧
      (Config.scrub s.tick % 3 = 2 → (unit = .hbm → addr < 384 * 2 ^ 30 → (0, addr / 32) ∈ u.poison) ∧
        ∀ c, unit = .sram c → c < 144 → addr < 8 * 2 ^ 20 → (c + 1, addr / 8) ∈ u.poison)) ∧
    (18 ≤ link ∨ link ∈ s.module.linksDown → exec (.flitCrcFail ⟨link, flit⟩) s = .next s) ∧
    (link < 18 → link ∉ s.module.linksDown → ∃ u, exec (.flitCrcFail ⟨link, flit⟩) s = .next u ∧ u.module.seq = s.module.seq + 1 ∧
      let tries : Nat := match SMap.get? s.module.linkTries link with | some (f, k) => if f = flit then k else 0 | none => 0
      (tries < 8 → SMap.get? u.module.linkTries link = some (flit, tries + 1) ∧ u.module.linksDown = s.module.linksDown) ∧
      (8 ≤ tries → SMap.get? u.module.linkTries link = none ∧ (link ∈ u.module.linksDown ↔ Config.retrains s.tick = false) ∧
        (Config.retrains s.tick = false → ∀ x ∈ s.lnsends, bits x.desc 16 16 = 1 → Config.route (bits x.desc 36 17) % 18 = link →
          ∀ ctx core rslot r, x.sender = .ray ctx core rslot → x ∉ u.lnsends ∧
            (s.ray core rslot = some r → r.stall = some .lnsend → u.ray core rslot = some { r with stall := some (.answered 3) })))) ∧
    (∃ u, exec (.thermalThrottle true) s = .next u ∧ u.module.throttled = true ∧ u.module.seq = s.module.seq + 1) ∧
    exec (.thermalThrottle false) s = .next { s with module := { s.module with throttled := false } } ∧
    (∃ u, exec .thermalTrip s = .next u ∧ u.module.tripped = true ∧
      ∀ k c, SMap.get? s.ctxs k = some c → ∃ c', SMap.get? u.ctxs k = some c' ∧ c'.faulted = true)

/-! ### Statements of several parts -/

/-- R113 to R115, R117 to R120, R144, R159: the integer instructions on one, two and three words and on 64-bit operands
write their results. -/
def Obligations.WordResults : Prop := TwoWordResults ∧ OneWordResults ∧ ThreeWordResults ∧ LongResults

/-- R116: a division whose divisor is 0 in no active lane writes its result in every active lane; one whose divisor is 0
in any active lane raises the divide-check trap, cause 0x28, and writes nothing; the words of the four. -/
def Obligations.DivisionResults : Prop := DivisionValues ∧ DivideCheck ∧ DivisionWords

/-- R141, R144 to R147, R158: floating-point and packed additions, subtractions, products, multiply-adds and division,
each rounded once. -/
def Obligations.FloatResults : Prop := AdditionResults ∧ ProductResults

/-- R39, R141, R144, R158, R159: minimum and maximum of two words, and the packed integer instructions. -/
def Obligations.MinMaxAndPackedResults : Prop := MinMaxResults ∧ PackedResults

/-- R29, R35, R37, R38: an exactly representable value rounds to itself; directed rounding never crosses the exact
value. -/
def Obligations.RoundingLaws : Prop := ExactValuesRound ∧ DirectedRounding

/-- R123, R124, R148, R149: the integer and floating-point compares write the condition and its complement. -/
def Obligations.CompareResults : Prop := IntCompareResults ∧ FloatCompareResults

/-- R51, R111, R127 to R129, R150: BALLOT, the shuffles and the reductions over the active lanes. -/
def Obligations.LaneExchange : Prop := LaneExchangeResults ∧ ReductionResults

/-- R44, R141, R153 to R155: CVT and its wide form, and the cases of the conversion table. -/
def Obligations.ConversionResults : Prop := ConversionForms ∧ ConversionCases

/-- R45, R46, R48, R140, R141, R156, R157: QUANT of a block and DEQ of elements (the sign of DEQ's NaN is log entry 86). -/
def Obligations.QuantDequantResults : Prop := QuantResults ∧ DequantResults

/-- R65, R66, R111, R141, R156, R157, R161, R165: the domain trap of register instructions, and the traps of control
words (their order is log entry 14). -/
def Obligations.RegisterTraps : Prop := DomainTraps ∧ ControlWordTraps

/-- R89, R102, R130, R132 to R134, R368, R370: control transfers whose checks hold, and the traps of those whose do not. -/
def Obligations.ControlTransfers : Prop := ControlResults ∧ ControlTraps

/-- R29 to R32, R43, R137 to R139, R263, R264: MFS reads every special register and MTS writes those that it may (those
of a context without a lantern table: log entry 83). -/
def Obligations.SpecialRegisters : Prop := MfsResults ∧ MtsResults

/-- R263, R265, R266, R268: bank commands as they issue, and the steps of a switch and the dispatcher's bank taking (the
order of the errors, and a switch with nothing to change: log entry 15). -/
def Obligations.BankSwitching : Prop := BankSwitchIssue ∧ BankSteps

/-- R27, R91, R185, R379, R380: what taking a precise trap saves and changes, and which trap an instruction that runs
takes, in a ray and in a stream. -/
def Obligations.TrapEntry : Prop := PreciseTrap ∧ RunTimeTrap

/-- R135, R185, R370, R387, R389: YIELD and LNRET, the system instructions, and termination. -/
def Obligations.SystemInstructions : Prop := YieldAndReturn ∧ SystemResults ∧ Termination

/-- R364, R365, R369: LNSEND and LNCLR. -/
def Obligations.LanternInstructions : Prop := LanternSend ∧ LanternClear

/-- R163 to R165, R172, R273: the checks of a memory instruction that fail (a FIFO bank's and its order: log entry 13),
and the wait for a translation. -/
def Obligations.MemoryTraps : Prop := MemoryChecks ∧ TranslationMiss

/-- R24, R89, R167: what issuing an operation does, and when its counter goes down. -/
def Obligations.IssueAndCounters : Prop := IssueEffect ∧ CountersInOrder

/-- R20, R191, R194 to R200, R282: the copy instructions and WAITC (the record read at issue is log entry 30, a copy
that names a switching bank log entry 82). -/
def Obligations.CopyInstructions : Prop := CopyIssue ∧ WaitcResults

/-- R163, R164, R168, R178 to R181, R213, R219: LDT, LDT.C and STH as they issue, and TAKE. -/
def Obligations.TileInstructions : Prop := TileIssue ∧ TakeResults

/-- R176, R177, R186 to R190, R202, R205: ACQ, REL, ARRIVE, BWAIT and FENCE as they issue, DRAINNT and DRAINST. -/
def Obligations.OrderingInstructions : Prop := SynchronisationIssue ∧ DrainResults

/-- R216, R217, R220, R221, R225, R228 to R234: the sequencer's tile commands and its other instructions (the order of a
command's failures is log entry 111). -/
def Obligations.SequencerInstructions : Prop := TileCommandIssue ∧ SequencerResults

/-- R16, R17, R27, R42, R88 to R90, R92 to R94, R96, R98, R102, R103, R105, R107 to R109, R135, R248, R249: how a clause
begins and what its entry checks, and the events of issue (a CLASS 5 header is log entry 10, the causes beside a
missing literal log entry 70). -/
def Obligations.ClauseEvents : Prop := ClauseEntry ∧ ClauseChecks ∧ IssueEvents

/-- R172, R273 to R275, R380, R384, R388: the walk of the page tables, and the events of translation (what a full TLB
evicts is log entry 19). -/
def Obligations.Translation : Prop := PageTableWalk ∧ TranslationEvents

/-- R191, R192, R194 to R199, R282, R403: the copy engine accepts copies, lands and takes up chunks and programs pages
(the record read at issue and what acceptance checks are log entry 30, a copy that names a switching bank log entry
82, the receivers of a multicast log entry 92, a page erased while it is programmed log entry 97). -/
def Obligations.CopyEngine : Prop := CopyAccepts ∧ CopyChunks ∧ CopyOtherChunks ∧ FlashProgram

/-- R201, R202, R205, R250, R256 to R258, R334, R348, R380: arrivals, BWAIT and SPAWN as they complete (an arrival at a
beam not resident: log entry 103; the order of SPAWN's statuses: log entry 109), and the loupe's reports (its
counts: log entry 78). -/
def Obligations.WaitsAndReports : Prop := WaitsComplete ∧ LoupeReports

/-- R208, R214, R215, R218 to R228, R233, R234: a stream's begin, its commands, its waits and its end (the format of a
KIND 1 operand is log entry 34, a second failure log entry 36, the accesses that meet an error log entry 95, the
order of a product's sums log entry 110, the order of a command's failures log entry 111). -/
def Obligations.Streams : Prop := StreamBegins ∧ StreamEvents

/-- R337 to R339, R343, R346, R397: doorbells, headers and packets of queues (which doorbells are ignored is log entry
45, the parts of a barrier packet's evaluation log entry 114). -/
def Obligations.QueueEvents : Prop := QueueDoorbells ∧ PacketTake

/-- R13, R33, R162, R241 to R243, R252, R261, R327 to R332, R347: windows, landing, placement and completion of beams
(what waits for a core is log entry 50, where a window lies log entry 51). -/
def Obligations.Placement : Prop := WindowsLand ∧ BeamEvents

/-- R335, R350 to R352, R354 to R359: decisions on beams, and saving, flushing, answering and resuming them (log entries
56, 57, 58, 77, 91, 104, 123, 124 and 132 name what the model settles). -/
def Obligations.PreemptionAndSave : Prop := Preemption ∧ SaveAndResume

/-- R361 to R368, R373, R397: a send that reaches its unit, the host's lantern slots, and delivery to a handler. -/
def Obligations.Lanterns : Prop := LanternEvents ∧ LanternDelivery

/-- R336, R337, R343, R387, R398, R402, R403, R408: contexts, queues and flash ranges are created, changed and destroyed
(a queue's first values are log entry 45, a destroyed context's end log entry 62, an overlapping range log entry
63). -/
def Obligations.ContextsAndQueues : Prop := ContextCommands ∧ DestroyCommands

/-- R288, R400, R401, R405 to R416: trust and its loss, requests over a port, boot, the watchdog, errors, links and
cooling (log entries 60, 65, 75, 94, 95, 96, 98, 100 and 101 name what the model settles). -/
def Obligations.TrustAndModule : Prop := TrustEvents ∧ ModuleEvents
end

