-- ==== Sys2Proof/Laws/Exec.lean ====
section
/-!
SUPPORT. What exec is on each constructor: one rewriting lemma per instruction, so that no proof unfolds the dispatch.
-/
namespace Sys2Proof.Machine

theorem exec_iaddS32 (g d a b s) : exec (.iaddS32 g d a b) s = execIaddS32 g d a b s := rfl
theorem exec_isubS32 (g d a b s) : exec (.isubS32 g d a b) s = execIsubS32 g d a b s := rfl
theorem exec_iaddS64 (g d a b s) : exec (.iaddS64 g d a b) s = execIaddS64 g d a b s := rfl
theorem exec_isubS64 (g d a b s) : exec (.isubS64 g d a b) s = execIsubS64 g d a b s := rfl
theorem exec_imulS32 (g d a b s) : exec (.imulS32 g d a b) s = execImulS32 g d a b s := rfl
theorem exec_imulhiS32 (g d a b s) : exec (.imulhiS32 g d a b) s = execImulhiS32 g d a b s := rfl
theorem exec_imulhiZ32 (g d a b s) : exec (.imulhiZ32 g d a b) s = execImulhiZ32 g d a b s := rfl
theorem exec_imadS32 (g d a b s) : exec (.imadS32 g d a b) s = execImadS32 g d a b s := rfl
theorem exec_iminS32 (g d a b s) : exec (.iminS32 g d a b) s = execIminS32 g d a b s := rfl
theorem exec_iminZ32 (g d a b s) : exec (.iminZ32 g d a b) s = execIminZ32 g d a b s := rfl
theorem exec_imaxS32 (g d a b s) : exec (.imaxS32 g d a b) s = execImaxS32 g d a b s := rfl
theorem exec_imaxZ32 (g d a b s) : exec (.imaxZ32 g d a b) s = execImaxZ32 g d a b s := rfl
theorem exec_iabsS32 (g d a s) : exec (.iabsS32 g d a) s = execIabsS32 g d a s := rfl
theorem exec_imulwS32 (g d a b s) : exec (.imulwS32 g d a b) s = execImulwS32 g d a b s := rfl
theorem exec_imulwZ32 (g d a b s) : exec (.imulwZ32 g d a b) s = execImulwZ32 g d a b s := rfl
theorem exec_leaS64 (g d a b s) : exec (.leaS64 g d a b) s = execLeaS64 g d a b s := rfl
theorem exec_andZ32 (g d a b s) : exec (.andZ32 g d a b) s = execAndZ32 g d a b s := rfl
theorem exec_orZ32 (g d a b s) : exec (.orZ32 g d a b) s = execOrZ32 g d a b s := rfl
theorem exec_xorZ32 (g d a b s) : exec (.xorZ32 g d a b) s = execXorZ32 g d a b s := rfl
theorem exec_andnZ32 (g d a b s) : exec (.andnZ32 g d a b) s = execAndnZ32 g d a b s := rfl
theorem exec_shlZ32 (g d a b s) : exec (.shlZ32 g d a b) s = execShlZ32 g d a b s := rfl
theorem exec_shrZ32 (g d a b s) : exec (.shrZ32 g d a b) s = execShrZ32 g d a b s := rfl
theorem exec_shrS32 (g d a b s) : exec (.shrS32 g d a b) s = execShrS32 g d a b s := rfl
theorem exec_rotZ32 (g d a b s) : exec (.rotZ32 g d a b) s = execRotZ32 g d a b s := rfl
theorem exec_popcZ32 (g d a s) : exec (.popcZ32 g d a) s = execPopcZ32 g d a s := rfl
theorem exec_clzZ32 (g d a s) : exec (.clzZ32 g d a) s = execClzZ32 g d a s := rfl
theorem exec_brevZ32 (g d a s) : exec (.brevZ32 g d a) s = execBrevZ32 g d a s := rfl
theorem exec_bfeZ32 (g d a b s) : exec (.bfeZ32 g d a b) s = execBfeZ32 g d a b s := rfl
theorem exec_bfeS32 (g d a b s) : exec (.bfeS32 g d a b) s = execBfeS32 g d a b s := rfl
theorem exec_bfiZ32 (g d a b s) : exec (.bfiZ32 g d a b) s = execBfiZ32 g d a b s := rfl
theorem exec_movZ32 (g d a s) : exec (.movZ32 g d a) s = execMovZ32 g d a s := rfl
theorem exec_movZ64 (g d a s) : exec (.movZ64 g d a) s = execMovZ64 g d a s := rfl
theorem exec_icmpEqZ32 (g pt pf a b s) : exec (.icmpEqZ32 g pt pf a b) s = execIcmpEqZ32 g pt pf a b s := rfl
theorem exec_icmpLtS32 (g pt pf a b s) : exec (.icmpLtS32 g pt pf a b) s = execIcmpLtS32 g pt pf a b s := rfl
theorem exec_icmpLeS32 (g pt pf a b s) : exec (.icmpLeS32 g pt pf a b) s = execIcmpLeS32 g pt pf a b s := rfl
theorem exec_icmpLtZ32 (g pt pf a b s) : exec (.icmpLtZ32 g pt pf a b) s = execIcmpLtZ32 g pt pf a b s := rfl
theorem exec_icmpLeZ32 (g pt pf a b s) : exec (.icmpLeZ32 g pt pf a b) s = execIcmpLeZ32 g pt pf a b s := rfl
theorem exec_plop (g pt pf pa pb table s) : exec (.plop g pt pf pa pb table) s = execPlop g pt pf pa pb table s := rfl
theorem exec_voteAny (g pt pf pa n s) : exec (.voteAny g pt pf pa n) s = execVoteAny g pt pf pa n s := rfl
theorem exec_voteAll (g pt pf pa n s) : exec (.voteAll g pt pf pa n) s = execVoteAll g pt pf pa n s := rfl
theorem exec_ballot (g d pa n s) : exec (.ballot g d pa n) s = execBallot g d pa n s := rfl
theorem exec_shflIdx (g d a b s) : exec (.shflIdx g d a b) s = execShflIdx g d a b s := rfl
theorem exec_shflUp (g d a b s) : exec (.shflUp g d a b) s = execShflUp g d a b s := rfl
theorem exec_shflDn (g d a b s) : exec (.shflDn g d a b) s = execShflDn g d a b s := rfl
theorem exec_shflXor (g d a b s) : exec (.shflXor g d a b) s = execShflXor g d a b s := rfl
theorem exec_iredaddS32 (g d a s) : exec (.iredaddS32 g d a) s = execIredaddS32 g d a s := rfl
theorem exec_iredminS32 (g d a s) : exec (.iredminS32 g d a) s = execIredminS32 g d a s := rfl
theorem exec_iredmaxS32 (g d a s) : exec (.iredmaxS32 g d a) s = execIredmaxS32 g d a s := rfl
theorem exec_faddF32 (g d a b s) : exec (.faddF32 g d a b) s = execFaddF32 g d a b s := rfl
theorem exec_fsubF32 (g d a b s) : exec (.fsubF32 g d a b) s = execFsubF32 g d a b s := rfl
theorem exec_fmulF32 (g d a b s) : exec (.fmulF32 g d a b) s = execFmulF32 g d a b s := rfl
theorem exec_ffmaF32 (g d a b s) : exec (.ffmaF32 g d a b) s = execFfmaF32 g d a b s := rfl
theorem exec_fminF32 (g d a b s) : exec (.fminF32 g d a b) s = execFminF32 g d a b s := rfl
theorem exec_fmaxF32 (g d a b s) : exec (.fmaxF32 g d a b) s = execFmaxF32 g d a b s := rfl
theorem exec_fabsF32 (g d a s) : exec (.fabsF32 g d a) s = execFabsF32 g d a s := rfl
theorem exec_fnegF32 (g d a s) : exec (.fnegF32 g d a) s = execFnegF32 g d a s := rfl
theorem exec_faddF16x2 (g d a b s) : exec (.faddF16x2 g d a b) s = execFaddF16x2 g d a b s := rfl
theorem exec_fsubF16x2 (g d a b s) : exec (.fsubF16x2 g d a b) s = execFsubF16x2 g d a b s := rfl
theorem exec_fmulF16x2 (g d a b s) : exec (.fmulF16x2 g d a b) s = execFmulF16x2 g d a b s := rfl
theorem exec_ffmaF16x2 (g d a b s) : exec (.ffmaF16x2 g d a b) s = execFfmaF16x2 g d a b s := rfl
theorem exec_faddBf16x2 (g d a b s) : exec (.faddBf16x2 g d a b) s = execFaddBf16x2 g d a b s := rfl
theorem exec_fsubBf16x2 (g d a b s) : exec (.fsubBf16x2 g d a b) s = execFsubBf16x2 g d a b s := rfl
theorem exec_fmulBf16x2 (g d a b s) : exec (.fmulBf16x2 g d a b) s = execFmulBf16x2 g d a b s := rfl
theorem exec_ffmaBf16x2 (g d a b s) : exec (.ffmaBf16x2 g d a b) s = execFfmaBf16x2 g d a b s := rfl
theorem exec_fcmpEqF32 (g pt pf a b s) : exec (.fcmpEqF32 g pt pf a b) s = execFcmpEqF32 g pt pf a b s := rfl
theorem exec_fcmpLtF32 (g pt pf a b s) : exec (.fcmpLtF32 g pt pf a b) s = execFcmpLtF32 g pt pf a b s := rfl
theorem exec_fcmpLeF32 (g pt pf a b s) : exec (.fcmpLeF32 g pt pf a b) s = execFcmpLeF32 g pt pf a b s := rfl
theorem exec_fcmpUnF32 (g pt pf a b s) : exec (.fcmpUnF32 g pt pf a b) s = execFcmpUnF32 g pt pf a b s := rfl
theorem exec_fredaddF32 (g d a s) : exec (.fredaddF32 g d a) s = execFredaddF32 g d a s := rfl
theorem exec_fredminF32 (g d a s) : exec (.fredminF32 g d a) s = execFredminF32 g d a s := rfl
theorem exec_fredmaxF32 (g d a s) : exec (.fredmaxF32 g d a) s = execFredmaxF32 g d a s := rfl
theorem exec_fdivF32 (g d a b s) : exec (.fdivF32 g d a b) s = execFdivF32 g d a b s := rfl
theorem exec_iaddS16x2 (g d a b s) : exec (.iaddS16x2 g d a b) s = execIaddS16x2 g d a b s := rfl
theorem exec_isubS16x2 (g d a b s) : exec (.isubS16x2 g d a b) s = execIsubS16x2 g d a b s := rfl
theorem exec_iaddsS16x2 (g d a b s) : exec (.iaddsS16x2 g d a b) s = execIaddsS16x2 g d a b s := rfl
theorem exec_isubsS16x2 (g d a b s) : exec (.isubsS16x2 g d a b) s = execIsubsS16x2 g d a b s := rfl
theorem exec_iaddsZ16x2 (g d a b s) : exec (.iaddsZ16x2 g d a b) s = execIaddsZ16x2 g d a b s := rfl
theorem exec_isubsZ16x2 (g d a b s) : exec (.isubsZ16x2 g d a b) s = execIsubsZ16x2 g d a b s := rfl
theorem exec_imulS16x2 (g d a b s) : exec (.imulS16x2 g d a b) s = execImulS16x2 g d a b s := rfl
theorem exec_imadS16x2 (g d a b s) : exec (.imadS16x2 g d a b) s = execImadS16x2 g d a b s := rfl
theorem exec_iminS16x2 (g d a b s) : exec (.iminS16x2 g d a b) s = execIminS16x2 g d a b s := rfl
theorem exec_imaxS16x2 (g d a b s) : exec (.imaxS16x2 g d a b) s = execImaxS16x2 g d a b s := rfl
theorem exec_iminZ16x2 (g d a b s) : exec (.iminZ16x2 g d a b) s = execIminZ16x2 g d a b s := rfl
theorem exec_imaxZ16x2 (g d a b s) : exec (.imaxZ16x2 g d a b) s = execImaxZ16x2 g d a b s := rfl
theorem exec_iabsS16x2 (g d a s) : exec (.iabsS16x2 g d a) s = execIabsS16x2 g d a s := rfl
theorem exec_sadZ8x4 (g d a b s) : exec (.sadZ8x4 g d a b) s = execSadZ8x4 g d a b s := rfl
theorem exec_sadZ16x2 (g d a b s) : exec (.sadZ16x2 g d a b) s = execSadZ16x2 g d a b s := rfl
theorem exec_dotS16x2 (g d a b s) : exec (.dotS16x2 g d a b) s = execDotS16x2 g d a b s := rfl
theorem exec_frcpF32 (g d a s) : exec (.frcpF32 g d a) s = execFrcpF32 g d a s := rfl
theorem exec_frsqF32 (g d a s) : exec (.frsqF32 g d a) s = execFrsqF32 g d a s := rfl
theorem exec_fsqrtF32 (g d a s) : exec (.fsqrtF32 g d a) s = execFsqrtF32 g d a s := rfl
theorem exec_fexp2F32 (g d a s) : exec (.fexp2F32 g d a) s = execFexp2F32 g d a s := rfl
theorem exec_flog2F32 (g d a s) : exec (.flog2F32 g d a) s = execFlog2F32 g d a s := rfl
theorem exec_fsinF32 (g d a s) : exec (.fsinF32 g d a) s = execFsinF32 g d a s := rfl
theorem exec_fcosF32 (g d a s) : exec (.fcosF32 g d a) s = execFcosF32 g d a s := rfl
theorem exec_ftanhF32 (g d a s) : exec (.ftanhF32 g d a) s = execFtanhF32 g d a s := rfl
theorem exec_cvt (g d a k s) : exec (.cvt g d a k) s = execCvt g d a k s := rfl
theorem exec_quant (g d a b s) : exec (.quant g d a b) s = execQuant g d a b s := rfl
theorem exec_deq (g d a b s) : exec (.deq g d a b) s = execDeq g d a b s := rfl
theorem exec_pxunpack (g d a b s) : exec (.pxunpack g d a b) s = execPxunpack g d a b s := rfl
theorem exec_pxpack (g d a b s) : exec (.pxpack g d a b) s = execPxpack g d a b s := rfl
theorem exec_fgeluF32 (g d a s) : exec (.fgeluF32 g d a) s = execFgeluF32 g d a s := rfl
theorem exec_fsigmF32 (g d a s) : exec (.fsigmF32 g d a) s = execFsigmF32 g d a s := rfl
theorem exec_fexp2F16x2 (g d a s) : exec (.fexp2F16x2 g d a) s = execFexp2F16x2 g d a s := rfl
theorem exec_bra (g disp s) : exec (.bra g disp) s = execBra g disp s := rfl
theorem exec_call (g disp s) : exec (.call g disp) s = execCall g disp s := rfl
theorem exec_ret (g s) : exec (.ret g) s = execRet g s := rfl
theorem exec_exit (g s) : exec (.exit g) s = execExit g s := rfl
theorem exec_yield (g s) : exec (.yield g) s = execYield g s := rfl
theorem exec_brx (g a s) : exec (.brx g a) s = execBrx g a s := rfl
theorem exec_callx (g a s) : exec (.callx g a) s = execCallx g a s := rfl
theorem exec_lnret (g s) : exec (.lnret g) s = execLnret g s := rfl
theorem exec_ldZ32 (g d a dc ofs s) : exec (.ldZ32 g d a dc ofs) s = execLdZ32 g d a dc ofs s := rfl
theorem exec_ldZ64 (g d a dc ofs s) : exec (.ldZ64 g d a dc ofs) s = execLdZ64 g d a dc ofs s := rfl
theorem exec_stZ32 (g d a dc ofs s) : exec (.stZ32 g d a dc ofs) s = execStZ32 g d a dc ofs s := rfl
theorem exec_stZ64 (g d a dc ofs s) : exec (.stZ64 g d a dc ofs) s = execStZ64 g d a dc ofs s := rfl
theorem exec_ldroZ32 (g d a dc ofs s) : exec (.ldroZ32 g d a dc ofs) s = execLdroZ32 g d a dc ofs s := rfl
theorem exec_ldroZ64 (g d a dc ofs s) : exec (.ldroZ64 g d a dc ofs) s = execLdroZ64 g d a dc ofs s := rfl
theorem exec_stntZ32 (g d a dc ofs s) : exec (.stntZ32 g d a dc ofs) s = execStntZ32 g d a dc ofs s := rfl
theorem exec_stntZ64 (g d a dc ofs s) : exec (.stntZ64 g d a dc ofs) s = execStntZ64 g d a dc ofs s := rfl
theorem exec_ldt (g d a dc s) : exec (.ldt g d a dc) s = execLdt g d a dc s := rfl
theorem exec_ldtC (g d a dc s) : exec (.ldtC g d a dc) s = execLdtC g d a dc s := rfl
theorem exec_sth (g d a dc s) : exec (.sth g d a dc) s = execSth g d a dc s := rfl
theorem exec_acq (g d a dc ofs s) : exec (.acq g d a dc ofs) s = execAcq g d a dc ofs s := rfl
theorem exec_rel (g d a dc ofs s) : exec (.rel g d a dc ofs) s = execRel g d a dc ofs s := rfl
theorem exec_mfs (g d nr s) : exec (.mfs g d nr) s = execMfs g d nr s := rfl
theorem exec_mts (g nr b s) : exec (.mts g nr b) s = execMts g nr b s := rfl
theorem exec_idivS32 (g d a b s) : exec (.idivS32 g d a b) s = execIdivS32 g d a b s := rfl
theorem exec_idivZ32 (g d a b s) : exec (.idivZ32 g d a b) s = execIdivZ32 g d a b s := rfl
theorem exec_iremS32 (g d a b s) : exec (.iremS32 g d a b) s = execIremS32 g d a b s := rfl
theorem exec_iremZ32 (g d a b s) : exec (.iremZ32 g d a b) s = execIremZ32 g d a b s := rfl
theorem exec_sel (g d a b w n p s) : exec (.sel g d a b w n p) s = execSel g d a b w n p s := rfl
theorem exec_icmpS64 (g pt pf a b cond s) : exec (.icmpS64 g pt pf a b cond) s = execIcmpS64 g pt pf a b cond s := rfl
theorem exec_icmpZ64 (g pt pf a b cond s) : exec (.icmpZ64 g pt pf a b cond) s = execIcmpZ64 g pt pf a b cond s := rfl
theorem exec_iadd3S32 (g d a b c s) : exec (.iadd3S32 g d a b c) s = execIadd3S32 g d a b c s := rfl
theorem exec_shlZ64 (g d a b s) : exec (.shlZ64 g d a b) s = execShlZ64 g d a b s := rfl
theorem exec_shrZ64 (g d a b s) : exec (.shrZ64 g d a b) s = execShrZ64 g d a b s := rfl
theorem exec_shrS64 (g d a b s) : exec (.shrS64 g d a b) s = execShrS64 g d a b s := rfl
theorem exec_andZ64 (g d a b s) : exec (.andZ64 g d a b) s = execAndZ64 g d a b s := rfl
theorem exec_orZ64 (g d a b s) : exec (.orZ64 g d a b) s = execOrZ64 g d a b s := rfl
theorem exec_xorZ64 (g d a b s) : exec (.xorZ64 g d a b) s = execXorZ64 g d a b s := rfl
theorem exec_popcZ64 (g d a s) : exec (.popcZ64 g d a) s = execPopcZ64 g d a s := rfl
theorem exec_clzZ64 (g d a s) : exec (.clzZ64 g d a) s = execClzZ64 g d a s := rfl
theorem exec_ffma3F32 (g d a b c s) : exec (.ffma3F32 g d a b c) s = execFfma3F32 g d a b c s := rfl
theorem exec_ffma3F16x2 (g d a b c s) : exec (.ffma3F16x2 g d a b c) s = execFfma3F16x2 g d a b c s := rfl
theorem exec_ffma3Bf16x2 (g d a b c s) : exec (.ffma3Bf16x2 g d a b c) s = execFfma3Bf16x2 g d a b c s := rfl
theorem exec_faddF32Rm (g d a b rm s) : exec (.faddF32Rm g d a b rm) s = execFaddF32Rm g d a b rm s := rfl
theorem exec_fmulF32Rm (g d a b rm s) : exec (.fmulF32Rm g d a b rm) s = execFmulF32Rm g d a b rm s := rfl
theorem exec_dotsS16x2 (g d a b c s) : exec (.dotsS16x2 g d a b c) s = execDotsS16x2 g d a b c s := rfl
theorem exec_fcmpF16 (g pt pf a b h cc s) : exec (.fcmpF16 g pt pf a b h cc) s = execFcmpF16 g pt pf a b h cc s := rfl
theorem exec_fcmpBf16 (g pt pf a b h cc s) : exec (.fcmpBf16 g pt pf a b h cc) s = execFcmpBf16 g pt pf a b h cc s := rfl
theorem exec_cvtWide (g d a dst src rm sat spos dpos s) : exec (.cvtWide g d a dst src rm sat spos dpos) s = execCvtWide g d a dst src rm sat spos dpos s := rfl
theorem exec_ldType (g d a dc ofs cp ty s) : exec (.ldType g d a dc ofs cp ty) s = execLdType g d a dc ofs cp ty s := rfl
theorem exec_stType (g d a dc ofs cp ty s) : exec (.stType g d a dc ofs cp ty) s = execStType g d a dc ofs cp ty s := rfl
theorem exec_atom (g d a dc ofs c scope ty op s) : exec (.atom g d a dc ofs c scope ty op) s = execAtom g d a dc ofs c scope ty op s := rfl
theorem exec_ldres (g d a dc ofs w s) : exec (.ldres g d a dc ofs w) s = execLdres g d a dc ofs w s := rfl
theorem exec_stcon (g d a dc ofs c w s) : exec (.stcon g d a dc ofs c w) s = execStcon g d a dc ofs c w s := rfl
theorem exec_fence (g dc scope s) : exec (.fence g dc scope) s = execFence g dc scope s := rfl
theorem exec_drainnt (g s) : exec (.drainnt g) s = execDrainnt g s := rfl
theorem exec_drainst (g s) : exec (.drainst g) s = execDrainst g s := rfl
theorem exec_xcopyIn (g d a dc c acq rel scope s) : exec (.xcopyIn g d a dc c acq rel scope) s = execXcopyIn g d a dc c acq rel scope s := rfl
theorem exec_xcopyOut (g d a dc c acq scope t2 s) : exec (.xcopyOut g d a dc c acq scope t2) s = execXcopyOut g d a dc c acq scope t2 s := rfl
theorem exec_xmcast (g d a dc c acq rel scope rb s) : exec (.xmcast g d a dc c acq rel scope rb) s = execXmcast g d a dc c acq rel scope rb s := rfl
theorem exec_fread (g d a dc c rel scope s) : exec (.fread g d a dc c rel scope) s = execFread g d a dc c rel scope s := rfl
theorem exec_fwrite (g d a dc c t2 s) : exec (.fwrite g d a dc c t2) s = execFwrite g d a dc c t2 s := rfl
theorem exec_waitc (g d a b w s) : exec (.waitc g d a b w) s = execWaitc g d a b w s := rfl
theorem exec_fork (g d a dc c s) : exec (.fork g d a dc c) s = execFork g d a dc c s := rfl
theorem exec_join (g d a dc s) : exec (.join g d a dc) s = execJoin g d a dc s := rfl
theorem exec_feed (g d a dc c s) : exec (.feed g d a dc c) s = execFeed g d a dc c s := rfl
theorem exec_take (g d t q c n s) : exec (.take g d t q c n) s = execTake g d t q c n s := rfl
theorem exec_barInit (g a k s) : exec (.barInit g a k) s = execBarInit g a k s := rfl
theorem exec_barArv (g k s) : exec (.barArv g k) s = execBarArv g k s := rfl
theorem exec_barAddr (g d k s) : exec (.barAddr g d k) s = execBarAddr g d k s := rfl
theorem exec_arrive (g a dc s) : exec (.arrive g a dc) s = execArrive g a dc s := rfl
theorem exec_bwait (g d a dc s) : exec (.bwait g d a dc) s = execBwait g d a dc s := rfl
theorem exec_caladv (g a s) : exec (.caladv g a) s = execCaladv g a s := rfl
theorem exec_caladvAllow (g a s) : exec (.caladvAllow g a) s = execCaladvAllow g a s := rfl
theorem exec_spawn (g d a dc s) : exec (.spawn g d a dc) s = execSpawn g d a dc s := rfl
theorem exec_lnsend (g d a b s) : exec (.lnsend g d a b) s = execLnsend g d a b s := rfl
theorem exec_lnclr (g d a s) : exec (.lnclr g d a) s = execLnclr g d a s := rfl
theorem exec_bkpt (g n s) : exec (.bkpt g n) s = execBkpt g n s := rfl
theorem exec_svcall (g n s) : exec (.svcall g n) s = execSvcall g n s := rfl
theorem exec_tret (g s) : exec (.tret g) s = execTret g s := rfl
theorem exec_termRay (g s) : exec (.termRay g) s = execTermRay g s := rfl
theorem exec_termBeam (g s) : exec (.termBeam g) s = execTermBeam g s := rfl
theorem exec_mma (g a b scope rel acq db da t s) : exec (.mma g a b scope rel acq db da t) s = execMma g a b scope rel acq db da t s := rfl
theorem exec_mmaz (g a b scope rel acq db da t s) : exec (.mmaz g a b scope rel acq db da t) s = execMmaz g a b scope rel acq db da t s := rfl
theorem exec_mzero (g t s) : exec (.mzero g t) s = execMzero g t s := rfl
theorem exec_mhaar (g a b scope rel t s) : exec (.mhaar g a b scope rel t) s = execMhaar g a b scope rel t s := rfl
theorem exec_mihaarTile (g scope rel t s) : exec (.mihaarTile g scope rel t) s = execMihaarTile g scope rel t s := rfl
theorem exec_mihaar (g a b scope rel s) : exec (.mihaar g a b scope rel) s = execMihaar g a b scope rel s := rfl
theorem exec_mthrSet (g a i s) : exec (.mthrSet g a i) s = execMthrSet g a i s := rfl
theorem exec_mthrTile (g a scope rel s) : exec (.mthrTile g a scope rel) s = execMthrTile g a scope rel s := rfl
theorem exec_msig (g a s) : exec (.msig g a) s = execMsig g a s := rfl
theorem exec_mwait (g a b e s) : exec (.mwait g a b e) s = execMwait g a b e s := rfl
theorem exec_mdesc (g a b j s) : exec (.mdesc g a b j) s = execMdesc g a b j s := rfl
theorem exec_mend (g s) : exec (.mend g) s = execMend g s := rfl
theorem exec_bankmodeSelect (cmd s) : exec (.bankmodeSelect cmd) s = execBankmodeSelect cmd s := rfl
theorem exec_bankmodeSwitch (cmd s) : exec (.bankmodeSwitch cmd) s = execBankmodeSwitch cmd s := rfl
theorem exec_bankSwitchStep (cl bank s) : exec (.bankSwitchStep cl bank) s = execBankSwitchStep cl bank s := rfl
theorem exec_clauseEntry (core pipe s) : exec (.clauseEntry core pipe) s = execClauseEntry core pipe s := rfl
theorem exec_issueStarvation (core pipe s) : exec (.issueStarvation core pipe) s = execIssueStarvation core pipe s := rfl
theorem exec_yieldTimeout (core rslot s) : exec (.yieldTimeout core rslot) s = execYieldTimeout core rslot s := rfl
theorem exec_slotStallEnd (core rslot s) : exec (.slotStallEnd core rslot) s = execSlotStallEnd core rslot s := rfl
theorem exec_pageWalk (die s) : exec (.pageWalk die) s = execPageWalk die s := rfl
theorem exec_loadComplete (core op s) : exec (.loadComplete core op) s = execLoadComplete core op s := rfl
theorem exec_storeCheck (core op s) : exec (.storeCheck core op) s = execStoreCheck core op s := rfl
theorem exec_storeFaultRecord (core op s) : exec (.storeFaultRecord core op) s = execStoreFaultRecord core op s := rfl
theorem exec_storeFaultReport (core rslot s) : exec (.storeFaultReport core rslot) s = execStoreFaultReport core rslot s := rfl
theorem exec_atomicComplete (core op s) : exec (.atomicComplete core op) s = execAtomicComplete core op s := rfl
theorem exec_fifoOperationComplete (core op s) : exec (.fifoOperationComplete core op) s = execFifoOperationComplete core op s := rfl
theorem exec_acqComplete (core op s) : exec (.acqComplete core op) s = execAcqComplete core op s := rfl
theorem exec_relComplete (core op s) : exec (.relComplete core op) s = execRelComplete core op s := rfl
theorem exec_fenceComplete (core op s) : exec (.fenceComplete core op) s = execFenceComplete core op s := rfl
theorem exec_dirtyWriteBack (level unit sector s) : exec (.dirtyWriteBack level unit sector) s = execDirtyWriteBack level unit sector s := rfl
theorem exec_copyAccept (core op s) : exec (.copyAccept core op) s = execCopyAccept core op s := rfl
theorem exec_copyChunkComplete (core op chunk second s) : exec (.copyChunkComplete core op chunk second) s = execCopyChunkComplete core op chunk second s := rfl
theorem exec_flashProgramComplete (core op s) : exec (.flashProgramComplete core op) s = execFlashProgramComplete core op s := rfl
theorem exec_ldtComplete (core op s) : exec (.ldtComplete core op) s = execLdtComplete core op s := rfl
theorem exec_sthComplete (core op s) : exec (.sthComplete core op) s = execSthComplete core op s := rfl
theorem exec_feedComplete (core op s) : exec (.feedComplete core op) s = execFeedComplete core op s := rfl
theorem exec_barrierArrival (k s) : exec (.barrierArrival k) s = execBarrierArrival k s := rfl
theorem exec_bwaitComplete (core op s) : exec (.bwaitComplete core op) s = execBwaitComplete core op s := rfl
theorem exec_spawnComplete (core op s) : exec (.spawnComplete core op) s = execSpawnComplete core op s := rfl
theorem exec_streamBegin (cl s) : exec (.streamBegin cl) s = execStreamBegin cl s := rfl
theorem exec_tileCommandExecute (cl s) : exec (.tileCommandExecute cl) s = execTileCommandExecute cl s := rfl
theorem exec_mwaitRelease (cl s) : exec (.mwaitRelease cl) s = execMwaitRelease cl s := rfl
theorem exec_streamEnd (cl s) : exec (.streamEnd cl) s = execStreamEnd cl s := rfl
theorem exec_loupeFrontierReport (core rslot s) : exec (.loupeFrontierReport core rslot) s = execLoupeFrontierReport core rslot s := rfl
theorem exec_loupeWaitReport (core rslot s) : exec (.loupeWaitReport core rslot) s = execLoupeWaitReport core rslot s := rfl
theorem exec_qdoor (fn q wr s) : exec (.qdoor fn q wr) s = execQdoor fn q wr s := rfl
theorem exec_queueHeaderPoll (q s) : exec (.queueHeaderPoll q) s = execQueueHeaderPoll q s := rfl
theorem exec_packetTake (q s) : exec (.packetTake q) s = execPacketTake q s := rfl
theorem exec_launchBegin (l s) : exec (.launchBegin l) s = execLaunchBegin l s := rfl
theorem exec_barrierPacketEvaluate (q s) : exec (.barrierPacketEvaluate q) s = execBarrierPacketEvaluate q s := rfl
theorem exec_aggregatorMerge (q s) : exec (.aggregatorMerge q) s = execAggregatorMerge q s := rfl
theorem exec_pageEntryTake (l pos s) : exec (.pageEntryTake l pos) s = execPageEntryTake l pos s := rfl
theorem exec_pageTranslate (l pos s) : exec (.pageTranslate l pos) s = execPageTranslate l pos s := rfl
theorem exec_flashSense (l pos s) : exec (.flashSense l pos) s = execFlashSense l pos s := rfl
theorem exec_ldpcDecode (l pos s) : exec (.ldpcDecode l pos) s = execLdpcDecode l pos s := rfl
theorem exec_pageFetch (l pos s) : exec (.pageFetch l pos) s = execPageFetch l pos s := rfl
theorem exec_pageDecompress (l pos s) : exec (.pageDecompress l pos) s = execPageDecompress l pos s := rfl
theorem exec_pageTransform (l pos s) : exec (.pageTransform l pos) s = execPageTransform l pos s := rfl
theorem exec_windowCarve (l pos s) : exec (.windowCarve l pos) s = execWindowCarve l pos s := rfl
theorem exec_pageLanding (l pos s) : exec (.pageLanding l pos) s = execPageLanding l pos s := rfl
theorem exec_dispatcherBankTake (cl bank s) : exec (.dispatcherBankTake cl bank) s = execDispatcherBankTake cl bank s := rfl
theorem exec_beamPlace (l pos s) : exec (.beamPlace l pos) s = execBeamPlace l pos s := rfl
theorem exec_gangPlace (l pos s) : exec (.gangPlace l pos) s = execGangPlace l pos s := rfl
theorem exec_beamComplete (l pos s) : exec (.beamComplete l pos) s = execBeamComplete l pos s := rfl
theorem exec_launchComplete (l s) : exec (.launchComplete l) s = execLaunchComplete l s := rfl
theorem exec_sliceExpiry (core ctx s) : exec (.sliceExpiry core ctx) s = execSliceExpiry core ctx s := rfl
theorem exec_preemptDecision (l pos trigger s) : exec (.preemptDecision l pos trigger) s = execPreemptDecision l pos trigger s := rfl
theorem exec_drainTimeout (l pos s) : exec (.drainTimeout l pos) s = execDrainTimeout l pos s := rfl
theorem exec_beamSave (l pos s) : exec (.beamSave l pos) s = execBeamSave l pos s := rfl
theorem exec_beamFlush (l pos s) : exec (.beamFlush l pos) s = execBeamFlush l pos s := rfl
theorem exec_replyIntoSaveRecord (l pos op s) : exec (.replyIntoSaveRecord l pos op) s = execReplyIntoSaveRecord l pos op s := rfl
theorem exec_beamResume (l pos s) : exec (.beamResume l pos) s = execBeamResume l pos s := rfl
theorem exec_lanternRecord (k s) : exec (.lanternRecord k) s = execLanternRecord k s := rfl
theorem exec_lanternDeliver (core rslot s) : exec (.lanternDeliver core rslot) s = execLanternDeliver core rslot s := rfl
theorem exec_evpop (core s) : exec (.evpop core) s = execEvpop core s := rfl
theorem exec_sffree (core mask s) : exec (.sffree core mask) s = execSffree core mask s := rfl
theorem exec_raycmdSelect (core rslot s) : exec (.raycmdSelect core rslot) s = execRaycmdSelect core rslot s := rfl
theorem exec_raycmdResume (core rslot s) : exec (.raycmdResume core rslot) s = execRaycmdResume core rslot s := rfl
theorem exec_raycmdResumeSkip (core rslot s) : exec (.raycmdResumeSkip core rslot) s = execRaycmdResumeSkip core rslot s := rfl
theorem exec_raycmdPark (core rslot s) : exec (.raycmdPark core rslot) s = execRaycmdPark core rslot s := rfl
theorem exec_raycmdTermRay (core rslot s) : exec (.raycmdTermRay core rslot) s = execRaycmdTermRay core rslot s := rfl
theorem exec_raycmdTermBeam (core rslot s) : exec (.raycmdTermBeam core rslot) s = execRaycmdTermBeam core rslot s := rfl
theorem exec_raycmdTermCtx (core rslot s) : exec (.raycmdTermCtx core rslot) s = execRaycmdTermCtx core rslot s := rfl
theorem exec_xlate (core v s) : exec (.xlate core v) s = execXlate core v s := rfl
theorem exec_tlbinvPage (core ctx va s) : exec (.tlbinvPage core ctx va) s = execTlbinvPage core ctx va s := rfl
theorem exec_tlbinvContext (core ctx s) : exec (.tlbinvContext core ctx) s = execTlbinvContext core ctx s := rfl
theorem exec_tlbinvAll (core s) : exec (.tlbinvAll core) s = execTlbinvAll core s := rfl
theorem exec_raywin (core off size v s) : exec (.raywin core off size v) s = execRaywin core off size v s := rfl
theorem exec_createCtx (fn blk s) : exec (.createCtx fn blk) s = execCreateCtx fn blk s := rfl
theorem exec_destroyCtx (fn blk s) : exec (.destroyCtx fn blk) s = execDestroyCtx fn blk s := rfl
theorem exec_createQueue (fn blk s) : exec (.createQueue fn blk) s = execCreateQueue fn blk s := rfl
theorem exec_destroyQueue (fn blk s) : exec (.destroyQueue fn blk) s = execDestroyQueue fn blk s := rfl
theorem exec_clearHalt (fn blk s) : exec (.clearHalt fn blk) s = execClearHalt fn blk s := rfl
theorem exec_suspend (fn blk s) : exec (.suspend fn blk) s = execSuspend fn blk s := rfl
theorem exec_resume (fn blk s) : exec (.resume fn blk) s = execResume fn blk s := rfl
theorem exec_confirmBoot (fn blk s) : exec (.confirmBoot fn blk) s = execConfirmBoot fn blk s := rfl
theorem exec_stageImage (fn blk s) : exec (.stageImage fn blk) s = execStageImage fn blk s := rfl
theorem exec_setPowerCap (fn blk s) : exec (.setPowerCap fn blk) s = execSetPowerCap fn blk s := rfl
theorem exec_readLog (fn blk s) : exec (.readLog fn blk) s = execReadLog fn blk s := rfl
theorem exec_flashStatus (fn blk s) : exec (.flashStatus fn blk) s = execFlashStatus fn blk s := rfl
theorem exec_assignFlash (fn blk s) : exec (.assignFlash fn blk) s = execAssignFlash fn blk s := rfl
theorem exec_eraseFlash (fn blk s) : exec (.eraseFlash fn blk) s = execEraseFlash fn blk s := rfl
theorem exec_nonce (fn blk s) : exec (.nonce fn blk) s = execNonce fn blk s := rfl
theorem exec_releaseOwner (fn blk s) : exec (.releaseOwner fn blk) s = execReleaseOwner fn blk s := rfl
theorem exec_claimOwner (fn blk s) : exec (.claimOwner fn blk) s = execClaimOwner fn blk s := rfl
theorem exec_lnpay (fn k v s) : exec (.lnpay fn k v) s = execLnpay fn k v s := rfl
theorem exec_lndoor (fn k v s) : exec (.lndoor fn k v) s = execLndoor fn k v s := rfl
theorem exec_registerWriteOther (fn off v s) : exec (.registerWriteOther fn off v) s = execRegisterWriteOther fn off v s := rfl
theorem exec_trustLoss (fn s) : exec (.trustLoss fn) s = execTrustLoss fn s := rfl
theorem exec_moduleReset (s) : exec .moduleReset s = execModuleReset s := rfl
theorem exec_watchdogExpiry (s) : exec .watchdogExpiry s = execWatchdogExpiry s := rfl
theorem exec_imageBlockFill (blk s) : exec (.imageBlockFill blk) s = execImageBlockFill blk s := rfl
theorem exec_sharedBootRetry (s) : exec .sharedBootRetry s = execSharedBootRetry s := rfl
theorem exec_patrolScrub (unit addr s) : exec (.patrolScrub unit addr) s = execPatrolScrub unit addr s := rfl
theorem exec_flitCrcFail (link s) : exec (.flitCrcFail link) s = execFlitCrcFail link s := rfl
theorem exec_thermalThrottle (on s) : exec (.thermalThrottle on) s = execThermalThrottle on s := rfl
theorem exec_thermalTrip (s) : exec .thermalTrip s = execThermalTrip s := rfl
theorem exec_spdmRequest (fn msg s) : exec (.spdmRequest fn msg) s = execSpdmRequest fn msg s := rfl
theorem exec_peerRequest (fn req s) : exec (.peerRequest fn req) s = execPeerRequest fn req s := rfl

end Sys2Proof.Machine
end

