-- ==== Sys2Proof/Laws/Lanes.lean ====
section
/-!
SUPPORT. Lemmas about lane masks, lane tables and maps: what a bit of a mask from a rule is, and what reading after
writing gives.
-/
namespace Sys2Proof.Machine

/-! ### Masks -/

theorem maskSum_testBit (f : Nat → Bool) (n : Nat) :
    (List.range n).foldl (fun m i => if f i then m + 2 ^ i else m) 0 < 2 ^ n ∧
      ∀ k, ((List.range n).foldl (fun m i => if f i then m + 2 ^ i else m) 0).testBit k = (decide (k < n) && f k) := by
  induction n with
  | zero => simp
  | succ n ih =>
    obtain ⟨hlt, hbit⟩ := ih
    rw [List.range_succ, List.foldl_append]
    simp only [List.foldl_cons, List.foldl_nil]
    generalize (List.range n).foldl (fun m i => if f i then m + 2 ^ i else m) 0 = x at hlt hbit ⊢
    cases hf : f n with
    | false =>
      refine ⟨by simp [pow_succ]; omega, fun k => ?_⟩
      rcases Nat.lt_trichotomy k n with hk | hk | hk
      · simp [hbit, hk, Nat.lt_succ_of_lt hk]
      · subst hk; simp [hbit, hf]
      · have h1 : ¬ k < n := by omega
        have h2 : ¬ k < n + 1 := by omega
        simp [hbit, h1, h2]
    | true =>
      refine ⟨by simp [pow_succ]; omega, fun k => ?_⟩
      rw [if_pos rfl, Nat.add_comm]
      rcases Nat.lt_trichotomy k n with hk | hk | hk
      · simp [Nat.testBit_two_pow_add_gt hk, hbit, hk, Nat.lt_succ_of_lt hk]
      · subst hk; simp [Nat.testBit_two_pow_add_eq, hbit, hf]
      · have h2 : ¬ k < n + 1 := by omega
        have h3 : 2 ^ n + x < 2 ^ k := by
          have : 2 ^ (n + 1) ≤ 2 ^ k := Nat.pow_le_pow_right (by omega) (by omega)
          rw [pow_succ] at this; omega
        simp [Nat.testBit_lt_two_pow h3, h2]

/-- A bit of a mask from a rule. -/
@[simp] theorem bit_maskOf (f : Nat → Bool) (k : Nat) : bit (maskOf f) k = (decide (k < 32) && f k) := by
  rw [bit, maskOf, BitVec.getLsbD_ofNat, (maskSum_testBit f 32).2 k]
  cases decide (k < 32) <;> simp

@[simp] theorem bit_and (a b : Mask) (k : Nat) : bit (a &&& b) k = (bit a k && bit b k) := by simp [bit]
@[simp] theorem bit_or (a b : Mask) (k : Nat) : bit (a ||| b) k = (bit a k || bit b k) := by simp [bit]
theorem bit_not (a : Mask) {k : Nat} (h : k < 32) : bit (~~~a) k = !bit a k := by simp [bit, h]
@[simp] theorem bit_zero (k : Nat) : bit 0#32 k = false := by simp [bit]

/-- Two masks with the same bits are one mask. -/
theorem mask_ext {a b : Mask} (h : ∀ k < 32, bit a k = bit b k) : a = b := by
  apply BitVec.eq_of_getLsbD_eq
  intro i hi
  exact h i hi

/-- No active lane meets a condition exactly when the mask of those that do is 0. -/
theorem lanesWhere_eq_zero {act : Mask} {f : Nat → Bool} :
    lanesWhere act f = 0 ↔ ∀ k < 32, bit act k = true → f k = false := by
  constructor
  · intro h k hk ha
    have := congrArg (fun m => bit m k) h
    simpa [lanesWhere, hk, ha] using this
  · intro h
    apply mask_ext
    intro k hk
    cases ha : bit act k with
    | false => simp [lanesWhere, ha]
    | true => simp [lanesWhere, ha, hk, h k hk ha]

/-- Some active lane meets a condition. -/
theorem lanesWhere_ne_zero {act : Mask} {f : Nat → Bool} :
    lanesWhere act f ≠ 0 ↔ ∃ k < 32, bit act k = true ∧ f k = true := by
  rw [ne_eq, lanesWhere_eq_zero]
  push Not
  simp

/-! ### Lane tables -/

@[simp] theorem laneGet_laneTab {α : Type} (f : Nat → α) (d : α) {i : Nat} (h : i < 32) :
    laneGet (laneTab f) d i = f i := by
  simp [laneGet, laneTab, h]

/-! ### Maps -/

@[simp] theorem SMap.get?_put_self {α : Type} (m : SMap α) (k : Nat) (x : α) :
    SMap.get? (SMap.put m k x) k = some x := by
  induction m with
  | nil => simp [SMap.put, SMap.get?]
  | cons p t ih =>
    obtain ⟨j, v⟩ := p
    unfold SMap.put
    split
    · simp [SMap.get?]
    · split
      · simp [SMap.get?]
      · rename_i h1 h2
        have : ¬ j = k := fun h => h2 h.symm
        simp [SMap.get?, this, ih]

theorem SMap.get?_put_ne {α : Type} (m : SMap α) {k n : Nat} (x : α) (h : n ≠ k) :
    SMap.get? (SMap.put m k x) n = SMap.get? m n := by
  have hk : ¬ k = n := fun e => h e.symm
  induction m with
  | nil => simp [SMap.put, SMap.get?, hk]
  | cons p t ih =>
    obtain ⟨j, v⟩ := p
    unfold SMap.put
    split
    · simp [SMap.get?, hk]
    · split
      · rename_i h2
        subst h2
        simp [SMap.get?, hk]
      · simp [SMap.get?, ih]

@[simp] theorem SMap.get_put_self {α : Type} (m : SMap α) (d : α) (k : Nat) (x : α) :
    SMap.get (SMap.put m k x) d k = x := by
  simp [SMap.get]

theorem SMap.get_put_ne {α : Type} (m : SMap α) (d : α) {k n : Nat} (x : α) (h : n ≠ k) :
    SMap.get (SMap.put m k x) d n = SMap.get m d n := by
  simp [SMap.get, SMap.get?_put_ne m x h]

/-- A change of a value is a put where there is one. -/
theorem SMap.get?_upd {α : Type} (m : SMap α) (k n : Nat) (f : α → α) :
    SMap.get? (SMap.upd m k f) n = if n = k then (SMap.get? m k).map f else SMap.get? m n := by
  unfold SMap.upd
  split
  · rename_i v hv
    split
    · rename_i h; subst h; simp [hv]
    · rename_i h; exact SMap.get?_put_ne m _ h
  · rename_i hv
    split
    · rename_i h; subst h; simp [hv]
    · rfl

end Sys2Proof.Machine
end

