-- ==== Sys2Proof/Laws/State.lean ====
section
/-!
SUPPORT. One lemma per field per update of the state, and reading a core, ray, cluster, beam or record after one of
them has been changed, so that no proof unfolds a record update.
-/
namespace Sys2Proof.Machine

/-! ### The fields that an update leaves -/

@[simp] theorem State.setCore_turn (s : State) (k : Nat) (c : Core) : (s.setCore k c).turn = s.turn := rfl
@[simp] theorem State.setCore_cur (s : State) (k : Nat) (c : Core) : (s.setCore k c).cur = s.cur := rfl
@[simp] theorem State.setCore_inputs (s : State) (k : Nat) (c : Core) : (s.setCore k c).inputs = s.inputs := rfl
@[simp] theorem State.setCore_tick (s : State) (k : Nat) (c : Core) : (s.setCore k c).tick = s.tick := rfl
@[simp] theorem State.setCore_clock (s : State) (k : Nat) (c : Core) : (s.setCore k c).clock = s.clock := rfl
@[simp] theorem State.setCore_clusters (s : State) (k : Nat) (c : Core) : (s.setCore k c).clusters = s.clusters := rfl
@[simp] theorem State.setCore_l2 (s : State) (k : Nat) (c : Core) : (s.setCore k c).l2 = s.l2 := rfl
@[simp] theorem State.setCore_walks (s : State) (k : Nat) (c : Core) : (s.setCore k c).walks = s.walks := rfl
@[simp] theorem State.setCore_hbm (s : State) (k : Nat) (c : Core) : (s.setCore k c).hbm = s.hbm := rfl
@[simp] theorem State.setCore_host (s : State) (k : Nat) (c : Core) : (s.setCore k c).host = s.host := rfl
@[simp] theorem State.setCore_beams (s : State) (k : Nat) (c : Core) : (s.setCore k c).beams = s.beams := rfl
@[simp] theorem State.setCore_saved (s : State) (k : Nat) (c : Core) : (s.setCore k c).saved = s.saved := rfl
@[simp] theorem State.setCore_launches (s : State) (k : Nat) (c : Core) : (s.setCore k c).launches = s.launches := rfl
@[simp] theorem State.setCore_nextLaunch (s : State) (k : Nat) (c : Core) : (s.setCore k c).nextLaunch = s.nextLaunch := rfl
@[simp] theorem State.setCore_ctxs (s : State) (k : Nat) (c : Core) : (s.setCore k c).ctxs = s.ctxs := rfl
@[simp] theorem State.setCore_queues (s : State) (k : Nat) (c : Core) : (s.setCore k c).queues = s.queues := rfl
@[simp] theorem State.setCore_fns (s : State) (k : Nat) (c : Core) : (s.setCore k c).fns = s.fns := rfl
@[simp] theorem State.setCore_module (s : State) (k : Nat) (c : Core) : (s.setCore k c).module = s.module := rfl
@[simp] theorem State.setCore_lnsends (s : State) (k : Nat) (c : Core) : (s.setCore k c).lnsends = s.lnsends := rfl
@[simp] theorem State.setCore_arrivals (s : State) (k : Nat) (c : Core) : (s.setCore k c).arrivals = s.arrivals := rfl
@[simp] theorem State.setCore_landings (s : State) (k : Nat) (c : Core) : (s.setCore k c).landings = s.landings := rfl
@[simp] theorem State.setCore_poison (s : State) (k : Nat) (c : Core) : (s.setCore k c).poison = s.poison := rfl

@[simp] theorem State.updCore_turn (s : State) (k : Nat) (f : Core → Core) : (s.updCore k f).turn = s.turn := rfl
@[simp] theorem State.updCore_cur (s : State) (k : Nat) (f : Core → Core) : (s.updCore k f).cur = s.cur := rfl
@[simp] theorem State.updCore_inputs (s : State) (k : Nat) (f : Core → Core) : (s.updCore k f).inputs = s.inputs := rfl
@[simp] theorem State.updCore_tick (s : State) (k : Nat) (f : Core → Core) : (s.updCore k f).tick = s.tick := rfl
@[simp] theorem State.updCore_clock (s : State) (k : Nat) (f : Core → Core) : (s.updCore k f).clock = s.clock := rfl
@[simp] theorem State.updCore_clusters (s : State) (k : Nat) (f : Core → Core) : (s.updCore k f).clusters = s.clusters := rfl
@[simp] theorem State.updCore_l2 (s : State) (k : Nat) (f : Core → Core) : (s.updCore k f).l2 = s.l2 := rfl
@[simp] theorem State.updCore_walks (s : State) (k : Nat) (f : Core → Core) : (s.updCore k f).walks = s.walks := rfl
@[simp] theorem State.updCore_hbm (s : State) (k : Nat) (f : Core → Core) : (s.updCore k f).hbm = s.hbm := rfl
@[simp] theorem State.updCore_host (s : State) (k : Nat) (f : Core → Core) : (s.updCore k f).host = s.host := rfl
@[simp] theorem State.updCore_beams (s : State) (k : Nat) (f : Core → Core) : (s.updCore k f).beams = s.beams := rfl
@[simp] theorem State.updCore_saved (s : State) (k : Nat) (f : Core → Core) : (s.updCore k f).saved = s.saved := rfl
@[simp] theorem State.updCore_launches (s : State) (k : Nat) (f : Core → Core) : (s.updCore k f).launches = s.launches := rfl
@[simp] theorem State.updCore_nextLaunch (s : State) (k : Nat) (f : Core → Core) : (s.updCore k f).nextLaunch = s.nextLaunch := rfl
@[simp] theorem State.updCore_ctxs (s : State) (k : Nat) (f : Core → Core) : (s.updCore k f).ctxs = s.ctxs := rfl
@[simp] theorem State.updCore_queues (s : State) (k : Nat) (f : Core → Core) : (s.updCore k f).queues = s.queues := rfl
@[simp] theorem State.updCore_fns (s : State) (k : Nat) (f : Core → Core) : (s.updCore k f).fns = s.fns := rfl
@[simp] theorem State.updCore_module (s : State) (k : Nat) (f : Core → Core) : (s.updCore k f).module = s.module := rfl
@[simp] theorem State.updCore_lnsends (s : State) (k : Nat) (f : Core → Core) : (s.updCore k f).lnsends = s.lnsends := rfl
@[simp] theorem State.updCore_arrivals (s : State) (k : Nat) (f : Core → Core) : (s.updCore k f).arrivals = s.arrivals := rfl
@[simp] theorem State.updCore_landings (s : State) (k : Nat) (f : Core → Core) : (s.updCore k f).landings = s.landings := rfl
@[simp] theorem State.updCore_poison (s : State) (k : Nat) (f : Core → Core) : (s.updCore k f).poison = s.poison := rfl

@[simp] theorem State.setCluster_turn (s : State) (k : Nat) (c : Cluster) : (s.setCluster k c).turn = s.turn := rfl
@[simp] theorem State.setCluster_cur (s : State) (k : Nat) (c : Cluster) : (s.setCluster k c).cur = s.cur := rfl
@[simp] theorem State.setCluster_inputs (s : State) (k : Nat) (c : Cluster) : (s.setCluster k c).inputs = s.inputs := rfl
@[simp] theorem State.setCluster_tick (s : State) (k : Nat) (c : Cluster) : (s.setCluster k c).tick = s.tick := rfl
@[simp] theorem State.setCluster_clock (s : State) (k : Nat) (c : Cluster) : (s.setCluster k c).clock = s.clock := rfl
@[simp] theorem State.setCluster_cores (s : State) (k : Nat) (c : Cluster) : (s.setCluster k c).cores = s.cores := rfl
@[simp] theorem State.setCluster_l2 (s : State) (k : Nat) (c : Cluster) : (s.setCluster k c).l2 = s.l2 := rfl
@[simp] theorem State.setCluster_walks (s : State) (k : Nat) (c : Cluster) : (s.setCluster k c).walks = s.walks := rfl
@[simp] theorem State.setCluster_hbm (s : State) (k : Nat) (c : Cluster) : (s.setCluster k c).hbm = s.hbm := rfl
@[simp] theorem State.setCluster_host (s : State) (k : Nat) (c : Cluster) : (s.setCluster k c).host = s.host := rfl
@[simp] theorem State.setCluster_beams (s : State) (k : Nat) (c : Cluster) : (s.setCluster k c).beams = s.beams := rfl
@[simp] theorem State.setCluster_saved (s : State) (k : Nat) (c : Cluster) : (s.setCluster k c).saved = s.saved := rfl
@[simp] theorem State.setCluster_launches (s : State) (k : Nat) (c : Cluster) : (s.setCluster k c).launches = s.launches := rfl
@[simp] theorem State.setCluster_nextLaunch (s : State) (k : Nat) (c : Cluster) : (s.setCluster k c).nextLaunch = s.nextLaunch := rfl
@[simp] theorem State.setCluster_ctxs (s : State) (k : Nat) (c : Cluster) : (s.setCluster k c).ctxs = s.ctxs := rfl
@[simp] theorem State.setCluster_queues (s : State) (k : Nat) (c : Cluster) : (s.setCluster k c).queues = s.queues := rfl
@[simp] theorem State.setCluster_fns (s : State) (k : Nat) (c : Cluster) : (s.setCluster k c).fns = s.fns := rfl
@[simp] theorem State.setCluster_module (s : State) (k : Nat) (c : Cluster) : (s.setCluster k c).module = s.module := rfl
@[simp] theorem State.setCluster_lnsends (s : State) (k : Nat) (c : Cluster) : (s.setCluster k c).lnsends = s.lnsends := rfl
@[simp] theorem State.setCluster_arrivals (s : State) (k : Nat) (c : Cluster) : (s.setCluster k c).arrivals = s.arrivals := rfl
@[simp] theorem State.setCluster_landings (s : State) (k : Nat) (c : Cluster) : (s.setCluster k c).landings = s.landings := rfl
@[simp] theorem State.setCluster_poison (s : State) (k : Nat) (c : Cluster) : (s.setCluster k c).poison = s.poison := rfl

@[simp] theorem State.updCluster_turn (s : State) (k : Nat) (f : Cluster → Cluster) : (s.updCluster k f).turn = s.turn := rfl
@[simp] theorem State.updCluster_cur (s : State) (k : Nat) (f : Cluster → Cluster) : (s.updCluster k f).cur = s.cur := rfl
@[simp] theorem State.updCluster_inputs (s : State) (k : Nat) (f : Cluster → Cluster) : (s.updCluster k f).inputs = s.inputs := rfl
@[simp] theorem State.updCluster_tick (s : State) (k : Nat) (f : Cluster → Cluster) : (s.updCluster k f).tick = s.tick := rfl
@[simp] theorem State.updCluster_clock (s : State) (k : Nat) (f : Cluster → Cluster) : (s.updCluster k f).clock = s.clock := rfl
@[simp] theorem State.updCluster_cores (s : State) (k : Nat) (f : Cluster → Cluster) : (s.updCluster k f).cores = s.cores := rfl
@[simp] theorem State.updCluster_l2 (s : State) (k : Nat) (f : Cluster → Cluster) : (s.updCluster k f).l2 = s.l2 := rfl
@[simp] theorem State.updCluster_walks (s : State) (k : Nat) (f : Cluster → Cluster) : (s.updCluster k f).walks = s.walks := rfl
@[simp] theorem State.updCluster_hbm (s : State) (k : Nat) (f : Cluster → Cluster) : (s.updCluster k f).hbm = s.hbm := rfl
@[simp] theorem State.updCluster_host (s : State) (k : Nat) (f : Cluster → Cluster) : (s.updCluster k f).host = s.host := rfl
@[simp] theorem State.updCluster_beams (s : State) (k : Nat) (f : Cluster → Cluster) : (s.updCluster k f).beams = s.beams := rfl
@[simp] theorem State.updCluster_saved (s : State) (k : Nat) (f : Cluster → Cluster) : (s.updCluster k f).saved = s.saved := rfl
@[simp] theorem State.updCluster_launches (s : State) (k : Nat) (f : Cluster → Cluster) : (s.updCluster k f).launches = s.launches := rfl
@[simp] theorem State.updCluster_nextLaunch (s : State) (k : Nat) (f : Cluster → Cluster) : (s.updCluster k f).nextLaunch = s.nextLaunch := rfl
@[simp] theorem State.updCluster_ctxs (s : State) (k : Nat) (f : Cluster → Cluster) : (s.updCluster k f).ctxs = s.ctxs := rfl
@[simp] theorem State.updCluster_queues (s : State) (k : Nat) (f : Cluster → Cluster) : (s.updCluster k f).queues = s.queues := rfl
@[simp] theorem State.updCluster_fns (s : State) (k : Nat) (f : Cluster → Cluster) : (s.updCluster k f).fns = s.fns := rfl
@[simp] theorem State.updCluster_module (s : State) (k : Nat) (f : Cluster → Cluster) : (s.updCluster k f).module = s.module := rfl
@[simp] theorem State.updCluster_lnsends (s : State) (k : Nat) (f : Cluster → Cluster) : (s.updCluster k f).lnsends = s.lnsends := rfl
@[simp] theorem State.updCluster_arrivals (s : State) (k : Nat) (f : Cluster → Cluster) : (s.updCluster k f).arrivals = s.arrivals := rfl
@[simp] theorem State.updCluster_landings (s : State) (k : Nat) (f : Cluster → Cluster) : (s.updCluster k f).landings = s.landings := rfl
@[simp] theorem State.updCluster_poison (s : State) (k : Nat) (f : Cluster → Cluster) : (s.updCluster k f).poison = s.poison := rfl

@[simp] theorem State.setRay_turn (s : State) (k q : Nat) (r : Ray) : (s.setRay k q r).turn = s.turn := rfl
@[simp] theorem State.setRay_cur (s : State) (k q : Nat) (r : Ray) : (s.setRay k q r).cur = s.cur := rfl
@[simp] theorem State.setRay_inputs (s : State) (k q : Nat) (r : Ray) : (s.setRay k q r).inputs = s.inputs := rfl
@[simp] theorem State.setRay_tick (s : State) (k q : Nat) (r : Ray) : (s.setRay k q r).tick = s.tick := rfl
@[simp] theorem State.setRay_clock (s : State) (k q : Nat) (r : Ray) : (s.setRay k q r).clock = s.clock := rfl
@[simp] theorem State.setRay_clusters (s : State) (k q : Nat) (r : Ray) : (s.setRay k q r).clusters = s.clusters := rfl
@[simp] theorem State.setRay_l2 (s : State) (k q : Nat) (r : Ray) : (s.setRay k q r).l2 = s.l2 := rfl
@[simp] theorem State.setRay_walks (s : State) (k q : Nat) (r : Ray) : (s.setRay k q r).walks = s.walks := rfl
@[simp] theorem State.setRay_hbm (s : State) (k q : Nat) (r : Ray) : (s.setRay k q r).hbm = s.hbm := rfl
@[simp] theorem State.setRay_host (s : State) (k q : Nat) (r : Ray) : (s.setRay k q r).host = s.host := rfl
@[simp] theorem State.setRay_beams (s : State) (k q : Nat) (r : Ray) : (s.setRay k q r).beams = s.beams := rfl
@[simp] theorem State.setRay_saved (s : State) (k q : Nat) (r : Ray) : (s.setRay k q r).saved = s.saved := rfl
@[simp] theorem State.setRay_launches (s : State) (k q : Nat) (r : Ray) : (s.setRay k q r).launches = s.launches := rfl
@[simp] theorem State.setRay_nextLaunch (s : State) (k q : Nat) (r : Ray) : (s.setRay k q r).nextLaunch = s.nextLaunch := rfl
@[simp] theorem State.setRay_ctxs (s : State) (k q : Nat) (r : Ray) : (s.setRay k q r).ctxs = s.ctxs := rfl
@[simp] theorem State.setRay_queues (s : State) (k q : Nat) (r : Ray) : (s.setRay k q r).queues = s.queues := rfl
@[simp] theorem State.setRay_fns (s : State) (k q : Nat) (r : Ray) : (s.setRay k q r).fns = s.fns := rfl
@[simp] theorem State.setRay_module (s : State) (k q : Nat) (r : Ray) : (s.setRay k q r).module = s.module := rfl
@[simp] theorem State.setRay_lnsends (s : State) (k q : Nat) (r : Ray) : (s.setRay k q r).lnsends = s.lnsends := rfl
@[simp] theorem State.setRay_arrivals (s : State) (k q : Nat) (r : Ray) : (s.setRay k q r).arrivals = s.arrivals := rfl
@[simp] theorem State.setRay_landings (s : State) (k q : Nat) (r : Ray) : (s.setRay k q r).landings = s.landings := rfl
@[simp] theorem State.setRay_poison (s : State) (k q : Nat) (r : Ray) : (s.setRay k q r).poison = s.poison := rfl

@[simp] theorem State.updBeam_turn (s : State) (l p : Nat) (f : Beam → Beam) : (s.updBeam l p f).turn = s.turn := rfl
@[simp] theorem State.updBeam_cur (s : State) (l p : Nat) (f : Beam → Beam) : (s.updBeam l p f).cur = s.cur := rfl
@[simp] theorem State.updBeam_inputs (s : State) (l p : Nat) (f : Beam → Beam) : (s.updBeam l p f).inputs = s.inputs := rfl
@[simp] theorem State.updBeam_tick (s : State) (l p : Nat) (f : Beam → Beam) : (s.updBeam l p f).tick = s.tick := rfl
@[simp] theorem State.updBeam_clock (s : State) (l p : Nat) (f : Beam → Beam) : (s.updBeam l p f).clock = s.clock := rfl
@[simp] theorem State.updBeam_cores (s : State) (l p : Nat) (f : Beam → Beam) : (s.updBeam l p f).cores = s.cores := rfl
@[simp] theorem State.updBeam_clusters (s : State) (l p : Nat) (f : Beam → Beam) : (s.updBeam l p f).clusters = s.clusters := rfl
@[simp] theorem State.updBeam_l2 (s : State) (l p : Nat) (f : Beam → Beam) : (s.updBeam l p f).l2 = s.l2 := rfl
@[simp] theorem State.updBeam_walks (s : State) (l p : Nat) (f : Beam → Beam) : (s.updBeam l p f).walks = s.walks := rfl
@[simp] theorem State.updBeam_hbm (s : State) (l p : Nat) (f : Beam → Beam) : (s.updBeam l p f).hbm = s.hbm := rfl
@[simp] theorem State.updBeam_host (s : State) (l p : Nat) (f : Beam → Beam) : (s.updBeam l p f).host = s.host := rfl
@[simp] theorem State.updBeam_saved (s : State) (l p : Nat) (f : Beam → Beam) : (s.updBeam l p f).saved = s.saved := rfl
@[simp] theorem State.updBeam_launches (s : State) (l p : Nat) (f : Beam → Beam) : (s.updBeam l p f).launches = s.launches := rfl
@[simp] theorem State.updBeam_nextLaunch (s : State) (l p : Nat) (f : Beam → Beam) : (s.updBeam l p f).nextLaunch = s.nextLaunch := rfl
@[simp] theorem State.updBeam_ctxs (s : State) (l p : Nat) (f : Beam → Beam) : (s.updBeam l p f).ctxs = s.ctxs := rfl
@[simp] theorem State.updBeam_queues (s : State) (l p : Nat) (f : Beam → Beam) : (s.updBeam l p f).queues = s.queues := rfl
@[simp] theorem State.updBeam_fns (s : State) (l p : Nat) (f : Beam → Beam) : (s.updBeam l p f).fns = s.fns := rfl
@[simp] theorem State.updBeam_module (s : State) (l p : Nat) (f : Beam → Beam) : (s.updBeam l p f).module = s.module := rfl
@[simp] theorem State.updBeam_lnsends (s : State) (l p : Nat) (f : Beam → Beam) : (s.updBeam l p f).lnsends = s.lnsends := rfl
@[simp] theorem State.updBeam_arrivals (s : State) (l p : Nat) (f : Beam → Beam) : (s.updBeam l p f).arrivals = s.arrivals := rfl
@[simp] theorem State.updBeam_landings (s : State) (l p : Nat) (f : Beam → Beam) : (s.updBeam l p f).landings = s.landings := rfl
@[simp] theorem State.updBeam_poison (s : State) (l p : Nat) (f : Beam → Beam) : (s.updBeam l p f).poison = s.poison := rfl

@[simp] theorem State.updLaunch_turn (s : State) (l : Nat) (f : Launch → Launch) : (s.updLaunch l f).turn = s.turn := rfl
@[simp] theorem State.updLaunch_cur (s : State) (l : Nat) (f : Launch → Launch) : (s.updLaunch l f).cur = s.cur := rfl
@[simp] theorem State.updLaunch_inputs (s : State) (l : Nat) (f : Launch → Launch) : (s.updLaunch l f).inputs = s.inputs := rfl
@[simp] theorem State.updLaunch_tick (s : State) (l : Nat) (f : Launch → Launch) : (s.updLaunch l f).tick = s.tick := rfl
@[simp] theorem State.updLaunch_clock (s : State) (l : Nat) (f : Launch → Launch) : (s.updLaunch l f).clock = s.clock := rfl
@[simp] theorem State.updLaunch_cores (s : State) (l : Nat) (f : Launch → Launch) : (s.updLaunch l f).cores = s.cores := rfl
@[simp] theorem State.updLaunch_clusters (s : State) (l : Nat) (f : Launch → Launch) : (s.updLaunch l f).clusters = s.clusters := rfl
@[simp] theorem State.updLaunch_l2 (s : State) (l : Nat) (f : Launch → Launch) : (s.updLaunch l f).l2 = s.l2 := rfl
@[simp] theorem State.updLaunch_walks (s : State) (l : Nat) (f : Launch → Launch) : (s.updLaunch l f).walks = s.walks := rfl
@[simp] theorem State.updLaunch_hbm (s : State) (l : Nat) (f : Launch → Launch) : (s.updLaunch l f).hbm = s.hbm := rfl
@[simp] theorem State.updLaunch_host (s : State) (l : Nat) (f : Launch → Launch) : (s.updLaunch l f).host = s.host := rfl
@[simp] theorem State.updLaunch_beams (s : State) (l : Nat) (f : Launch → Launch) : (s.updLaunch l f).beams = s.beams := rfl
@[simp] theorem State.updLaunch_saved (s : State) (l : Nat) (f : Launch → Launch) : (s.updLaunch l f).saved = s.saved := rfl
@[simp] theorem State.updLaunch_nextLaunch (s : State) (l : Nat) (f : Launch → Launch) : (s.updLaunch l f).nextLaunch = s.nextLaunch := rfl
@[simp] theorem State.updLaunch_ctxs (s : State) (l : Nat) (f : Launch → Launch) : (s.updLaunch l f).ctxs = s.ctxs := rfl
@[simp] theorem State.updLaunch_queues (s : State) (l : Nat) (f : Launch → Launch) : (s.updLaunch l f).queues = s.queues := rfl
@[simp] theorem State.updLaunch_fns (s : State) (l : Nat) (f : Launch → Launch) : (s.updLaunch l f).fns = s.fns := rfl
@[simp] theorem State.updLaunch_module (s : State) (l : Nat) (f : Launch → Launch) : (s.updLaunch l f).module = s.module := rfl
@[simp] theorem State.updLaunch_lnsends (s : State) (l : Nat) (f : Launch → Launch) : (s.updLaunch l f).lnsends = s.lnsends := rfl
@[simp] theorem State.updLaunch_arrivals (s : State) (l : Nat) (f : Launch → Launch) : (s.updLaunch l f).arrivals = s.arrivals := rfl
@[simp] theorem State.updLaunch_landings (s : State) (l : Nat) (f : Launch → Launch) : (s.updLaunch l f).landings = s.landings := rfl
@[simp] theorem State.updLaunch_poison (s : State) (l : Nat) (f : Launch → Launch) : (s.updLaunch l f).poison = s.poison := rfl

@[simp] theorem State.updCtx_turn (s : State) (k : Nat) (f : Ctx → Ctx) : (s.updCtx k f).turn = s.turn := rfl
@[simp] theorem State.updCtx_cur (s : State) (k : Nat) (f : Ctx → Ctx) : (s.updCtx k f).cur = s.cur := rfl
@[simp] theorem State.updCtx_inputs (s : State) (k : Nat) (f : Ctx → Ctx) : (s.updCtx k f).inputs = s.inputs := rfl
@[simp] theorem State.updCtx_tick (s : State) (k : Nat) (f : Ctx → Ctx) : (s.updCtx k f).tick = s.tick := rfl
@[simp] theorem State.updCtx_clock (s : State) (k : Nat) (f : Ctx → Ctx) : (s.updCtx k f).clock = s.clock := rfl
@[simp] theorem State.updCtx_cores (s : State) (k : Nat) (f : Ctx → Ctx) : (s.updCtx k f).cores = s.cores := rfl
@[simp] theorem State.updCtx_clusters (s : State) (k : Nat) (f : Ctx → Ctx) : (s.updCtx k f).clusters = s.clusters := rfl
@[simp] theorem State.updCtx_l2 (s : State) (k : Nat) (f : Ctx → Ctx) : (s.updCtx k f).l2 = s.l2 := rfl
@[simp] theorem State.updCtx_walks (s : State) (k : Nat) (f : Ctx → Ctx) : (s.updCtx k f).walks = s.walks := rfl
@[simp] theorem State.updCtx_hbm (s : State) (k : Nat) (f : Ctx → Ctx) : (s.updCtx k f).hbm = s.hbm := rfl
@[simp] theorem State.updCtx_host (s : State) (k : Nat) (f : Ctx → Ctx) : (s.updCtx k f).host = s.host := rfl
@[simp] theorem State.updCtx_beams (s : State) (k : Nat) (f : Ctx → Ctx) : (s.updCtx k f).beams = s.beams := rfl
@[simp] theorem State.updCtx_saved (s : State) (k : Nat) (f : Ctx → Ctx) : (s.updCtx k f).saved = s.saved := rfl
@[simp] theorem State.updCtx_launches (s : State) (k : Nat) (f : Ctx → Ctx) : (s.updCtx k f).launches = s.launches := rfl
@[simp] theorem State.updCtx_nextLaunch (s : State) (k : Nat) (f : Ctx → Ctx) : (s.updCtx k f).nextLaunch = s.nextLaunch := rfl
@[simp] theorem State.updCtx_queues (s : State) (k : Nat) (f : Ctx → Ctx) : (s.updCtx k f).queues = s.queues := rfl
@[simp] theorem State.updCtx_fns (s : State) (k : Nat) (f : Ctx → Ctx) : (s.updCtx k f).fns = s.fns := rfl
@[simp] theorem State.updCtx_module (s : State) (k : Nat) (f : Ctx → Ctx) : (s.updCtx k f).module = s.module := rfl
@[simp] theorem State.updCtx_lnsends (s : State) (k : Nat) (f : Ctx → Ctx) : (s.updCtx k f).lnsends = s.lnsends := rfl
@[simp] theorem State.updCtx_arrivals (s : State) (k : Nat) (f : Ctx → Ctx) : (s.updCtx k f).arrivals = s.arrivals := rfl
@[simp] theorem State.updCtx_landings (s : State) (k : Nat) (f : Ctx → Ctx) : (s.updCtx k f).landings = s.landings := rfl
@[simp] theorem State.updCtx_poison (s : State) (k : Nat) (f : Ctx → Ctx) : (s.updCtx k f).poison = s.poison := rfl

@[simp] theorem State.updQueue_turn (s : State) (k : Nat) (f : Queue → Queue) : (s.updQueue k f).turn = s.turn := rfl
@[simp] theorem State.updQueue_cur (s : State) (k : Nat) (f : Queue → Queue) : (s.updQueue k f).cur = s.cur := rfl
@[simp] theorem State.updQueue_inputs (s : State) (k : Nat) (f : Queue → Queue) : (s.updQueue k f).inputs = s.inputs := rfl
@[simp] theorem State.updQueue_tick (s : State) (k : Nat) (f : Queue → Queue) : (s.updQueue k f).tick = s.tick := rfl
@[simp] theorem State.updQueue_clock (s : State) (k : Nat) (f : Queue → Queue) : (s.updQueue k f).clock = s.clock := rfl
@[simp] theorem State.updQueue_cores (s : State) (k : Nat) (f : Queue → Queue) : (s.updQueue k f).cores = s.cores := rfl
@[simp] theorem State.updQueue_clusters (s : State) (k : Nat) (f : Queue → Queue) : (s.updQueue k f).clusters = s.clusters := rfl
@[simp] theorem State.updQueue_l2 (s : State) (k : Nat) (f : Queue → Queue) : (s.updQueue k f).l2 = s.l2 := rfl
@[simp] theorem State.updQueue_walks (s : State) (k : Nat) (f : Queue → Queue) : (s.updQueue k f).walks = s.walks := rfl
@[simp] theorem State.updQueue_hbm (s : State) (k : Nat) (f : Queue → Queue) : (s.updQueue k f).hbm = s.hbm := rfl
@[simp] theorem State.updQueue_host (s : State) (k : Nat) (f : Queue → Queue) : (s.updQueue k f).host = s.host := rfl
@[simp] theorem State.updQueue_beams (s : State) (k : Nat) (f : Queue → Queue) : (s.updQueue k f).beams = s.beams := rfl
@[simp] theorem State.updQueue_saved (s : State) (k : Nat) (f : Queue → Queue) : (s.updQueue k f).saved = s.saved := rfl
@[simp] theorem State.updQueue_launches (s : State) (k : Nat) (f : Queue → Queue) : (s.updQueue k f).launches = s.launches := rfl
@[simp] theorem State.updQueue_nextLaunch (s : State) (k : Nat) (f : Queue → Queue) : (s.updQueue k f).nextLaunch = s.nextLaunch := rfl
@[simp] theorem State.updQueue_ctxs (s : State) (k : Nat) (f : Queue → Queue) : (s.updQueue k f).ctxs = s.ctxs := rfl
@[simp] theorem State.updQueue_fns (s : State) (k : Nat) (f : Queue → Queue) : (s.updQueue k f).fns = s.fns := rfl
@[simp] theorem State.updQueue_module (s : State) (k : Nat) (f : Queue → Queue) : (s.updQueue k f).module = s.module := rfl
@[simp] theorem State.updQueue_lnsends (s : State) (k : Nat) (f : Queue → Queue) : (s.updQueue k f).lnsends = s.lnsends := rfl
@[simp] theorem State.updQueue_arrivals (s : State) (k : Nat) (f : Queue → Queue) : (s.updQueue k f).arrivals = s.arrivals := rfl
@[simp] theorem State.updQueue_landings (s : State) (k : Nat) (f : Queue → Queue) : (s.updQueue k f).landings = s.landings := rfl
@[simp] theorem State.updQueue_poison (s : State) (k : Nat) (f : Queue → Queue) : (s.updQueue k f).poison = s.poison := rfl

@[simp] theorem State.updFn_turn (s : State) (k : Nat) (f : Fn → Fn) : (s.updFn k f).turn = s.turn := rfl
@[simp] theorem State.updFn_cur (s : State) (k : Nat) (f : Fn → Fn) : (s.updFn k f).cur = s.cur := rfl
@[simp] theorem State.updFn_inputs (s : State) (k : Nat) (f : Fn → Fn) : (s.updFn k f).inputs = s.inputs := rfl
@[simp] theorem State.updFn_tick (s : State) (k : Nat) (f : Fn → Fn) : (s.updFn k f).tick = s.tick := rfl
@[simp] theorem State.updFn_clock (s : State) (k : Nat) (f : Fn → Fn) : (s.updFn k f).clock = s.clock := rfl
@[simp] theorem State.updFn_cores (s : State) (k : Nat) (f : Fn → Fn) : (s.updFn k f).cores = s.cores := rfl
@[simp] theorem State.updFn_clusters (s : State) (k : Nat) (f : Fn → Fn) : (s.updFn k f).clusters = s.clusters := rfl
@[simp] theorem State.updFn_l2 (s : State) (k : Nat) (f : Fn → Fn) : (s.updFn k f).l2 = s.l2 := rfl
@[simp] theorem State.updFn_walks (s : State) (k : Nat) (f : Fn → Fn) : (s.updFn k f).walks = s.walks := rfl
@[simp] theorem State.updFn_hbm (s : State) (k : Nat) (f : Fn → Fn) : (s.updFn k f).hbm = s.hbm := rfl
@[simp] theorem State.updFn_host (s : State) (k : Nat) (f : Fn → Fn) : (s.updFn k f).host = s.host := rfl
@[simp] theorem State.updFn_beams (s : State) (k : Nat) (f : Fn → Fn) : (s.updFn k f).beams = s.beams := rfl
@[simp] theorem State.updFn_saved (s : State) (k : Nat) (f : Fn → Fn) : (s.updFn k f).saved = s.saved := rfl
@[simp] theorem State.updFn_launches (s : State) (k : Nat) (f : Fn → Fn) : (s.updFn k f).launches = s.launches := rfl
@[simp] theorem State.updFn_nextLaunch (s : State) (k : Nat) (f : Fn → Fn) : (s.updFn k f).nextLaunch = s.nextLaunch := rfl
@[simp] theorem State.updFn_ctxs (s : State) (k : Nat) (f : Fn → Fn) : (s.updFn k f).ctxs = s.ctxs := rfl
@[simp] theorem State.updFn_queues (s : State) (k : Nat) (f : Fn → Fn) : (s.updFn k f).queues = s.queues := rfl
@[simp] theorem State.updFn_module (s : State) (k : Nat) (f : Fn → Fn) : (s.updFn k f).module = s.module := rfl
@[simp] theorem State.updFn_lnsends (s : State) (k : Nat) (f : Fn → Fn) : (s.updFn k f).lnsends = s.lnsends := rfl
@[simp] theorem State.updFn_arrivals (s : State) (k : Nat) (f : Fn → Fn) : (s.updFn k f).arrivals = s.arrivals := rfl
@[simp] theorem State.updFn_landings (s : State) (k : Nat) (f : Fn → Fn) : (s.updFn k f).landings = s.landings := rfl
@[simp] theorem State.updFn_poison (s : State) (k : Nat) (f : Fn → Fn) : (s.updFn k f).poison = s.poison := rfl

@[simp] theorem State.raiseMsi_turn (s : State) (k v : Nat) : (s.raiseMsi k v).turn = s.turn := rfl
@[simp] theorem State.raiseMsi_cur (s : State) (k v : Nat) : (s.raiseMsi k v).cur = s.cur := rfl
@[simp] theorem State.raiseMsi_inputs (s : State) (k v : Nat) : (s.raiseMsi k v).inputs = s.inputs := rfl
@[simp] theorem State.raiseMsi_tick (s : State) (k v : Nat) : (s.raiseMsi k v).tick = s.tick := rfl
@[simp] theorem State.raiseMsi_clock (s : State) (k v : Nat) : (s.raiseMsi k v).clock = s.clock := rfl
@[simp] theorem State.raiseMsi_cores (s : State) (k v : Nat) : (s.raiseMsi k v).cores = s.cores := rfl
@[simp] theorem State.raiseMsi_clusters (s : State) (k v : Nat) : (s.raiseMsi k v).clusters = s.clusters := rfl
@[simp] theorem State.raiseMsi_l2 (s : State) (k v : Nat) : (s.raiseMsi k v).l2 = s.l2 := rfl
@[simp] theorem State.raiseMsi_walks (s : State) (k v : Nat) : (s.raiseMsi k v).walks = s.walks := rfl
@[simp] theorem State.raiseMsi_hbm (s : State) (k v : Nat) : (s.raiseMsi k v).hbm = s.hbm := rfl
@[simp] theorem State.raiseMsi_host (s : State) (k v : Nat) : (s.raiseMsi k v).host = s.host := rfl
@[simp] theorem State.raiseMsi_beams (s : State) (k v : Nat) : (s.raiseMsi k v).beams = s.beams := rfl
@[simp] theorem State.raiseMsi_saved (s : State) (k v : Nat) : (s.raiseMsi k v).saved = s.saved := rfl
@[simp] theorem State.raiseMsi_launches (s : State) (k v : Nat) : (s.raiseMsi k v).launches = s.launches := rfl
@[simp] theorem State.raiseMsi_nextLaunch (s : State) (k v : Nat) : (s.raiseMsi k v).nextLaunch = s.nextLaunch := rfl
@[simp] theorem State.raiseMsi_ctxs (s : State) (k v : Nat) : (s.raiseMsi k v).ctxs = s.ctxs := rfl
@[simp] theorem State.raiseMsi_queues (s : State) (k v : Nat) : (s.raiseMsi k v).queues = s.queues := rfl
@[simp] theorem State.raiseMsi_module (s : State) (k v : Nat) : (s.raiseMsi k v).module = s.module := rfl
@[simp] theorem State.raiseMsi_lnsends (s : State) (k v : Nat) : (s.raiseMsi k v).lnsends = s.lnsends := rfl
@[simp] theorem State.raiseMsi_arrivals (s : State) (k v : Nat) : (s.raiseMsi k v).arrivals = s.arrivals := rfl
@[simp] theorem State.raiseMsi_landings (s : State) (k v : Nat) : (s.raiseMsi k v).landings = s.landings := rfl
@[simp] theorem State.raiseMsi_poison (s : State) (k v : Nat) : (s.raiseMsi k v).poison = s.poison := rfl

@[simp] theorem State.setL2_turn (s : State) (d : Nat) (c : Cache) : (s.setL2 d c).turn = s.turn := rfl
@[simp] theorem State.setL2_cur (s : State) (d : Nat) (c : Cache) : (s.setL2 d c).cur = s.cur := rfl
@[simp] theorem State.setL2_inputs (s : State) (d : Nat) (c : Cache) : (s.setL2 d c).inputs = s.inputs := rfl
@[simp] theorem State.setL2_tick (s : State) (d : Nat) (c : Cache) : (s.setL2 d c).tick = s.tick := rfl
@[simp] theorem State.setL2_clock (s : State) (d : Nat) (c : Cache) : (s.setL2 d c).clock = s.clock := rfl
@[simp] theorem State.setL2_cores (s : State) (d : Nat) (c : Cache) : (s.setL2 d c).cores = s.cores := rfl
@[simp] theorem State.setL2_clusters (s : State) (d : Nat) (c : Cache) : (s.setL2 d c).clusters = s.clusters := rfl
@[simp] theorem State.setL2_walks (s : State) (d : Nat) (c : Cache) : (s.setL2 d c).walks = s.walks := rfl
@[simp] theorem State.setL2_hbm (s : State) (d : Nat) (c : Cache) : (s.setL2 d c).hbm = s.hbm := rfl
@[simp] theorem State.setL2_host (s : State) (d : Nat) (c : Cache) : (s.setL2 d c).host = s.host := rfl
@[simp] theorem State.setL2_beams (s : State) (d : Nat) (c : Cache) : (s.setL2 d c).beams = s.beams := rfl
@[simp] theorem State.setL2_saved (s : State) (d : Nat) (c : Cache) : (s.setL2 d c).saved = s.saved := rfl
@[simp] theorem State.setL2_launches (s : State) (d : Nat) (c : Cache) : (s.setL2 d c).launches = s.launches := rfl
@[simp] theorem State.setL2_nextLaunch (s : State) (d : Nat) (c : Cache) : (s.setL2 d c).nextLaunch = s.nextLaunch := rfl
@[simp] theorem State.setL2_ctxs (s : State) (d : Nat) (c : Cache) : (s.setL2 d c).ctxs = s.ctxs := rfl
@[simp] theorem State.setL2_queues (s : State) (d : Nat) (c : Cache) : (s.setL2 d c).queues = s.queues := rfl
@[simp] theorem State.setL2_fns (s : State) (d : Nat) (c : Cache) : (s.setL2 d c).fns = s.fns := rfl
@[simp] theorem State.setL2_module (s : State) (d : Nat) (c : Cache) : (s.setL2 d c).module = s.module := rfl
@[simp] theorem State.setL2_lnsends (s : State) (d : Nat) (c : Cache) : (s.setL2 d c).lnsends = s.lnsends := rfl
@[simp] theorem State.setL2_arrivals (s : State) (d : Nat) (c : Cache) : (s.setL2 d c).arrivals = s.arrivals := rfl
@[simp] theorem State.setL2_landings (s : State) (d : Nat) (c : Cache) : (s.setL2 d c).landings = s.landings := rfl
@[simp] theorem State.setL2_poison (s : State) (d : Nat) (c : Cache) : (s.setL2 d c).poison = s.poison := rfl

@[simp] theorem State.dropPlaces_turn (s : State) (k : Nat) (ks : List Nat) : (s.dropPlaces k ks).turn = s.turn := rfl
@[simp] theorem State.dropPlaces_cur (s : State) (k : Nat) (ks : List Nat) : (s.dropPlaces k ks).cur = s.cur := rfl
@[simp] theorem State.dropPlaces_inputs (s : State) (k : Nat) (ks : List Nat) : (s.dropPlaces k ks).inputs = s.inputs := rfl
@[simp] theorem State.dropPlaces_tick (s : State) (k : Nat) (ks : List Nat) : (s.dropPlaces k ks).tick = s.tick := rfl
@[simp] theorem State.dropPlaces_clock (s : State) (k : Nat) (ks : List Nat) : (s.dropPlaces k ks).clock = s.clock := rfl
@[simp] theorem State.dropPlaces_cores (s : State) (k : Nat) (ks : List Nat) : (s.dropPlaces k ks).cores = s.cores := rfl
@[simp] theorem State.dropPlaces_l2 (s : State) (k : Nat) (ks : List Nat) : (s.dropPlaces k ks).l2 = s.l2 := rfl
@[simp] theorem State.dropPlaces_walks (s : State) (k : Nat) (ks : List Nat) : (s.dropPlaces k ks).walks = s.walks := rfl
@[simp] theorem State.dropPlaces_hbm (s : State) (k : Nat) (ks : List Nat) : (s.dropPlaces k ks).hbm = s.hbm := rfl
@[simp] theorem State.dropPlaces_host (s : State) (k : Nat) (ks : List Nat) : (s.dropPlaces k ks).host = s.host := rfl
@[simp] theorem State.dropPlaces_beams (s : State) (k : Nat) (ks : List Nat) : (s.dropPlaces k ks).beams = s.beams := rfl
@[simp] theorem State.dropPlaces_saved (s : State) (k : Nat) (ks : List Nat) : (s.dropPlaces k ks).saved = s.saved := rfl
@[simp] theorem State.dropPlaces_launches (s : State) (k : Nat) (ks : List Nat) : (s.dropPlaces k ks).launches = s.launches := rfl
@[simp] theorem State.dropPlaces_nextLaunch (s : State) (k : Nat) (ks : List Nat) : (s.dropPlaces k ks).nextLaunch = s.nextLaunch := rfl
@[simp] theorem State.dropPlaces_ctxs (s : State) (k : Nat) (ks : List Nat) : (s.dropPlaces k ks).ctxs = s.ctxs := rfl
@[simp] theorem State.dropPlaces_queues (s : State) (k : Nat) (ks : List Nat) : (s.dropPlaces k ks).queues = s.queues := rfl
@[simp] theorem State.dropPlaces_fns (s : State) (k : Nat) (ks : List Nat) : (s.dropPlaces k ks).fns = s.fns := rfl
@[simp] theorem State.dropPlaces_module (s : State) (k : Nat) (ks : List Nat) : (s.dropPlaces k ks).module = s.module := rfl
@[simp] theorem State.dropPlaces_lnsends (s : State) (k : Nat) (ks : List Nat) : (s.dropPlaces k ks).lnsends = s.lnsends := rfl
@[simp] theorem State.dropPlaces_arrivals (s : State) (k : Nat) (ks : List Nat) : (s.dropPlaces k ks).arrivals = s.arrivals := rfl
@[simp] theorem State.dropPlaces_landings (s : State) (k : Nat) (ks : List Nat) : (s.dropPlaces k ks).landings = s.landings := rfl
@[simp] theorem State.dropPlaces_poison (s : State) (k : Nat) (ks : List Nat) : (s.dropPlaces k ks).poison = s.poison := rfl

@[simp] theorem State.queueEvent_turn (s : State) (k : Nat) (e : BitVec 256) : (s.queueEvent k e).turn = s.turn := rfl
@[simp] theorem State.queueEvent_cur (s : State) (k : Nat) (e : BitVec 256) : (s.queueEvent k e).cur = s.cur := rfl
@[simp] theorem State.queueEvent_inputs (s : State) (k : Nat) (e : BitVec 256) : (s.queueEvent k e).inputs = s.inputs := rfl
@[simp] theorem State.queueEvent_tick (s : State) (k : Nat) (e : BitVec 256) : (s.queueEvent k e).tick = s.tick := rfl
@[simp] theorem State.queueEvent_clock (s : State) (k : Nat) (e : BitVec 256) : (s.queueEvent k e).clock = s.clock := rfl
@[simp] theorem State.queueEvent_clusters (s : State) (k : Nat) (e : BitVec 256) : (s.queueEvent k e).clusters = s.clusters := rfl
@[simp] theorem State.queueEvent_l2 (s : State) (k : Nat) (e : BitVec 256) : (s.queueEvent k e).l2 = s.l2 := rfl
@[simp] theorem State.queueEvent_walks (s : State) (k : Nat) (e : BitVec 256) : (s.queueEvent k e).walks = s.walks := rfl
@[simp] theorem State.queueEvent_hbm (s : State) (k : Nat) (e : BitVec 256) : (s.queueEvent k e).hbm = s.hbm := rfl
@[simp] theorem State.queueEvent_host (s : State) (k : Nat) (e : BitVec 256) : (s.queueEvent k e).host = s.host := rfl
@[simp] theorem State.queueEvent_beams (s : State) (k : Nat) (e : BitVec 256) : (s.queueEvent k e).beams = s.beams := rfl
@[simp] theorem State.queueEvent_saved (s : State) (k : Nat) (e : BitVec 256) : (s.queueEvent k e).saved = s.saved := rfl
@[simp] theorem State.queueEvent_launches (s : State) (k : Nat) (e : BitVec 256) : (s.queueEvent k e).launches = s.launches := rfl
@[simp] theorem State.queueEvent_nextLaunch (s : State) (k : Nat) (e : BitVec 256) : (s.queueEvent k e).nextLaunch = s.nextLaunch := rfl
@[simp] theorem State.queueEvent_ctxs (s : State) (k : Nat) (e : BitVec 256) : (s.queueEvent k e).ctxs = s.ctxs := rfl
@[simp] theorem State.queueEvent_queues (s : State) (k : Nat) (e : BitVec 256) : (s.queueEvent k e).queues = s.queues := rfl
@[simp] theorem State.queueEvent_fns (s : State) (k : Nat) (e : BitVec 256) : (s.queueEvent k e).fns = s.fns := rfl
@[simp] theorem State.queueEvent_module (s : State) (k : Nat) (e : BitVec 256) : (s.queueEvent k e).module = s.module := rfl
@[simp] theorem State.queueEvent_lnsends (s : State) (k : Nat) (e : BitVec 256) : (s.queueEvent k e).lnsends = s.lnsends := rfl
@[simp] theorem State.queueEvent_arrivals (s : State) (k : Nat) (e : BitVec 256) : (s.queueEvent k e).arrivals = s.arrivals := rfl
@[simp] theorem State.queueEvent_landings (s : State) (k : Nat) (e : BitVec 256) : (s.queueEvent k e).landings = s.landings := rfl
@[simp] theorem State.queueEvent_poison (s : State) (k : Nat) (e : BitVec 256) : (s.queueEvent k e).poison = s.poison := rfl

@[simp] theorem State.updOp_turn (s : State) (k id : Nat) (f : Op → Op) : (s.updOp k id f).turn = s.turn := rfl
@[simp] theorem State.updOp_cur (s : State) (k id : Nat) (f : Op → Op) : (s.updOp k id f).cur = s.cur := rfl
@[simp] theorem State.updOp_inputs (s : State) (k id : Nat) (f : Op → Op) : (s.updOp k id f).inputs = s.inputs := rfl
@[simp] theorem State.updOp_tick (s : State) (k id : Nat) (f : Op → Op) : (s.updOp k id f).tick = s.tick := rfl
@[simp] theorem State.updOp_clock (s : State) (k id : Nat) (f : Op → Op) : (s.updOp k id f).clock = s.clock := rfl
@[simp] theorem State.updOp_clusters (s : State) (k id : Nat) (f : Op → Op) : (s.updOp k id f).clusters = s.clusters := rfl
@[simp] theorem State.updOp_l2 (s : State) (k id : Nat) (f : Op → Op) : (s.updOp k id f).l2 = s.l2 := rfl
@[simp] theorem State.updOp_walks (s : State) (k id : Nat) (f : Op → Op) : (s.updOp k id f).walks = s.walks := rfl
@[simp] theorem State.updOp_hbm (s : State) (k id : Nat) (f : Op → Op) : (s.updOp k id f).hbm = s.hbm := rfl
@[simp] theorem State.updOp_host (s : State) (k id : Nat) (f : Op → Op) : (s.updOp k id f).host = s.host := rfl
@[simp] theorem State.updOp_beams (s : State) (k id : Nat) (f : Op → Op) : (s.updOp k id f).beams = s.beams := rfl
@[simp] theorem State.updOp_saved (s : State) (k id : Nat) (f : Op → Op) : (s.updOp k id f).saved = s.saved := rfl
@[simp] theorem State.updOp_launches (s : State) (k id : Nat) (f : Op → Op) : (s.updOp k id f).launches = s.launches := rfl
@[simp] theorem State.updOp_nextLaunch (s : State) (k id : Nat) (f : Op → Op) : (s.updOp k id f).nextLaunch = s.nextLaunch := rfl
@[simp] theorem State.updOp_ctxs (s : State) (k id : Nat) (f : Op → Op) : (s.updOp k id f).ctxs = s.ctxs := rfl
@[simp] theorem State.updOp_queues (s : State) (k id : Nat) (f : Op → Op) : (s.updOp k id f).queues = s.queues := rfl
@[simp] theorem State.updOp_fns (s : State) (k id : Nat) (f : Op → Op) : (s.updOp k id f).fns = s.fns := rfl
@[simp] theorem State.updOp_module (s : State) (k id : Nat) (f : Op → Op) : (s.updOp k id f).module = s.module := rfl
@[simp] theorem State.updOp_lnsends (s : State) (k id : Nat) (f : Op → Op) : (s.updOp k id f).lnsends = s.lnsends := rfl
@[simp] theorem State.updOp_arrivals (s : State) (k id : Nat) (f : Op → Op) : (s.updOp k id f).arrivals = s.arrivals := rfl
@[simp] theorem State.updOp_landings (s : State) (k id : Nat) (f : Op → Op) : (s.updOp k id f).landings = s.landings := rfl
@[simp] theorem State.updOp_poison (s : State) (k id : Nat) (f : Op → Op) : (s.updOp k id f).poison = s.poison := rfl

@[simp] theorem State.bump_turn (s : State) : (s.bump).turn = s.turn := rfl
@[simp] theorem State.bump_cur (s : State) : (s.bump).cur = s.cur := rfl
@[simp] theorem State.bump_inputs (s : State) : (s.bump).inputs = s.inputs := rfl
@[simp] theorem State.bump_clock (s : State) : (s.bump).clock = s.clock := rfl
@[simp] theorem State.bump_cores (s : State) : (s.bump).cores = s.cores := rfl
@[simp] theorem State.bump_clusters (s : State) : (s.bump).clusters = s.clusters := rfl
@[simp] theorem State.bump_l2 (s : State) : (s.bump).l2 = s.l2 := rfl
@[simp] theorem State.bump_walks (s : State) : (s.bump).walks = s.walks := rfl
@[simp] theorem State.bump_hbm (s : State) : (s.bump).hbm = s.hbm := rfl
@[simp] theorem State.bump_host (s : State) : (s.bump).host = s.host := rfl
@[simp] theorem State.bump_beams (s : State) : (s.bump).beams = s.beams := rfl
@[simp] theorem State.bump_saved (s : State) : (s.bump).saved = s.saved := rfl
@[simp] theorem State.bump_launches (s : State) : (s.bump).launches = s.launches := rfl
@[simp] theorem State.bump_nextLaunch (s : State) : (s.bump).nextLaunch = s.nextLaunch := rfl
@[simp] theorem State.bump_ctxs (s : State) : (s.bump).ctxs = s.ctxs := rfl
@[simp] theorem State.bump_queues (s : State) : (s.bump).queues = s.queues := rfl
@[simp] theorem State.bump_fns (s : State) : (s.bump).fns = s.fns := rfl
@[simp] theorem State.bump_module (s : State) : (s.bump).module = s.module := rfl
@[simp] theorem State.bump_lnsends (s : State) : (s.bump).lnsends = s.lnsends := rfl
@[simp] theorem State.bump_arrivals (s : State) : (s.bump).arrivals = s.arrivals := rfl
@[simp] theorem State.bump_landings (s : State) : (s.bump).landings = s.landings := rfl
@[simp] theorem State.bump_poison (s : State) : (s.bump).poison = s.poison := rfl

@[simp] theorem State.updRay_turn (s : State) (k q : Nat) (f : Ray → Ray) : (s.updRay k q f).turn = s.turn := by unfold State.updRay; split <;> rfl
@[simp] theorem State.updRay_cur (s : State) (k q : Nat) (f : Ray → Ray) : (s.updRay k q f).cur = s.cur := by unfold State.updRay; split <;> rfl
@[simp] theorem State.updRay_inputs (s : State) (k q : Nat) (f : Ray → Ray) : (s.updRay k q f).inputs = s.inputs := by unfold State.updRay; split <;> rfl
@[simp] theorem State.updRay_tick (s : State) (k q : Nat) (f : Ray → Ray) : (s.updRay k q f).tick = s.tick := by unfold State.updRay; split <;> rfl
@[simp] theorem State.updRay_clock (s : State) (k q : Nat) (f : Ray → Ray) : (s.updRay k q f).clock = s.clock := by unfold State.updRay; split <;> rfl
@[simp] theorem State.updRay_clusters (s : State) (k q : Nat) (f : Ray → Ray) : (s.updRay k q f).clusters = s.clusters := by unfold State.updRay; split <;> rfl
@[simp] theorem State.updRay_l2 (s : State) (k q : Nat) (f : Ray → Ray) : (s.updRay k q f).l2 = s.l2 := by unfold State.updRay; split <;> rfl
@[simp] theorem State.updRay_walks (s : State) (k q : Nat) (f : Ray → Ray) : (s.updRay k q f).walks = s.walks := by unfold State.updRay; split <;> rfl
@[simp] theorem State.updRay_hbm (s : State) (k q : Nat) (f : Ray → Ray) : (s.updRay k q f).hbm = s.hbm := by unfold State.updRay; split <;> rfl
@[simp] theorem State.updRay_host (s : State) (k q : Nat) (f : Ray → Ray) : (s.updRay k q f).host = s.host := by unfold State.updRay; split <;> rfl
@[simp] theorem State.updRay_beams (s : State) (k q : Nat) (f : Ray → Ray) : (s.updRay k q f).beams = s.beams := by unfold State.updRay; split <;> rfl
@[simp] theorem State.updRay_saved (s : State) (k q : Nat) (f : Ray → Ray) : (s.updRay k q f).saved = s.saved := by unfold State.updRay; split <;> rfl
@[simp] theorem State.updRay_launches (s : State) (k q : Nat) (f : Ray → Ray) : (s.updRay k q f).launches = s.launches := by unfold State.updRay; split <;> rfl
@[simp] theorem State.updRay_nextLaunch (s : State) (k q : Nat) (f : Ray → Ray) : (s.updRay k q f).nextLaunch = s.nextLaunch := by unfold State.updRay; split <;> rfl
@[simp] theorem State.updRay_ctxs (s : State) (k q : Nat) (f : Ray → Ray) : (s.updRay k q f).ctxs = s.ctxs := by unfold State.updRay; split <;> rfl
@[simp] theorem State.updRay_queues (s : State) (k q : Nat) (f : Ray → Ray) : (s.updRay k q f).queues = s.queues := by unfold State.updRay; split <;> rfl
@[simp] theorem State.updRay_fns (s : State) (k q : Nat) (f : Ray → Ray) : (s.updRay k q f).fns = s.fns := by unfold State.updRay; split <;> rfl
@[simp] theorem State.updRay_module (s : State) (k q : Nat) (f : Ray → Ray) : (s.updRay k q f).module = s.module := by unfold State.updRay; split <;> rfl
@[simp] theorem State.updRay_lnsends (s : State) (k q : Nat) (f : Ray → Ray) : (s.updRay k q f).lnsends = s.lnsends := by unfold State.updRay; split <;> rfl
@[simp] theorem State.updRay_arrivals (s : State) (k q : Nat) (f : Ray → Ray) : (s.updRay k q f).arrivals = s.arrivals := by unfold State.updRay; split <;> rfl
@[simp] theorem State.updRay_landings (s : State) (k q : Nat) (f : Ray → Ray) : (s.updRay k q f).landings = s.landings := by unfold State.updRay; split <;> rfl
@[simp] theorem State.updRay_poison (s : State) (k q : Nat) (f : Ray → Ray) : (s.updRay k q f).poison = s.poison := by unfold State.updRay; split <;> rfl

@[simp] theorem State.takeTrap_turn (s : State) (k q : Nat) (w : ParkReason) (t : TrapInfo) : (s.takeTrap k q w t).turn = s.turn := by unfold State.takeTrap; split <;> rfl
@[simp] theorem State.takeTrap_cur (s : State) (k q : Nat) (w : ParkReason) (t : TrapInfo) : (s.takeTrap k q w t).cur = s.cur := by unfold State.takeTrap; split <;> rfl
@[simp] theorem State.takeTrap_inputs (s : State) (k q : Nat) (w : ParkReason) (t : TrapInfo) : (s.takeTrap k q w t).inputs = s.inputs := by unfold State.takeTrap; split <;> rfl
@[simp] theorem State.takeTrap_tick (s : State) (k q : Nat) (w : ParkReason) (t : TrapInfo) : (s.takeTrap k q w t).tick = s.tick := by unfold State.takeTrap; split <;> rfl
@[simp] theorem State.takeTrap_clock (s : State) (k q : Nat) (w : ParkReason) (t : TrapInfo) : (s.takeTrap k q w t).clock = s.clock := by unfold State.takeTrap; split <;> rfl
@[simp] theorem State.takeTrap_l2 (s : State) (k q : Nat) (w : ParkReason) (t : TrapInfo) : (s.takeTrap k q w t).l2 = s.l2 := by unfold State.takeTrap; split <;> rfl
@[simp] theorem State.takeTrap_walks (s : State) (k q : Nat) (w : ParkReason) (t : TrapInfo) : (s.takeTrap k q w t).walks = s.walks := by unfold State.takeTrap; split <;> rfl
@[simp] theorem State.takeTrap_hbm (s : State) (k q : Nat) (w : ParkReason) (t : TrapInfo) : (s.takeTrap k q w t).hbm = s.hbm := by unfold State.takeTrap; split <;> rfl
@[simp] theorem State.takeTrap_host (s : State) (k q : Nat) (w : ParkReason) (t : TrapInfo) : (s.takeTrap k q w t).host = s.host := by unfold State.takeTrap; split <;> rfl
@[simp] theorem State.takeTrap_beams (s : State) (k q : Nat) (w : ParkReason) (t : TrapInfo) : (s.takeTrap k q w t).beams = s.beams := by unfold State.takeTrap; split <;> rfl
@[simp] theorem State.takeTrap_saved (s : State) (k q : Nat) (w : ParkReason) (t : TrapInfo) : (s.takeTrap k q w t).saved = s.saved := by unfold State.takeTrap; split <;> rfl
@[simp] theorem State.takeTrap_launches (s : State) (k q : Nat) (w : ParkReason) (t : TrapInfo) : (s.takeTrap k q w t).launches = s.launches := by unfold State.takeTrap; split <;> rfl
@[simp] theorem State.takeTrap_nextLaunch (s : State) (k q : Nat) (w : ParkReason) (t : TrapInfo) : (s.takeTrap k q w t).nextLaunch = s.nextLaunch := by unfold State.takeTrap; split <;> rfl
@[simp] theorem State.takeTrap_ctxs (s : State) (k q : Nat) (w : ParkReason) (t : TrapInfo) : (s.takeTrap k q w t).ctxs = s.ctxs := by unfold State.takeTrap; split <;> rfl
@[simp] theorem State.takeTrap_queues (s : State) (k q : Nat) (w : ParkReason) (t : TrapInfo) : (s.takeTrap k q w t).queues = s.queues := by unfold State.takeTrap; split <;> rfl
@[simp] theorem State.takeTrap_fns (s : State) (k q : Nat) (w : ParkReason) (t : TrapInfo) : (s.takeTrap k q w t).fns = s.fns := by unfold State.takeTrap; split <;> rfl
@[simp] theorem State.takeTrap_module (s : State) (k q : Nat) (w : ParkReason) (t : TrapInfo) : (s.takeTrap k q w t).module = s.module := by unfold State.takeTrap; split <;> rfl
@[simp] theorem State.takeTrap_lnsends (s : State) (k q : Nat) (w : ParkReason) (t : TrapInfo) : (s.takeTrap k q w t).lnsends = s.lnsends := by unfold State.takeTrap; split <;> rfl
@[simp] theorem State.takeTrap_arrivals (s : State) (k q : Nat) (w : ParkReason) (t : TrapInfo) : (s.takeTrap k q w t).arrivals = s.arrivals := by unfold State.takeTrap; split <;> rfl
@[simp] theorem State.takeTrap_landings (s : State) (k q : Nat) (w : ParkReason) (t : TrapInfo) : (s.takeTrap k q w t).landings = s.landings := by unfold State.takeTrap; split <;> rfl
@[simp] theorem State.takeTrap_poison (s : State) (k q : Nat) (w : ParkReason) (t : TrapInfo) : (s.takeTrap k q w t).poison = s.poison := by unfold State.takeTrap; split <;> rfl

@[simp] theorem State.stallSlot_turn (s : State) (w : Stall) : (s.stallSlot w).turn = s.turn := by unfold State.stallSlot; split <;> simp
@[simp] theorem State.stallSlot_cur (s : State) (w : Stall) : (s.stallSlot w).cur = s.cur := by unfold State.stallSlot; split <;> simp
@[simp] theorem State.stallSlot_inputs (s : State) (w : Stall) : (s.stallSlot w).inputs = s.inputs := by unfold State.stallSlot; split <;> simp
@[simp] theorem State.stallSlot_tick (s : State) (w : Stall) : (s.stallSlot w).tick = s.tick := by unfold State.stallSlot; split <;> simp
@[simp] theorem State.stallSlot_clock (s : State) (w : Stall) : (s.stallSlot w).clock = s.clock := by unfold State.stallSlot; split <;> simp
@[simp] theorem State.stallSlot_clusters (s : State) (w : Stall) : (s.stallSlot w).clusters = s.clusters := by unfold State.stallSlot; split <;> simp
@[simp] theorem State.stallSlot_l2 (s : State) (w : Stall) : (s.stallSlot w).l2 = s.l2 := by unfold State.stallSlot; split <;> simp
@[simp] theorem State.stallSlot_walks (s : State) (w : Stall) : (s.stallSlot w).walks = s.walks := by unfold State.stallSlot; split <;> simp
@[simp] theorem State.stallSlot_hbm (s : State) (w : Stall) : (s.stallSlot w).hbm = s.hbm := by unfold State.stallSlot; split <;> simp
@[simp] theorem State.stallSlot_host (s : State) (w : Stall) : (s.stallSlot w).host = s.host := by unfold State.stallSlot; split <;> simp
@[simp] theorem State.stallSlot_beams (s : State) (w : Stall) : (s.stallSlot w).beams = s.beams := by unfold State.stallSlot; split <;> simp
@[simp] theorem State.stallSlot_saved (s : State) (w : Stall) : (s.stallSlot w).saved = s.saved := by unfold State.stallSlot; split <;> simp
@[simp] theorem State.stallSlot_launches (s : State) (w : Stall) : (s.stallSlot w).launches = s.launches := by unfold State.stallSlot; split <;> simp
@[simp] theorem State.stallSlot_nextLaunch (s : State) (w : Stall) : (s.stallSlot w).nextLaunch = s.nextLaunch := by unfold State.stallSlot; split <;> simp
@[simp] theorem State.stallSlot_ctxs (s : State) (w : Stall) : (s.stallSlot w).ctxs = s.ctxs := by unfold State.stallSlot; split <;> simp
@[simp] theorem State.stallSlot_queues (s : State) (w : Stall) : (s.stallSlot w).queues = s.queues := by unfold State.stallSlot; split <;> simp
@[simp] theorem State.stallSlot_fns (s : State) (w : Stall) : (s.stallSlot w).fns = s.fns := by unfold State.stallSlot; split <;> simp
@[simp] theorem State.stallSlot_module (s : State) (w : Stall) : (s.stallSlot w).module = s.module := by unfold State.stallSlot; split <;> simp
@[simp] theorem State.stallSlot_lnsends (s : State) (w : Stall) : (s.stallSlot w).lnsends = s.lnsends := by unfold State.stallSlot; split <;> simp
@[simp] theorem State.stallSlot_arrivals (s : State) (w : Stall) : (s.stallSlot w).arrivals = s.arrivals := by unfold State.stallSlot; split <;> simp
@[simp] theorem State.stallSlot_landings (s : State) (w : Stall) : (s.stallSlot w).landings = s.landings := by unfold State.stallSlot; split <;> simp
@[simp] theorem State.stallSlot_poison (s : State) (w : Stall) : (s.stallSlot w).poison = s.poison := by unfold State.stallSlot; split <;> simp

@[simp] theorem State.putH_turn (s : State) (r : Ray) (hs : List (Nat × Word)) : (s.putH r hs).turn = s.turn := by unfold State.putH; split <;> rfl
@[simp] theorem State.putH_cur (s : State) (r : Ray) (hs : List (Nat × Word)) : (s.putH r hs).cur = s.cur := by unfold State.putH; split <;> rfl
@[simp] theorem State.putH_inputs (s : State) (r : Ray) (hs : List (Nat × Word)) : (s.putH r hs).inputs = s.inputs := by unfold State.putH; split <;> rfl
@[simp] theorem State.putH_tick (s : State) (r : Ray) (hs : List (Nat × Word)) : (s.putH r hs).tick = s.tick := by unfold State.putH; split <;> rfl
@[simp] theorem State.putH_clock (s : State) (r : Ray) (hs : List (Nat × Word)) : (s.putH r hs).clock = s.clock := by unfold State.putH; split <;> rfl
@[simp] theorem State.putH_cores (s : State) (r : Ray) (hs : List (Nat × Word)) : (s.putH r hs).cores = s.cores := by unfold State.putH; split <;> rfl
@[simp] theorem State.putH_clusters (s : State) (r : Ray) (hs : List (Nat × Word)) : (s.putH r hs).clusters = s.clusters := by unfold State.putH; split <;> rfl
@[simp] theorem State.putH_l2 (s : State) (r : Ray) (hs : List (Nat × Word)) : (s.putH r hs).l2 = s.l2 := by unfold State.putH; split <;> rfl
@[simp] theorem State.putH_walks (s : State) (r : Ray) (hs : List (Nat × Word)) : (s.putH r hs).walks = s.walks := by unfold State.putH; split <;> rfl
@[simp] theorem State.putH_hbm (s : State) (r : Ray) (hs : List (Nat × Word)) : (s.putH r hs).hbm = s.hbm := by unfold State.putH; split <;> rfl
@[simp] theorem State.putH_host (s : State) (r : Ray) (hs : List (Nat × Word)) : (s.putH r hs).host = s.host := by unfold State.putH; split <;> rfl
@[simp] theorem State.putH_saved (s : State) (r : Ray) (hs : List (Nat × Word)) : (s.putH r hs).saved = s.saved := by unfold State.putH; split <;> rfl
@[simp] theorem State.putH_launches (s : State) (r : Ray) (hs : List (Nat × Word)) : (s.putH r hs).launches = s.launches := by unfold State.putH; split <;> rfl
@[simp] theorem State.putH_nextLaunch (s : State) (r : Ray) (hs : List (Nat × Word)) : (s.putH r hs).nextLaunch = s.nextLaunch := by unfold State.putH; split <;> rfl
@[simp] theorem State.putH_ctxs (s : State) (r : Ray) (hs : List (Nat × Word)) : (s.putH r hs).ctxs = s.ctxs := by unfold State.putH; split <;> rfl
@[simp] theorem State.putH_queues (s : State) (r : Ray) (hs : List (Nat × Word)) : (s.putH r hs).queues = s.queues := by unfold State.putH; split <;> rfl
@[simp] theorem State.putH_fns (s : State) (r : Ray) (hs : List (Nat × Word)) : (s.putH r hs).fns = s.fns := by unfold State.putH; split <;> rfl
@[simp] theorem State.putH_module (s : State) (r : Ray) (hs : List (Nat × Word)) : (s.putH r hs).module = s.module := by unfold State.putH; split <;> rfl
@[simp] theorem State.putH_lnsends (s : State) (r : Ray) (hs : List (Nat × Word)) : (s.putH r hs).lnsends = s.lnsends := by unfold State.putH; split <;> rfl
@[simp] theorem State.putH_arrivals (s : State) (r : Ray) (hs : List (Nat × Word)) : (s.putH r hs).arrivals = s.arrivals := by unfold State.putH; split <;> rfl
@[simp] theorem State.putH_landings (s : State) (r : Ray) (hs : List (Nat × Word)) : (s.putH r hs).landings = s.landings := by unfold State.putH; split <;> rfl
@[simp] theorem State.putH_poison (s : State) (r : Ray) (hs : List (Nat × Word)) : (s.putH r hs).poison = s.poison := by unfold State.putH; split <;> rfl

@[simp] theorem State.streamFault_turn (s : State) (k st pc : Nat) : (s.streamFault k st pc).turn = s.turn := rfl
@[simp] theorem State.streamFault_cur (s : State) (k st pc : Nat) : (s.streamFault k st pc).cur = s.cur := rfl
@[simp] theorem State.streamFault_inputs (s : State) (k st pc : Nat) : (s.streamFault k st pc).inputs = s.inputs := rfl
@[simp] theorem State.streamFault_tick (s : State) (k st pc : Nat) : (s.streamFault k st pc).tick = s.tick := rfl
@[simp] theorem State.streamFault_clock (s : State) (k st pc : Nat) : (s.streamFault k st pc).clock = s.clock := rfl
@[simp] theorem State.streamFault_cores (s : State) (k st pc : Nat) : (s.streamFault k st pc).cores = s.cores := rfl
@[simp] theorem State.streamFault_l2 (s : State) (k st pc : Nat) : (s.streamFault k st pc).l2 = s.l2 := rfl
@[simp] theorem State.streamFault_walks (s : State) (k st pc : Nat) : (s.streamFault k st pc).walks = s.walks := rfl
@[simp] theorem State.streamFault_hbm (s : State) (k st pc : Nat) : (s.streamFault k st pc).hbm = s.hbm := rfl
@[simp] theorem State.streamFault_host (s : State) (k st pc : Nat) : (s.streamFault k st pc).host = s.host := rfl
@[simp] theorem State.streamFault_beams (s : State) (k st pc : Nat) : (s.streamFault k st pc).beams = s.beams := rfl
@[simp] theorem State.streamFault_saved (s : State) (k st pc : Nat) : (s.streamFault k st pc).saved = s.saved := rfl
@[simp] theorem State.streamFault_launches (s : State) (k st pc : Nat) : (s.streamFault k st pc).launches = s.launches := rfl
@[simp] theorem State.streamFault_nextLaunch (s : State) (k st pc : Nat) : (s.streamFault k st pc).nextLaunch = s.nextLaunch := rfl
@[simp] theorem State.streamFault_ctxs (s : State) (k st pc : Nat) : (s.streamFault k st pc).ctxs = s.ctxs := rfl
@[simp] theorem State.streamFault_queues (s : State) (k st pc : Nat) : (s.streamFault k st pc).queues = s.queues := rfl
@[simp] theorem State.streamFault_fns (s : State) (k st pc : Nat) : (s.streamFault k st pc).fns = s.fns := rfl
@[simp] theorem State.streamFault_module (s : State) (k st pc : Nat) : (s.streamFault k st pc).module = s.module := rfl
@[simp] theorem State.streamFault_lnsends (s : State) (k st pc : Nat) : (s.streamFault k st pc).lnsends = s.lnsends := rfl
@[simp] theorem State.streamFault_arrivals (s : State) (k st pc : Nat) : (s.streamFault k st pc).arrivals = s.arrivals := rfl
@[simp] theorem State.streamFault_landings (s : State) (k st pc : Nat) : (s.streamFault k st pc).landings = s.landings := rfl
@[simp] theorem State.streamFault_poison (s : State) (k st pc : Nat) : (s.streamFault k st pc).poison = s.poison := rfl

@[simp] theorem State.unpark_turn (s : State) (k q : Nat) : (s.unpark k q).turn = s.turn := by unfold State.unpark; simp
@[simp] theorem State.unpark_cur (s : State) (k q : Nat) : (s.unpark k q).cur = s.cur := by unfold State.unpark; simp
@[simp] theorem State.unpark_inputs (s : State) (k q : Nat) : (s.unpark k q).inputs = s.inputs := by unfold State.unpark; simp
@[simp] theorem State.unpark_tick (s : State) (k q : Nat) : (s.unpark k q).tick = s.tick := by unfold State.unpark; simp
@[simp] theorem State.unpark_clock (s : State) (k q : Nat) : (s.unpark k q).clock = s.clock := by unfold State.unpark; simp
@[simp] theorem State.unpark_clusters (s : State) (k q : Nat) : (s.unpark k q).clusters = s.clusters := by unfold State.unpark; simp
@[simp] theorem State.unpark_l2 (s : State) (k q : Nat) : (s.unpark k q).l2 = s.l2 := by unfold State.unpark; simp
@[simp] theorem State.unpark_walks (s : State) (k q : Nat) : (s.unpark k q).walks = s.walks := by unfold State.unpark; simp
@[simp] theorem State.unpark_hbm (s : State) (k q : Nat) : (s.unpark k q).hbm = s.hbm := by unfold State.unpark; simp
@[simp] theorem State.unpark_host (s : State) (k q : Nat) : (s.unpark k q).host = s.host := by unfold State.unpark; simp
@[simp] theorem State.unpark_beams (s : State) (k q : Nat) : (s.unpark k q).beams = s.beams := by unfold State.unpark; simp
@[simp] theorem State.unpark_saved (s : State) (k q : Nat) : (s.unpark k q).saved = s.saved := by unfold State.unpark; simp
@[simp] theorem State.unpark_launches (s : State) (k q : Nat) : (s.unpark k q).launches = s.launches := by unfold State.unpark; simp
@[simp] theorem State.unpark_nextLaunch (s : State) (k q : Nat) : (s.unpark k q).nextLaunch = s.nextLaunch := by unfold State.unpark; simp
@[simp] theorem State.unpark_ctxs (s : State) (k q : Nat) : (s.unpark k q).ctxs = s.ctxs := by unfold State.unpark; simp
@[simp] theorem State.unpark_queues (s : State) (k q : Nat) : (s.unpark k q).queues = s.queues := by unfold State.unpark; simp
@[simp] theorem State.unpark_fns (s : State) (k q : Nat) : (s.unpark k q).fns = s.fns := by unfold State.unpark; simp
@[simp] theorem State.unpark_module (s : State) (k q : Nat) : (s.unpark k q).module = s.module := by unfold State.unpark; simp
@[simp] theorem State.unpark_lnsends (s : State) (k q : Nat) : (s.unpark k q).lnsends = s.lnsends := by unfold State.unpark; simp
@[simp] theorem State.unpark_arrivals (s : State) (k q : Nat) : (s.unpark k q).arrivals = s.arrivals := by unfold State.unpark; simp
@[simp] theorem State.unpark_landings (s : State) (k q : Nat) : (s.unpark k q).landings = s.landings := by unfold State.unpark; simp
@[simp] theorem State.unpark_poison (s : State) (k q : Nat) : (s.unpark k q).poison = s.poison := by unfold State.unpark; simp

/-! ### Reading what was changed -/

@[simp] theorem State.core_setCore (s : State) (k : Nat) (c : Core) : (s.setCore k c).core k = c := by
  simp [State.core, State.setCore]
theorem State.core_setCore_ne (s : State) {k j : Nat} (c : Core) (h : j ≠ k) : (s.setCore k c).core j = s.core j := by
  simp [State.core, State.setCore, SMap.get_put_ne _ _ _ h]
@[simp] theorem State.core_updCore (s : State) (k : Nat) (f : Core → Core) : (s.updCore k f).core k = f (s.core k) := by
  simp [State.updCore]
theorem State.core_updCore_ne (s : State) {k j : Nat} (f : Core → Core) (h : j ≠ k) : (s.updCore k f).core j = s.core j :=
  s.core_setCore_ne _ h
@[simp] theorem State.cluster_setCluster (s : State) (k : Nat) (c : Cluster) : (s.setCluster k c).cluster k = c := by
  simp [State.cluster, State.setCluster]
theorem State.cluster_setCluster_ne (s : State) {k j : Nat} (c : Cluster) (h : j ≠ k) :
    (s.setCluster k c).cluster j = s.cluster j := by
  simp [State.cluster, State.setCluster, SMap.get_put_ne _ _ _ h]
@[simp] theorem State.cluster_updCluster (s : State) (k : Nat) (f : Cluster → Cluster) :
    (s.updCluster k f).cluster k = f (s.cluster k) := by
  simp [State.updCluster]
theorem State.cluster_updCluster_ne (s : State) {k j : Nat} (f : Cluster → Cluster) (h : j ≠ k) :
    (s.updCluster k f).cluster j = s.cluster j := s.cluster_setCluster_ne _ h
@[simp] theorem State.ray_setRay (s : State) (k q : Nat) (r : Ray) : (s.setRay k q r).ray k q = some r := by
  simp [State.ray, State.setRay]
theorem State.ray_setRay_slot (s : State) (k : Nat) {q p : Nat} (r : Ray) (h : p ≠ q) :
    (s.setRay k q r).ray k p = s.ray k p := by
  simp [State.ray, State.setRay, SMap.get?_put_ne _ _ h]
theorem State.ray_setRay_core (s : State) {k j : Nat} (q p : Nat) (r : Ray) (h : j ≠ k) :
    (s.setRay k q r).ray j p = s.ray j p := by
  simp [State.ray, State.setRay, State.core_updCore_ne _ _ h]
theorem State.updRay_some {s : State} {k q : Nat} {r : Ray} (f : Ray → Ray) (h : s.ray k q = some r) :
    s.updRay k q f = s.setRay k q (f r) := by simp [State.updRay, h]
theorem State.updRay_none {s : State} {k q : Nat} (f : Ray → Ray) (h : s.ray k q = none) : s.updRay k q f = s := by
  simp [State.updRay, h]
theorem State.beam_updBeam {s : State} {l p : Nat} {b : Beam} (f : Beam → Beam) (h : s.beam l p = some b) :
    (s.updBeam l p f).beam l p = some (f b) := by
  unfold State.beam at h
  simp [State.beam, State.updBeam, SMap.get?_upd, h]
theorem State.launch_updLaunch {s : State} {l : Nat} {x : Launch} (f : Launch → Launch) (h : s.launch l = some x) :
    (s.updLaunch l f).launch l = some (f x) := by
  unfold State.launch at h
  simp [State.launch, State.updLaunch, SMap.get?_upd, h]
@[simp] theorem State.fnOf_updFn (s : State) (k : Nat) (f : Fn → Fn) : (s.updFn k f).fnOf k = f (s.fnOf k) := by
  simp [State.fnOf, State.updFn]
theorem State.fnOf_updFn_ne (s : State) {k j : Nat} (f : Fn → Fn) (h : j ≠ k) : (s.updFn k f).fnOf j = s.fnOf j := by
  simp [State.fnOf, State.updFn, SMap.get_put_ne _ _ _ h]

/-! ### Changing twice -/

@[simp] theorem SMap.put_put {α : Type} (m : SMap α) (k : Nat) (x y : α) : SMap.put (SMap.put m k x) k y = SMap.put m k y := by
  induction m with
  | nil => simp [SMap.put]
  | cons p t ih =>
    obtain ⟨j, v⟩ := p
    rcases Nat.lt_trichotomy k j with h | h | h
    · simp [SMap.put, h]
    · subst h; simp [SMap.put]
    · have h1 : ¬ k < j := by omega
      have h2 : ¬ k = j := by omega
      simp [SMap.put, h1, h2, ih]
@[simp] theorem State.setCore_setCore (s : State) (k : Nat) (c d : Core) : (s.setCore k c).setCore k d = s.setCore k d := by
  simp [State.setCore]
@[simp] theorem State.setCluster_setCluster (s : State) (k : Nat) (c d : Cluster) :
    (s.setCluster k c).setCluster k d = s.setCluster k d := by simp [State.setCluster]
theorem State.updCore_updCore (s : State) (k : Nat) (f g : Core → Core) :
    (s.updCore k f).updCore k g = s.updCore k fun c => g (f c) := by simp [State.updCore]
theorem State.updFn_updFn (s : State) (k : Nat) (f g : Fn → Fn) : (s.updFn k f).updFn k g = s.updFn k fun x => g (f x) := by
  simp [State.updFn, State.fnOf]

/-! ### Deleting and changing every value -/

@[simp] theorem SMap.get?_del {α : Type} (m : SMap α) (k : Nat) : SMap.get? (SMap.del m k) k = none := by
  induction m with
  | nil => rfl
  | cons p t ih => obtain ⟨j, v⟩ := p; by_cases h : j = k <;> simp [SMap.del, SMap.get?, h, ih]
theorem SMap.get?_del_ne {α : Type} (m : SMap α) {k n : Nat} (h : n ≠ k) : SMap.get? (SMap.del m k) n = SMap.get? m n := by
  induction m with
  | nil => rfl
  | cons p t ih =>
    obtain ⟨j, v⟩ := p
    by_cases h1 : j = k
    · subst h1; simp [SMap.del, SMap.get?, ih, Ne.symm h]
    · by_cases h2 : j = n
      · subst h2; simp [SMap.del, SMap.get?, h1]
      · simp [SMap.del, SMap.get?, h1, h2, ih]
theorem SMap.get?_mapVals {α β : Type} (f : Nat → α → β) (m : SMap α) (k : Nat) :
    SMap.get? (SMap.mapVals f m) k = (SMap.get? m k).map (f k) := by
  induction m with
  | nil => rfl
  | cons p t ih =>
    obtain ⟨j, v⟩ := p
    by_cases h : j = k
    · subst h; simp [SMap.mapVals, SMap.get?]
    · simpa [SMap.mapVals, SMap.get?, h] using ih
theorem SMap.mem_put {α : Type} {m : SMap α} {k : Nat} {x : α} {p : Nat × α} (h : p ∈ SMap.put m k x) : p = (k, x) ∨ p ∈ m := by
  induction m with
  | nil => simpa [SMap.put] using h
  | cons q t ih =>
    obtain ⟨j, v⟩ := q
    unfold SMap.put at h
    split at h
    · simpa using h
    · split at h
      · rcases List.mem_cons.1 h with h | h
        · exact .inl h
        · exact .inr (List.mem_cons_of_mem _ h)
      · rcases List.mem_cons.1 h with h | h
        · exact .inr (h ▸ List.mem_cons_self ..)
        · exact (ih h).imp_right (List.mem_cons_of_mem _)
theorem SMap.get?_mem {α : Type} {m : SMap α} {k : Nat} {x : α} (h : SMap.get? m k = some x) : (k, x) ∈ m := by
  induction m with
  | nil => simp [SMap.get?] at h
  | cons q t ih =>
    obtain ⟨j, v⟩ := q
    unfold SMap.get? at h
    split at h
    · rename_i e; simp at h; subst e; subst h; exact List.mem_cons_self ..
    · exact List.mem_cons_of_mem _ (ih h)

end Sys2Proof.Machine
end

