-- ==== Sys2Proof/Laws/Memory.lean ====
section
/-!
SUPPORT. Memory: reading after writing, and that every memory operation keeps the canonical form (State.memWf).
-/
namespace Sys2Proof.Machine

/-! ### One memory -/

/-- The form from an address up holds from any lower address up. -/
theorem Mem.wfFrom_mono {m : Mem} {n k : Nat} (h : Mem.wfFrom m n = true) (hk : k ≤ n) : Mem.wfFrom m k = true := by
  cases m with
  | nil => rfl
  | cons p t =>
    obtain ⟨a, v⟩ := p
    simp only [Mem.wfFrom, Bool.and_eq_true, decide_eq_true_eq] at h ⊢
    exact ⟨⟨Nat.le_trans hk h.1.1, h.1.2⟩, h.2⟩

/-- Below its first address a memory lists nothing. -/
theorem Mem.read_below {m : Mem} {n a : Nat} (h : Mem.wfFrom m n = true) (ha : a < n) : Mem.read m a = 0 := by
  induction m generalizing n with
  | nil => rfl
  | cons p t ih =>
    obtain ⟨k, v⟩ := p
    simp only [Mem.wfFrom, Bool.and_eq_true, decide_eq_true_eq] at h
    have hk : ¬ k = a := by omega
    simp only [Mem.read, hk, if_false]
    exact ih h.2 (by omega)

/-- A write keeps the form. -/
theorem Mem.wfFrom_write {m : Mem} {n a : Nat} (b : Byte) (h : Mem.wfFrom m n = true) (ha : n ≤ a) :
    Mem.wfFrom (Mem.write m a b) n = true := by
  induction m generalizing n with
  | nil =>
    by_cases hb : b = 0
    · simp only [Mem.write, if_pos hb]; rfl
    · simp only [Mem.write, if_neg hb, Mem.wfFrom, Bool.and_eq_true, decide_eq_true_eq]
      exact ⟨⟨ha, hb⟩, trivial⟩
  | cons p t ih =>
    obtain ⟨k, v⟩ := p
    have h' := h
    simp only [Mem.wfFrom, Bool.and_eq_true, decide_eq_true_eq] at h
    unfold Mem.write
    split
    · split
      · exact h'
      · rename_i hak hb
        simp only [Mem.wfFrom, Bool.and_eq_true, decide_eq_true_eq]
        exact ⟨⟨ha, hb⟩, ⟨by omega, h.1.2⟩, h.2⟩
    · split
      · split
        · exact Mem.wfFrom_mono h.2 (by omega)
        · rename_i e hb
          subst e
          simp only [Mem.wfFrom, Bool.and_eq_true, decide_eq_true_eq]
          exact ⟨⟨ha, hb⟩, h.2⟩
      · simp only [Mem.wfFrom, Bool.and_eq_true, decide_eq_true_eq]
        exact ⟨h.1, ih h.2 (by omega)⟩

theorem Mem.wf_write {m : Mem} (a : Nat) (b : Byte) (h : m.wf = true) : (Mem.write m a b).wf = true :=
  Mem.wfFrom_write b h (Nat.zero_le a)

/-- Reading where a byte was written. -/
theorem Mem.read_write {m : Mem} {n : Nat} (a : Nat) (b : Byte) (h : Mem.wfFrom m n = true) : Mem.read (Mem.write m a b) a = b := by
  induction m generalizing n with
  | nil =>
    by_cases hb : b = 0
    · rw [Mem.write, if_pos hb, hb]; rfl
    · simp only [Mem.write, if_neg hb, Mem.read, if_true]
  | cons p t ih =>
    obtain ⟨k, v⟩ := p
    simp only [Mem.wfFrom, Bool.and_eq_true, decide_eq_true_eq] at h
    unfold Mem.write
    split
    · rename_i hak
      have hk : ¬ k = a := by omega
      split
      · rename_i hb
        simp only [Mem.read, hk, if_false, hb]
        exact Mem.read_below h.2 (by omega)
      · simp [Mem.read]
    · split
      · rename_i e
        subst e
        split
        · rename_i hb
          rw [hb]; exact Mem.read_below h.2 (by omega)
        · simp [Mem.read]
      · rename_i h1 h2
        have hk : ¬ k = a := fun e => h2 e.symm
        simp only [Mem.read, hk, if_false]
        exact ih h.2

/-- A write leaves every other byte. -/
theorem Mem.read_write_ne {m : Mem} {n a c : Nat} (b : Byte) (h : Mem.wfFrom m n = true) (hc : c ≠ a) :
    Mem.read (Mem.write m a b) c = Mem.read m c := by
  have hac : ¬ a = c := fun e => hc e.symm
  induction m generalizing n with
  | nil =>
    by_cases hb : b = 0
    · simp only [Mem.write, if_pos hb]
    · simp only [Mem.write, if_neg hb, Mem.read, hac, if_false]
  | cons p t ih =>
    obtain ⟨k, v⟩ := p
    simp only [Mem.wfFrom, Bool.and_eq_true, decide_eq_true_eq] at h
    unfold Mem.write
    split
    · split
      · rfl
      · simp [Mem.read, hac]
    · split
      · rename_i e
        subst e
        split
        · simp [Mem.read, hac]
        · simp [Mem.read, hac]
      · simp only [Mem.read]
        split
        · rfl
        · exact ih h.2

theorem Mem.wf_writeBytes {m : Mem} (a : Nat) (bs : List Byte) (h : m.wf = true) : (Mem.writeBytes m a bs).wf = true := by
  induction bs generalizing m a with
  | nil => exact h
  | cons b t ih => exact ih _ (Mem.wf_write a b h)

/-- A byte after a run of bytes has been written. -/
theorem Mem.read_writeBytes {m : Mem} (a : Nat) (bs : List Byte) (c : Nat) (h : m.wf = true) :
    Mem.read (Mem.writeBytes m a bs) c = if a ≤ c ∧ c < a + bs.length then bs.getD (c - a) 0 else Mem.read m c := by
  induction bs generalizing m a with
  | nil => simp [Mem.writeBytes, show ¬ (a ≤ c ∧ c < a) from by omega]
  | cons b t ih =>
    rw [Mem.writeBytes, ih (a + 1) (Mem.wf_write a b h)]
    by_cases hc : c = a
    · subst hc
      simp [Mem.read_write c b (n := 0) h]
    · by_cases hr : a + 1 ≤ c ∧ c < a + 1 + t.length
      · have h2 : a ≤ c ∧ c < a + (t.length + 1) := by omega
        have h3 : c - a = (c - (a + 1)) + 1 := by omega
        simp only [List.length_cons, hr, h2, and_self, if_true, h3, List.getD_cons_succ]
      · have h2 : ¬ (a ≤ c ∧ c < a + (t.length + 1)) := by omega
        rw [List.length_cons, if_neg hr, if_neg h2, Mem.read_write_ne b (n := 0) h hc]

/-- Reading back a run of bytes. -/
theorem Mem.readBytes_writeBytes {m : Mem} (a : Nat) (bs : List Byte) (h : m.wf = true) :
    Mem.readBytes (Mem.writeBytes m a bs) a bs.length = bs := by
  apply List.ext_getElem
  · simp [Mem.readBytes]
  · intro i h1 h2
    simp [Mem.readBytes, Mem.read_writeBytes a bs _ h, h2]

/-- Dropping listed bytes keeps the form. -/
theorem Mem.wfFrom_filter {m : Mem} {n : Nat} (f : Nat × Byte → Bool) (h : Mem.wfFrom m n = true) : Mem.wfFrom (m.filter f) n = true := by
  induction m generalizing n with
  | nil => rfl
  | cons p t ih =>
    obtain ⟨k, v⟩ := p
    simp only [Mem.wfFrom, Bool.and_eq_true, decide_eq_true_eq] at h
    rw [List.filter_cons]
    split
    · simp only [Mem.wfFrom, Bool.and_eq_true, decide_eq_true_eq]
      exact ⟨h.1, ih h.2⟩
    · exact ih (Mem.wfFrom_mono h.2 (by omega))

theorem Mem.wf_zeroRange {m : Mem} (a n : Nat) (h : m.wf = true) : (Mem.zeroRange m a n).wf = true := Mem.wfFrom_filter _ h

theorem Mem.read_zeroRange (m : Mem) (a n c : Nat) :
    Mem.read (Mem.zeroRange m a n) c = if a ≤ c ∧ c < a + n then 0 else Mem.read m c := by
  induction m with
  | nil => simp [Mem.zeroRange, Mem.read]
  | cons p t ih =>
    obtain ⟨k, v⟩ := p
    have ih : Mem.read (t.filter fun (k, _) => k < a || a + n ≤ k) c = _ := ih
    unfold Mem.zeroRange
    rw [List.filter_cons]
    by_cases hk : k < a ∨ a + n ≤ k
    · have hk' : (decide (k < a) || decide (a + n ≤ k)) = true := by simpa using hk
      simp only [hk', if_true, Mem.read]
      by_cases e : k = c
      · subst e; simp [show ¬ (a ≤ k ∧ k < a + n) from by omega]
      · simp only [e, if_false]; exact ih
    · have hk' : (decide (k < a) || decide (a + n ≤ k)) = false := by simpa using hk
      simp only [hk', Bool.false_eq_true, if_false, Mem.read]
      rw [ih]
      by_cases e : k = c
      · subst e; simp [show a ≤ k ∧ k < a + n from by omega]
      · simp [e]

/-! ### The machine's memories -/

theorem State.memWf_reset : State.reset.memWf := ⟨rfl, rfl, fun _ h => absurd h (List.not_mem_nil)⟩

/-- A change that leaves the memories and the clusters keeps the form. -/
theorem State.memWf_of {s u : State} (h : s.memWf) (hb : u.hbm = s.hbm) (ho : u.host = s.host) (hc : u.clusters = s.clusters) :
    u.memWf := by
  unfold State.memWf at *
  rw [hb, ho, hc]; exact h

/-- The scratchpad of a cluster, listed or not, is in form. -/
theorem State.memWf_sram {s : State} (h : s.memWf) (k : Nat) : (s.cluster k).sram.wf = true := by
  unfold State.cluster SMap.get
  cases e : SMap.get? s.clusters k with
  | none => rfl
  | some c => exact h.2.2 _ (SMap.get?_mem e)

theorem State.memWf_setCluster {s : State} (h : s.memWf) (k : Nat) {c : Cluster} (hc : c.sram.wf = true) : (s.setCluster k c).memWf := by
  refine ⟨h.1, h.2.1, fun p hp => ?_⟩
  rcases SMap.mem_put hp with rfl | hp
  · exact hc
  · exact h.2.2 p hp

theorem State.memWf_updCluster {s : State} (h : s.memWf) (k : Nat) {f : Cluster → Cluster}
    (hf : (f (s.cluster k)).sram.wf = true) : (s.updCluster k f).memWf := s.memWf_setCluster h k hf

/-- A change of a cluster that leaves its scratchpad. -/
theorem State.memWf_updCluster_same {s : State} (h : s.memWf) (k : Nat) {f : Cluster → Cluster}
    (hf : (f (s.cluster k)).sram = (s.cluster k).sram) : (s.updCluster k f).memWf :=
  s.memWf_updCluster h k (hf ▸ s.memWf_sram h k)

/-- A change of every cluster that leaves their scratchpads. -/
theorem State.memWf_mapClusters {s u : State} (h : s.memWf) (hb : u.hbm = s.hbm) (ho : u.host = s.host) {f : Nat → Cluster → Cluster}
    (hc : u.clusters = SMap.mapVals f s.clusters) (hf : ∀ k c, (f k c).sram = c.sram) : u.memWf := by
  refine ⟨hb ▸ h.1, ho ▸ h.2.1, ?_⟩
  rw [hc]
  intro p hp
  obtain ⟨q, hq, rfl⟩ := List.mem_map.1 hp
  exact (hf q.1 q.2).symm ▸ h.2.2 q hq

theorem State.memWf_setMemByte {s : State} (h : s.memWf) (k : Nat) (b : Byte) : (s.setMemByte k b).memWf := by
  unfold State.setMemByte
  split
  · exact ⟨h.1, Mem.wf_write _ _ h.2.1, h.2.2⟩
  · exact ⟨Mem.wf_write _ _ h.1, h.2.1, h.2.2⟩

/-- A fold of steps each of which keeps the form keeps it. -/
theorem State.memWf_foldl {α : Type} (l : List α) {f : State → α → State} (hf : ∀ s a, s.memWf → (f s a).memWf) :
    ∀ s : State, s.memWf → (l.foldl f s).memWf := by
  induction l with
  | nil => exact fun _ h => h
  | cons a t ih => exact fun s h => ih _ (hf s a h)

/-- The same of a fold that carries a value beside the state. -/
theorem State.memWf_foldl_fst {α β : Type} (l : List α) {f : State × β → α → State × β} (hf : ∀ p a, p.1.memWf → (f p a).1.memWf) :
    ∀ p : State × β, p.1.memWf → (l.foldl f p).1.memWf := by
  induction l with
  | nil => exact fun _ h => h
  | cons a t ih => exact fun p h => ih _ (hf p a h)

/-- Operations that leave the memories and the clusters. -/
theorem State.memWf_updCore {s : State} (h : s.memWf) (k : Nat) (f : Core → Core) : (s.updCore k f).memWf := s.memWf_of h rfl rfl rfl
theorem State.memWf_setRay {s : State} (h : s.memWf) (k q : Nat) (r : Ray) : (s.setRay k q r).memWf := s.memWf_of h rfl rfl rfl
theorem State.memWf_updRay {s : State} (h : s.memWf) (k q : Nat) (f : Ray → Ray) : (s.updRay k q f).memWf :=
  s.memWf_of h (by simp) (by simp) (by simp)
theorem State.memWf_takeTrap {s : State} (h : s.memWf) (k q : Nat) (w : ParkReason) (t : TrapInfo) : (s.takeTrap k q w t).memWf := by
  unfold State.takeTrap
  split
  · exact h
  · exact State.memWf_of (s.memWf_updCluster_same h (clusterOf k) (f := fun c => { c with places := c.places.filter fun p => !(p.1 == k && [q].contains p.2) }) rfl) rfl rfl rfl
theorem State.memWf_setL2 {s : State} (h : s.memWf) (d : Nat) (c : Cache) : (s.setL2 d c).memWf := s.memWf_of h rfl rfl rfl
theorem State.memWf_bump {s : State} (h : s.memWf) : s.bump.memWf := s.memWf_of h rfl rfl rfl
theorem State.memWf_loseResv {s : State} (h : s.memWf) (g : Granule) (cs : Nat → Bool) (w : Option (Nat × Nat × Nat)) :
    (s.loseResv g cs w).memWf := s.memWf_of h rfl rfl rfl

/-- A run-time trap leaves every memory. -/
theorem State.memWf_trapCur {s : State} (h : s.memWf) (c : Nat) (l : Mask) (d i : Nat) : (s.trapCur c l d i).memWf := by
  unfold State.trapCur
  split
  · exact h
  · split
    · exact h
    · exact s.memWf_takeTrap h ..
  · split
    · exact h
    · exact s.memWf_updCluster_same h _ rfl

theorem State.memWf_stallSlot {s : State} (h : s.memWf) (w : Stall) : (s.stallSlot w).memWf :=
  s.memWf_of h (by simp) (by simp) (by simp)

theorem State.memWf_endClause {s : State} (h : s.memWf) (k q : Nat) : (s.endClause k q).memWf := by
  unfold State.endClause
  split
  · exact h
  · exact s.memWf_of h (by simp) (by simp) (by simp)

/-- The end of a slot leaves every memory. -/
theorem State.memWf_finishSlot {s : State} (h : s.memWf) (t : Thread) : (s.finishSlot t).memWf := by
  unfold State.finishSlot
  split
  · exact h
  · split
    · exact h
    · dsimp only
      split
      · apply State.memWf_endClause; exact s.memWf_of h rfl rfl rfl
      · exact s.memWf_of h rfl rfl rfl
  · exact s.memWf_updCluster_same h _ rfl

/-! ### Caches and points of coherence -/

theorem State.memWf_ite {c : Prop} [Decidable c] {a b : State} (ha : a.memWf) (hb : b.memWf) : (if c then a else b).memWf := by
  split
  · exact ha
  · exact hb

theorem State.memWf_updFn {s : State} (h : s.memWf) (k : Nat) (f : Fn → Fn) : (s.updFn k f).memWf := s.memWf_of h rfl rfl rfl
theorem State.memWf_raiseAll {s : State} (h : s.memWf) (v : Nat) : (s.raiseAll v).memWf := by
  unfold State.raiseAll
  exact State.memWf_foldl _ (fun s f hs => State.memWf_of (s := s) (u := s.raiseMsi f v) hs rfl rfl rfl) _ h
theorem State.memWf_withModule {s : State} (h : s.memWf) (m : Module) : ({ s with module := m } : State).memWf := s.memWf_of h rfl rfl rfl
theorem State.memWf_withPoison {s : State} (h : s.memWf) (p : List (Nat × Nat)) : ({ s with poison := p } : State).memWf :=
  s.memWf_of h rfl rfl rfl
theorem State.memWf_log {s : State} (h : s.memWf) (a src r w : Nat) : (s.log a src r w).memWf := by
  unfold State.log
  exact State.memWf_raiseAll (State.memWf_withModule h _) _

theorem State.memWf_wbMeets {s : State} (h : s.memWf) (t : Option StoreTag) (sec src at_ : Nat) : (s.wbMeets t sec src at_).1.memWf := by
  unfold State.wbMeets
  dsimp only
  split
  · exact State.memWf_log (State.memWf_bump h) ..
  · split
    · exact State.memWf_bump h
    · split
      · split <;> exact State.memWf_bump h
      · exact State.memWf_bump h

theorem State.memWf_wbFault {s : State} (h : s.memWf) (t : Option StoreTag) (c k : Nat) : (s.wbFault t c k).memWf := by
  unfold State.wbFault
  split
  · exact s.memWf_updCore h ..
  · exact h

theorem State.memWf_wbL2 {s : State} (h : s.memWf) (die sec : Nat) : (s.wbL2 die sec).1.memWf := by
  unfold State.wbL2
  dsimp only
  split
  · exact h
  · have h1 := fun t => State.memWf_setL2 (State.memWf_wbMeets h t sec 4 (stackOf (keyAddr (sec * 256)))) die ((s.l2Of die).clean sec)
    split
    · exact State.memWf_ite (h1 _) (State.memWf_foldl _ (fun s a hs => State.memWf_setMemByte hs ..) _ (h1 _))
    · exact State.memWf_wbFault (h1 _) ..

theorem State.memWf_touchL2 {s : State} (h : s.memWf) (die k : Nat) : (s.touchL2 die k).memWf := by
  unfold State.touchL2
  dsimp only
  split
  · exact State.memWf_setL2 h ..
  · split
    · exact State.memWf_setL2 h ..
    · exact State.memWf_setL2 (State.memWf_foldl _ (fun s a hs => State.memWf_wbL2 hs ..) _
        (State.memWf_bump (State.memWf_setL2 h ..))) ..

theorem State.memWf_writeHome {s : State} (h : s.memWf) (k : Nat) (b : Byte) (t : Option StoreTag) (w : Option (Nat × Nat × Nat)) :
    (s.writeHome k b t w).memWf := by
  unfold State.writeHome
  exact State.memWf_loseResv (State.memWf_touchL2 (State.memWf_setL2 h ..) ..) ..

theorem State.memWf_wbCluster {s : State} (h : s.memWf) (cl sec : Nat) : (s.wbCluster cl sec).1.memWf := by
  unfold State.wbCluster
  dsimp only
  split
  · exact h
  · have h0 := State.memWf_wbMeets h (SMap.get? (s.cluster cl).cache.tags sec) sec 3 cl
    revert h0
    generalize s.wbMeets (SMap.get? (s.cluster cl).cache.tags sec) sec 3 cl = p
    intro h0
    have h1 := State.memWf_updCluster_same h0 cl (f := fun x => { x with cache := x.cache.clean sec }) rfl
    split
    · exact State.memWf_touchL2 (State.memWf_foldl _ (fun s a hs => State.memWf_loseResv (State.memWf_setL2 hs ..) ..) _ h1) ..
    · exact State.memWf_wbFault h1 ..

theorem State.memWf_setCache {s : State} (h : s.memWf) (cl : Nat) (x : Cluster → Cache) :
    (s.updCluster cl fun c => { c with cache := x c }).memWf := s.memWf_updCluster_same h _ rfl

theorem State.memWf_touchCluster {s : State} (h : s.memWf) (cl k : Nat) : (s.touchCluster cl k).memWf := by
  unfold State.touchCluster
  dsimp only
  have h1 := State.memWf_setCache h cl
  split
  · exact h1 _
  · split
    · exact h1 _
    · exact State.memWf_setCache (State.memWf_foldl _ (fun s a hs => State.memWf_wbCluster hs ..) _ (State.memWf_bump (h1 _))) ..

theorem State.memWf_wbL1 {s : State} (h : s.memWf) (core sec : Nat) : (s.wbL1 core sec).1.memWf := by
  unfold State.wbL1
  dsimp only
  split
  · exact h
  · have h1 := fun t => State.memWf_updCore (State.memWf_wbMeets h t sec 2 (clusterOf core)) core fun x => { x with l1 := x.l1.clean sec }
    split
    · exact State.memWf_touchCluster (State.memWf_foldl _ (fun s a hs => State.memWf_loseResv (s.memWf_updCluster_same hs _ rfl) ..) _ (h1 _)) ..
    · exact State.memWf_wbFault (h1 _) ..

theorem State.memWf_publish {s : State} (h : s.memWf) (core scope : Nat) (secs : List Nat) : (s.publish core scope secs).1.memWf := by
  unfold State.publish
  refine State.memWf_foldl_fst _ (fun p a hp => ?_) _ h
  obtain ⟨s, st⟩ := p
  dsimp only at hp ⊢
  have h1 := State.memWf_wbL1 hp core a
  have h2 := State.memWf_wbCluster h1 (clusterOf core) a
  have h3 := State.memWf_wbL2 h2 0 a
  split
  · exact hp
  · split
    · exact h1
    · split
      · exact h2
      · exact h3

theorem State.memWf_touchL1 {s : State} (h : s.memWf) (core k : Nat) (st : Bool) : (s.touchL1 core k st).memWf := by
  unfold State.touchL1
  dsimp only
  generalize (if st = true then _ else _ : List Nat) = lines
  split
  · exact s.memWf_updCore h ..
  · exact State.memWf_updCore (State.memWf_foldl _ (fun s a hs => State.memWf_wbL1 hs ..) _ h) ..

theorem State.memWf_fillSector {s : State} (h : s.memWf) (core sec : Nat) (need : List Nat) (i st : Bool) :
    (s.fillSector core sec need i st).memWf := by
  unfold State.fillSector
  dsimp only
  split
  · exact State.memWf_ite (State.memWf_touchL1 h ..) h
  · generalize (if i = true then sectorKeys sec else need) = want
    have h0 : (if want.all (SMap.has (s.l2Of (keyDie (sec * 256))).bytes) = true then s
        else s.setL2 (keyDie (sec * 256)) ((s.l2Of (keyDie (sec * 256))).fill sec s.memByte)).memWf :=
      State.memWf_ite h (State.memWf_setL2 h ..)
    revert h0
    generalize (if want.all (SMap.has (s.l2Of (keyDie (sec * 256))).bytes) = true then s
        else s.setL2 (keyDie (sec * 256)) ((s.l2Of (keyDie (sec * 256))).fill sec s.memByte)) = u
    intro h0
    have h1 : ∀ v : State, v.memWf → (v.touchCluster (clusterOf core) (sec * 256)).memWf := fun v hv => State.memWf_touchCluster hv ..
    split
    · refine State.memWf_touchL1 (State.memWf_updCore (h1 _ (State.memWf_ite h ?_)) ..) ..
      exact State.memWf_updCluster_same (State.memWf_touchL2 h0 ..) _ rfl
    · refine h1 _ (State.memWf_ite h ?_)
      exact State.memWf_updCluster_same (State.memWf_touchL2 h0 ..) _ rfl

theorem State.memWf_loadBytes {s : State} (h : s.memWf) (core : Nat) (host : Bool) (a n cp : Nat) (nc : Bool) :
    (s.loadBytes core host a n cp nc).1.memWf := by
  unfold State.loadBytes
  exact State.memWf_foldl _ (fun s a hs => State.memWf_fillSector hs ..) _ h

theorem State.memWf_storeBytes {s : State} (h : s.memWf) (core : Nat) (host : Bool) (a cp : Nat) (nc : Bool) (tag : StoreTag) (lane : Nat)
    (bs : List Byte) : (s.storeBytes core host a cp nc tag lane bs).memWf := by
  unfold State.storeBytes
  dsimp only
  have h1 : ∀ b : Bool, State.memWf (bs.zipIdx.foldl (fun s (p : Byte × Nat) =>
      (if b then (s.updCore core fun c => { c with l1 := c.l1.dropByte (physKey host a + p.2) }).updCluster (clusterOf core) fun c =>
          { c with cache := c.cache.write (physKey host a + p.2) p.1 (some tag) }
        else s.updCore core fun c => { c with l1 := c.l1.write (physKey host a + p.2) p.1 (some tag) }).loseResv
        (physGranule (physKey host a + p.2)) (fun x => if b then clusterOf x == clusterOf core else x == core) (some (core, tag.rslot, lane))) s) := by
    intro b
    refine State.memWf_foldl _ (fun s p hs => State.memWf_loseResv (State.memWf_ite ?_ ?_) ..) _ h
    · exact State.memWf_updCluster_same (State.memWf_updCore hs ..) _ rfl
    · exact State.memWf_updCore hs ..
  exact State.memWf_ite (State.memWf_touchCluster (h1 _) ..) (State.memWf_touchL1 (h1 _) ..)

theorem State.memWf_storeNt {s : State} (h : s.memWf) (core : Nat) (host : Bool) (a : Nat) (tag : StoreTag) (lane : Nat) (bs : List Byte) :
    (s.storeNt core host a tag lane bs).memWf := by
  unfold State.storeNt
  refine State.memWf_ite h (State.memWf_foldl _ (fun s p hs => ?_) _ h)
  exact State.memWf_loseResv (State.memWf_setMemByte (State.memWf_setL2
    (State.memWf_updCluster_same (State.memWf_updCore hs ..) _ rfl) ..) ..) ..

theorem State.memWf_storeHome {s : State} (h : s.memWf) (k : Nat) (bs : List Byte) : (s.storeHome k bs).memWf := by
  unfold State.storeHome
  exact State.memWf_foldl _ (fun s p hs => State.memWf_writeHome hs ..) _ h

theorem State.memWf_writeHostByte {s : State} (h : s.memWf) (q : Nat) (b : Byte) (w : Option (Nat × Nat × Nat)) :
    (s.writeHostByte q b w).memWf := by
  unfold State.writeHostByte
  exact State.memWf_loseResv (State.memWf_setMemByte (State.memWf_setL2 h ..) ..) ..

theorem State.memWf_storeSystem {s : State} (h : s.memWf) (k : Nat) (bs : List Byte) : (s.storeSystem k bs).memWf := by
  unfold State.storeSystem
  refine State.memWf_foldl _ (fun s p hs => ?_) _ h
  exact State.memWf_ite (State.memWf_writeHostByte hs ..) (State.memWf_writeHome hs ..)

theorem State.memWf_writeVirt {s : State} (h : s.memWf) (ctx va : Nat) (bs : List Byte) : (s.writeVirt ctx va bs).memWf := by
  unfold State.writeVirt
  refine State.memWf_foldl _ (fun s p hs => ?_) _ h
  dsimp only
  split
  · split
    · exact State.memWf_storeSystem hs ..
    · exact hs
  · exact hs

theorem State.memWf_hostWrite {s : State} (h : s.memWf) (a : Nat) (bs : List Byte) : (s.hostWrite a bs).memWf :=
  State.memWf_storeSystem h ..

theorem State.memWf_toPoint {s : State} (h : s.memWf) (core level k n : Nat) : (s.toPoint core level k n).memWf := by
  unfold State.toPoint
  refine State.memWf_foldl _ (fun s a hs => ?_) _ h
  dsimp only
  have h1 : ∀ u : State, u.memWf → (if level ≤ 1 then u else
      (u.wbL1 core a).1.updCore core fun c =>
        { c with l1 := ((List.range n).map (k + ·)).foldl Cache.dropByte c.l1 }).memWf := by
    intro u hu
    split
    · exact hu
    · exact State.memWf_updCore (State.memWf_wbL1 hu ..) ..
  have h2 : ∀ u : State, u.memWf → (if level ≤ 2 then u else
      (u.wbCluster (clusterOf core) a).1.updCluster (clusterOf core) fun c =>
        { c with cache := ((List.range n).map (k + ·)).foldl Cache.dropByte c.cache }).memWf := by
    intro u hu
    split
    · exact hu
    · exact State.memWf_updCluster_same (State.memWf_wbCluster hu ..) _ rfl
  split
  · exact h2 _ (h1 _ hs)
  · exact State.memWf_setL2 (State.memWf_wbL2 (h2 _ (h1 _ hs)) ..) ..

theorem State.memWf_pointWrite {s : State} (h : s.memWf) (core level k : Nat) (t : Option StoreTag) (w : Option (Nat × Nat × Nat))
    (bs : List Byte) : (s.pointWrite core level k t w bs).memWf := by
  unfold State.pointWrite
  refine State.memWf_foldl _ (fun s p hs => ?_) _ h
  dsimp only
  split
  · exact State.memWf_touchL1 (State.memWf_loseResv (State.memWf_updCore hs ..) ..) ..
  · split
    · exact State.memWf_touchCluster (State.memWf_loseResv (State.memWf_updCluster_same hs _ rfl) ..) ..
    · split
      · exact State.memWf_writeHome hs ..
      · exact State.memWf_ite hs (State.memWf_writeHostByte hs ..)

/-! ### Scratchpad -/

theorem State.memWf_writeScratch {s : State} (h : s.memWf) (cl o : Nat) (w : Option (Nat × Nat × Nat)) (bs : List Byte) :
    (s.writeScratch cl o w bs).memWf := by
  unfold State.writeScratch
  refine State.memWf_foldl _ (fun s p hs => ?_) _
    (State.memWf_withPoison (s.memWf_updCluster h cl (Mem.wf_writeBytes _ _ (s.memWf_sram h cl))) _)
  split
  · exact hs
  · exact State.memWf_loseResv hs ..

theorem Cluster.wf_pushes {c : Cluster} (h : c.sram.wf = true) (b : Nat) (ws : List Word) : (c.pushes b ws).sram.wf = true := by
  show (ws.zipIdx.foldl (fun m (p : Word × Nat) =>
    m.writeBytes (fifoAddr b (((c.bank b).tail + p.2) % 32768)) (leBytes 4 p.1.toNat)) c.sram).wf = true
  generalize ws.zipIdx = l
  generalize c.sram = m at h
  induction l generalizing m with
  | nil => exact h
  | cons p t ih => exact ih _ (Mem.wf_writeBytes _ _ h)

theorem State.memWf_zeroScratch {s : State} (h : s.memWf) (cl o n : Nat) : (s.zeroScratch cl o n).memWf := by
  unfold State.zeroScratch State.loseScratch
  exact State.memWf_of (s.memWf_updCluster h cl (f := fun c =>
    { c with sram := c.sram.zeroRange o n
             gtags := c.gtags.filter fun (g, _) => !(decide (o / 512 ≤ g) && decide (g < (o + n + 511) / 512)) })
    (Mem.wf_zeroRange _ _ (s.memWf_sram h cl))) rfl rfl rfl

theorem State.memWf_zeroHbm {s : State} (h : s.memWf) (a n : Nat) : (s.zeroHbm a n).memWf := by
  unfold State.zeroHbm
  refine ⟨Mem.wf_zeroRange _ _ h.1, h.2.1, ?_⟩
  intro p hp
  obtain ⟨q, hq, rfl⟩ := List.mem_map.1 hp
  exact h.2.2 q hq

end Sys2Proof.Machine
end

