-- ==== Sys2Proof/Laws/PerInstr.lean ====
section
/-!
SUPPORT. What holds of each instruction as syntax: an instruction that has words takes as many slots as its encoding
has words (R88).
-/
namespace Sys2Proof.Laws.EncodeLength
open Sys2Proof

/-- The encoding has as many words as the instruction takes slots. -/
def Statement (i : Instr) : Prop := i.cls.isSome = true → (encode i).length = i.size

/-- An encoding is its one or two instruction words and the literal it may take. -/
theorem of_head {i : Instr} (h : i.head.length = 1 + b2n i.wide) : Statement i := by
  intro _
  simp only [encode, Instr.size, List.length_append, h]
  cases i.usesLit <;> rfl

/-- An event has no words. -/
theorem of_event {i : Instr} (h : i.cls.isSome = false) : Statement i := fun h' => absurd h' (by simp [h])

theorem iaddS32 (g : Guard) (d a b : Opnd) : Statement (.iaddS32 g d a b) := of_head rfl
theorem isubS32 (g : Guard) (d a b : Opnd) : Statement (.isubS32 g d a b) := of_head rfl
theorem iaddS64 (g : Guard) (d a b : Opnd) : Statement (.iaddS64 g d a b) := of_head rfl
theorem isubS64 (g : Guard) (d a b : Opnd) : Statement (.isubS64 g d a b) := of_head rfl
theorem imulS32 (g : Guard) (d a b : Opnd) : Statement (.imulS32 g d a b) := of_head rfl
theorem imulhiS32 (g : Guard) (d a b : Opnd) : Statement (.imulhiS32 g d a b) := of_head rfl
theorem imulhiZ32 (g : Guard) (d a b : Opnd) : Statement (.imulhiZ32 g d a b) := of_head rfl
theorem imadS32 (g : Guard) (d a b : Opnd) : Statement (.imadS32 g d a b) := of_head rfl
theorem iminS32 (g : Guard) (d a b : Opnd) : Statement (.iminS32 g d a b) := of_head rfl
theorem iminZ32 (g : Guard) (d a b : Opnd) : Statement (.iminZ32 g d a b) := of_head rfl
theorem imaxS32 (g : Guard) (d a b : Opnd) : Statement (.imaxS32 g d a b) := of_head rfl
theorem imaxZ32 (g : Guard) (d a b : Opnd) : Statement (.imaxZ32 g d a b) := of_head rfl
theorem imulwS32 (g : Guard) (d a b : Opnd) : Statement (.imulwS32 g d a b) := of_head rfl
theorem imulwZ32 (g : Guard) (d a b : Opnd) : Statement (.imulwZ32 g d a b) := of_head rfl
theorem leaS64 (g : Guard) (d a b : Opnd) : Statement (.leaS64 g d a b) := of_head rfl
theorem andZ32 (g : Guard) (d a b : Opnd) : Statement (.andZ32 g d a b) := of_head rfl
theorem orZ32 (g : Guard) (d a b : Opnd) : Statement (.orZ32 g d a b) := of_head rfl
theorem xorZ32 (g : Guard) (d a b : Opnd) : Statement (.xorZ32 g d a b) := of_head rfl
theorem andnZ32 (g : Guard) (d a b : Opnd) : Statement (.andnZ32 g d a b) := of_head rfl
theorem shlZ32 (g : Guard) (d a b : Opnd) : Statement (.shlZ32 g d a b) := of_head rfl
theorem shrZ32 (g : Guard) (d a b : Opnd) : Statement (.shrZ32 g d a b) := of_head rfl
theorem shrS32 (g : Guard) (d a b : Opnd) : Statement (.shrS32 g d a b) := of_head rfl
theorem rotZ32 (g : Guard) (d a b : Opnd) : Statement (.rotZ32 g d a b) := of_head rfl
theorem bfeZ32 (g : Guard) (d a b : Opnd) : Statement (.bfeZ32 g d a b) := of_head rfl
theorem bfeS32 (g : Guard) (d a b : Opnd) : Statement (.bfeS32 g d a b) := of_head rfl
theorem bfiZ32 (g : Guard) (d a b : Opnd) : Statement (.bfiZ32 g d a b) := of_head rfl
theorem shflIdx (g : Guard) (d a b : Opnd) : Statement (.shflIdx g d a b) := of_head rfl
theorem shflUp (g : Guard) (d a b : Opnd) : Statement (.shflUp g d a b) := of_head rfl
theorem shflDn (g : Guard) (d a b : Opnd) : Statement (.shflDn g d a b) := of_head rfl
theorem shflXor (g : Guard) (d a b : Opnd) : Statement (.shflXor g d a b) := of_head rfl
theorem faddF32 (g : Guard) (d a b : Opnd) : Statement (.faddF32 g d a b) := of_head rfl
theorem fsubF32 (g : Guard) (d a b : Opnd) : Statement (.fsubF32 g d a b) := of_head rfl
theorem fmulF32 (g : Guard) (d a b : Opnd) : Statement (.fmulF32 g d a b) := of_head rfl
theorem ffmaF32 (g : Guard) (d a b : Opnd) : Statement (.ffmaF32 g d a b) := of_head rfl
theorem fminF32 (g : Guard) (d a b : Opnd) : Statement (.fminF32 g d a b) := of_head rfl
theorem fmaxF32 (g : Guard) (d a b : Opnd) : Statement (.fmaxF32 g d a b) := of_head rfl
theorem faddF16x2 (g : Guard) (d a b : Opnd) : Statement (.faddF16x2 g d a b) := of_head rfl
theorem fsubF16x2 (g : Guard) (d a b : Opnd) : Statement (.fsubF16x2 g d a b) := of_head rfl
theorem fmulF16x2 (g : Guard) (d a b : Opnd) : Statement (.fmulF16x2 g d a b) := of_head rfl
theorem ffmaF16x2 (g : Guard) (d a b : Opnd) : Statement (.ffmaF16x2 g d a b) := of_head rfl
theorem faddBf16x2 (g : Guard) (d a b : Opnd) : Statement (.faddBf16x2 g d a b) := of_head rfl
theorem fsubBf16x2 (g : Guard) (d a b : Opnd) : Statement (.fsubBf16x2 g d a b) := of_head rfl
theorem fmulBf16x2 (g : Guard) (d a b : Opnd) : Statement (.fmulBf16x2 g d a b) := of_head rfl
theorem ffmaBf16x2 (g : Guard) (d a b : Opnd) : Statement (.ffmaBf16x2 g d a b) := of_head rfl
theorem fdivF32 (g : Guard) (d a b : Opnd) : Statement (.fdivF32 g d a b) := of_head rfl
theorem iaddS16x2 (g : Guard) (d a b : Opnd) : Statement (.iaddS16x2 g d a b) := of_head rfl
theorem isubS16x2 (g : Guard) (d a b : Opnd) : Statement (.isubS16x2 g d a b) := of_head rfl
theorem iaddsS16x2 (g : Guard) (d a b : Opnd) : Statement (.iaddsS16x2 g d a b) := of_head rfl
theorem isubsS16x2 (g : Guard) (d a b : Opnd) : Statement (.isubsS16x2 g d a b) := of_head rfl
theorem iaddsZ16x2 (g : Guard) (d a b : Opnd) : Statement (.iaddsZ16x2 g d a b) := of_head rfl
theorem isubsZ16x2 (g : Guard) (d a b : Opnd) : Statement (.isubsZ16x2 g d a b) := of_head rfl
theorem imulS16x2 (g : Guard) (d a b : Opnd) : Statement (.imulS16x2 g d a b) := of_head rfl
theorem imadS16x2 (g : Guard) (d a b : Opnd) : Statement (.imadS16x2 g d a b) := of_head rfl
theorem iminS16x2 (g : Guard) (d a b : Opnd) : Statement (.iminS16x2 g d a b) := of_head rfl
theorem imaxS16x2 (g : Guard) (d a b : Opnd) : Statement (.imaxS16x2 g d a b) := of_head rfl
theorem iminZ16x2 (g : Guard) (d a b : Opnd) : Statement (.iminZ16x2 g d a b) := of_head rfl
theorem imaxZ16x2 (g : Guard) (d a b : Opnd) : Statement (.imaxZ16x2 g d a b) := of_head rfl
theorem sadZ8x4 (g : Guard) (d a b : Opnd) : Statement (.sadZ8x4 g d a b) := of_head rfl
theorem sadZ16x2 (g : Guard) (d a b : Opnd) : Statement (.sadZ16x2 g d a b) := of_head rfl
theorem dotS16x2 (g : Guard) (d a b : Opnd) : Statement (.dotS16x2 g d a b) := of_head rfl
theorem quant (g : Guard) (d a b : Opnd) : Statement (.quant g d a b) := of_head rfl
theorem deq (g : Guard) (d a b : Opnd) : Statement (.deq g d a b) := of_head rfl
theorem pxunpack (g : Guard) (d a b : Opnd) : Statement (.pxunpack g d a b) := of_head rfl
theorem pxpack (g : Guard) (d a b : Opnd) : Statement (.pxpack g d a b) := of_head rfl
theorem idivS32 (g : Guard) (d a b : Opnd) : Statement (.idivS32 g d a b) := of_head rfl
theorem idivZ32 (g : Guard) (d a b : Opnd) : Statement (.idivZ32 g d a b) := of_head rfl
theorem iremS32 (g : Guard) (d a b : Opnd) : Statement (.iremS32 g d a b) := of_head rfl
theorem iremZ32 (g : Guard) (d a b : Opnd) : Statement (.iremZ32 g d a b) := of_head rfl
theorem shlZ64 (g : Guard) (d a b : Opnd) : Statement (.shlZ64 g d a b) := of_head rfl
theorem shrZ64 (g : Guard) (d a b : Opnd) : Statement (.shrZ64 g d a b) := of_head rfl
theorem shrS64 (g : Guard) (d a b : Opnd) : Statement (.shrS64 g d a b) := of_head rfl
theorem andZ64 (g : Guard) (d a b : Opnd) : Statement (.andZ64 g d a b) := of_head rfl
theorem orZ64 (g : Guard) (d a b : Opnd) : Statement (.orZ64 g d a b) := of_head rfl
theorem xorZ64 (g : Guard) (d a b : Opnd) : Statement (.xorZ64 g d a b) := of_head rfl
theorem lnsend (g : Guard) (d a b : Opnd) : Statement (.lnsend g d a b) := of_head rfl
theorem iabsS32 (g : Guard) (d a : Opnd) : Statement (.iabsS32 g d a) := of_head rfl
theorem popcZ32 (g : Guard) (d a : Opnd) : Statement (.popcZ32 g d a) := of_head rfl
theorem clzZ32 (g : Guard) (d a : Opnd) : Statement (.clzZ32 g d a) := of_head rfl
theorem brevZ32 (g : Guard) (d a : Opnd) : Statement (.brevZ32 g d a) := of_head rfl
theorem movZ32 (g : Guard) (d a : Opnd) : Statement (.movZ32 g d a) := of_head rfl
theorem movZ64 (g : Guard) (d a : Opnd) : Statement (.movZ64 g d a) := of_head rfl
theorem iredaddS32 (g : Guard) (d a : Opnd) : Statement (.iredaddS32 g d a) := of_head rfl
theorem iredminS32 (g : Guard) (d a : Opnd) : Statement (.iredminS32 g d a) := of_head rfl
theorem iredmaxS32 (g : Guard) (d a : Opnd) : Statement (.iredmaxS32 g d a) := of_head rfl
theorem fabsF32 (g : Guard) (d a : Opnd) : Statement (.fabsF32 g d a) := of_head rfl
theorem fnegF32 (g : Guard) (d a : Opnd) : Statement (.fnegF32 g d a) := of_head rfl
theorem fredaddF32 (g : Guard) (d a : Opnd) : Statement (.fredaddF32 g d a) := of_head rfl
theorem fredminF32 (g : Guard) (d a : Opnd) : Statement (.fredminF32 g d a) := of_head rfl
theorem fredmaxF32 (g : Guard) (d a : Opnd) : Statement (.fredmaxF32 g d a) := of_head rfl
theorem iabsS16x2 (g : Guard) (d a : Opnd) : Statement (.iabsS16x2 g d a) := of_head rfl
theorem frcpF32 (g : Guard) (d a : Opnd) : Statement (.frcpF32 g d a) := of_head rfl
theorem frsqF32 (g : Guard) (d a : Opnd) : Statement (.frsqF32 g d a) := of_head rfl
theorem fsqrtF32 (g : Guard) (d a : Opnd) : Statement (.fsqrtF32 g d a) := of_head rfl
theorem fexp2F32 (g : Guard) (d a : Opnd) : Statement (.fexp2F32 g d a) := of_head rfl
theorem flog2F32 (g : Guard) (d a : Opnd) : Statement (.flog2F32 g d a) := of_head rfl
theorem fsinF32 (g : Guard) (d a : Opnd) : Statement (.fsinF32 g d a) := of_head rfl
theorem fcosF32 (g : Guard) (d a : Opnd) : Statement (.fcosF32 g d a) := of_head rfl
theorem ftanhF32 (g : Guard) (d a : Opnd) : Statement (.ftanhF32 g d a) := of_head rfl
theorem fgeluF32 (g : Guard) (d a : Opnd) : Statement (.fgeluF32 g d a) := of_head rfl
theorem fsigmF32 (g : Guard) (d a : Opnd) : Statement (.fsigmF32 g d a) := of_head rfl
theorem fexp2F16x2 (g : Guard) (d a : Opnd) : Statement (.fexp2F16x2 g d a) := of_head rfl
theorem popcZ64 (g : Guard) (d a : Opnd) : Statement (.popcZ64 g d a) := of_head rfl
theorem clzZ64 (g : Guard) (d a : Opnd) : Statement (.clzZ64 g d a) := of_head rfl
theorem lnclr (g : Guard) (d a : Opnd) : Statement (.lnclr g d a) := of_head rfl
theorem icmpEqZ32 (g : Guard) (pt pf : Pred) (a b : Opnd) : Statement (.icmpEqZ32 g pt pf a b) := of_head rfl
theorem icmpLtS32 (g : Guard) (pt pf : Pred) (a b : Opnd) : Statement (.icmpLtS32 g pt pf a b) := of_head rfl
theorem icmpLeS32 (g : Guard) (pt pf : Pred) (a b : Opnd) : Statement (.icmpLeS32 g pt pf a b) := of_head rfl
theorem icmpLtZ32 (g : Guard) (pt pf : Pred) (a b : Opnd) : Statement (.icmpLtZ32 g pt pf a b) := of_head rfl
theorem icmpLeZ32 (g : Guard) (pt pf : Pred) (a b : Opnd) : Statement (.icmpLeZ32 g pt pf a b) := of_head rfl
theorem fcmpEqF32 (g : Guard) (pt pf : Pred) (a b : Opnd) : Statement (.fcmpEqF32 g pt pf a b) := of_head rfl
theorem fcmpLtF32 (g : Guard) (pt pf : Pred) (a b : Opnd) : Statement (.fcmpLtF32 g pt pf a b) := of_head rfl
theorem fcmpLeF32 (g : Guard) (pt pf : Pred) (a b : Opnd) : Statement (.fcmpLeF32 g pt pf a b) := of_head rfl
theorem fcmpUnF32 (g : Guard) (pt pf : Pred) (a b : Opnd) : Statement (.fcmpUnF32 g pt pf a b) := of_head rfl
theorem plop (g : Guard) (pt pf pa pb : Pred) (table : BitVec 4) : Statement (.plop g pt pf pa pb table) := of_head rfl
theorem voteAny (g : Guard) (pt pf pa : Pred) (n : Bool) : Statement (.voteAny g pt pf pa n) := of_head rfl
theorem voteAll (g : Guard) (pt pf pa : Pred) (n : Bool) : Statement (.voteAll g pt pf pa n) := of_head rfl
theorem ballot (g : Guard) (d : Opnd) (pa : Pred) (n : Bool) : Statement (.ballot g d pa n) := of_head rfl
theorem bra (g : Guard) (disp : BitVec 21) : Statement (.bra g disp) := of_head rfl
theorem call (g : Guard) (disp : BitVec 21) : Statement (.call g disp) := of_head rfl
theorem ret (g : Guard) : Statement (.ret g) := of_head rfl
theorem exit (g : Guard) : Statement (.exit g) := of_head rfl
theorem yield (g : Guard) : Statement (.yield g) := of_head rfl
theorem lnret (g : Guard) : Statement (.lnret g) := of_head rfl
theorem drainnt (g : Guard) : Statement (.drainnt g) := of_head rfl
theorem drainst (g : Guard) : Statement (.drainst g) := of_head rfl
theorem tret (g : Guard) : Statement (.tret g) := of_head rfl
theorem termRay (g : Guard) : Statement (.termRay g) := of_head rfl
theorem termBeam (g : Guard) : Statement (.termBeam g) := of_head rfl
theorem mend (g : Guard) : Statement (.mend g) := of_head rfl
theorem brx (g : Guard) (a : Opnd) : Statement (.brx g a) := of_head rfl
theorem callx (g : Guard) (a : Opnd) : Statement (.callx g a) := of_head rfl
theorem caladv (g : Guard) (a : Opnd) : Statement (.caladv g a) := of_head rfl
theorem caladvAllow (g : Guard) (a : Opnd) : Statement (.caladvAllow g a) := of_head rfl
theorem msig (g : Guard) (a : Opnd) : Statement (.msig g a) := of_head rfl
theorem ldZ32 (g : Guard) (d a : Opnd) (dc : BitVec 3) (ofs : MemOfs) : Statement (.ldZ32 g d a dc ofs) := of_head rfl
theorem ldZ64 (g : Guard) (d a : Opnd) (dc : BitVec 3) (ofs : MemOfs) : Statement (.ldZ64 g d a dc ofs) := of_head rfl
theorem stZ32 (g : Guard) (d a : Opnd) (dc : BitVec 3) (ofs : MemOfs) : Statement (.stZ32 g d a dc ofs) := of_head rfl
theorem stZ64 (g : Guard) (d a : Opnd) (dc : BitVec 3) (ofs : MemOfs) : Statement (.stZ64 g d a dc ofs) := of_head rfl
theorem ldroZ32 (g : Guard) (d a : Opnd) (dc : BitVec 3) (ofs : MemOfs) : Statement (.ldroZ32 g d a dc ofs) := of_head rfl
theorem ldroZ64 (g : Guard) (d a : Opnd) (dc : BitVec 3) (ofs : MemOfs) : Statement (.ldroZ64 g d a dc ofs) := of_head rfl
theorem stntZ32 (g : Guard) (d a : Opnd) (dc : BitVec 3) (ofs : MemOfs) : Statement (.stntZ32 g d a dc ofs) := of_head rfl
theorem stntZ64 (g : Guard) (d a : Opnd) (dc : BitVec 3) (ofs : MemOfs) : Statement (.stntZ64 g d a dc ofs) := of_head rfl
theorem acq (g : Guard) (d a : Opnd) (dc : BitVec 3) (ofs : MemOfs) : Statement (.acq g d a dc ofs) := of_head rfl
theorem rel (g : Guard) (d a : Opnd) (dc : BitVec 3) (ofs : MemOfs) : Statement (.rel g d a dc ofs) := of_head rfl
theorem ldt (g : Guard) (d a : Opnd) (dc : BitVec 3) : Statement (.ldt g d a dc) := of_head rfl
theorem ldtC (g : Guard) (d a : Opnd) (dc : BitVec 3) : Statement (.ldtC g d a dc) := of_head rfl
theorem sth (g : Guard) (d a : Opnd) (dc : BitVec 3) : Statement (.sth g d a dc) := of_head rfl
theorem join (g : Guard) (d a : Opnd) (dc : BitVec 3) : Statement (.join g d a dc) := of_head rfl
theorem bwait (g : Guard) (d a : Opnd) (dc : BitVec 3) : Statement (.bwait g d a dc) := of_head rfl
theorem spawn (g : Guard) (d a : Opnd) (dc : BitVec 3) : Statement (.spawn g d a dc) := of_head rfl
theorem mfs (g : Guard) (d : Opnd) (nr : BitVec 7) : Statement (.mfs g d nr) := of_head rfl
theorem mts (g : Guard) (nr : BitVec 7) (b : Opnd) : Statement (.mts g nr b) := of_head rfl
theorem sel (g : Guard) (d a b : Opnd) (w n : Bool) (p : Pred) : Statement (.sel g d a b w n p) := of_head rfl
theorem icmpS64 (g : Guard) (pt pf : Pred) (a b : Opnd) (cond : BitVec 2) : Statement (.icmpS64 g pt pf a b cond) := of_head rfl
theorem icmpZ64 (g : Guard) (pt pf : Pred) (a b : Opnd) (cond : BitVec 2) : Statement (.icmpZ64 g pt pf a b cond) := of_head rfl
theorem iadd3S32 (g : Guard) (d a b c : Opnd) : Statement (.iadd3S32 g d a b c) := of_head rfl
theorem ffma3F32 (g : Guard) (d a b c : Opnd) : Statement (.ffma3F32 g d a b c) := of_head rfl
theorem ffma3F16x2 (g : Guard) (d a b c : Opnd) : Statement (.ffma3F16x2 g d a b c) := of_head rfl
theorem ffma3Bf16x2 (g : Guard) (d a b c : Opnd) : Statement (.ffma3Bf16x2 g d a b c) := of_head rfl
theorem dotsS16x2 (g : Guard) (d a b c : Opnd) : Statement (.dotsS16x2 g d a b c) := of_head rfl
theorem faddF32Rm (g : Guard) (d a b : Opnd) (rm : BitVec 2) : Statement (.faddF32Rm g d a b rm) := of_head rfl
theorem fmulF32Rm (g : Guard) (d a b : Opnd) (rm : BitVec 2) : Statement (.fmulF32Rm g d a b rm) := of_head rfl
theorem fcmpF16 (g : Guard) (pt pf : Pred) (a b : Opnd) (h : Bool) (cc : BitVec 2) : Statement (.fcmpF16 g pt pf a b h cc) := of_head rfl
theorem fcmpBf16 (g : Guard) (pt pf : Pred) (a b : Opnd) (h : Bool) (cc : BitVec 2) : Statement (.fcmpBf16 g pt pf a b h cc) := of_head rfl
theorem cvt (g : Guard) (d a : Opnd) (k : BitVec 7) : Statement (.cvt g d a k) := of_head rfl
theorem cvtWide (g : Guard) (d a : Opnd) (dst src : BitVec 4) (rm : BitVec 3) (sat spos dpos : BitVec 2) : Statement (.cvtWide g d a dst src rm sat spos dpos) := of_head rfl
theorem ldType (g : Guard) (d a : Opnd) (dc : BitVec 3) (ofs : MemOfs) (cp : BitVec 2) (ty : BitVec 3) : Statement (.ldType g d a dc ofs cp ty) := of_head rfl
theorem stType (g : Guard) (d a : Opnd) (dc : BitVec 3) (ofs : MemOfs) (cp : BitVec 2) (ty : BitVec 3) : Statement (.stType g d a dc ofs cp ty) := of_head rfl
theorem atom (g : Guard) (d a : Opnd) (dc : BitVec 3) (ofs : MemOfs) (c : Opnd) (scope ty : BitVec 3) (op : BitVec 4) : Statement (.atom g d a dc ofs c scope ty op) := of_head rfl
theorem ldres (g : Guard) (d a : Opnd) (dc : BitVec 3) (ofs : MemOfs) (w : Bool) : Statement (.ldres g d a dc ofs w) := of_head rfl
theorem stcon (g : Guard) (d a : Opnd) (dc : BitVec 3) (ofs : MemOfs) (c : Opnd) (w : Bool) : Statement (.stcon g d a dc ofs c w) := of_head rfl
theorem fence (g : Guard) (dc scope : BitVec 3) : Statement (.fence g dc scope) := of_head rfl
theorem xcopyIn (g : Guard) (d a : Opnd) (dc : BitVec 3) (c : Opnd) (acq rel : Bool) (scope : BitVec 3) : Statement (.xcopyIn g d a dc c acq rel scope) := of_head rfl
theorem xcopyOut (g : Guard) (d a : Opnd) (dc : BitVec 3) (c : Opnd) (acq : Bool) (scope : BitVec 3) (t2 : BitVec 5) : Statement (.xcopyOut g d a dc c acq scope t2) := of_head rfl
theorem xmcast (g : Guard) (d a : Opnd) (dc : BitVec 3) (c : Opnd) (acq rel : Bool) (scope rb : BitVec 3) : Statement (.xmcast g d a dc c acq rel scope rb) := of_head rfl
theorem fread (g : Guard) (d a : Opnd) (dc : BitVec 3) (c : Opnd) (rel : Bool) (scope : BitVec 3) : Statement (.fread g d a dc c rel scope) := of_head rfl
theorem fwrite (g : Guard) (d a : Opnd) (dc : BitVec 3) (c : Opnd) (t2 : BitVec 5) : Statement (.fwrite g d a dc c t2) := of_head rfl
theorem waitc (g : Guard) (d a b : Opnd) (w : Bool) : Statement (.waitc g d a b w) := of_head rfl
theorem fork (g : Guard) (d a : Opnd) (dc : BitVec 3) (c : Opnd) : Statement (.fork g d a dc c) := of_head rfl
theorem feed (g : Guard) (d a : Opnd) (dc : BitVec 3) (c : Opnd) : Statement (.feed g d a dc c) := of_head rfl
theorem take (g : Guard) (d : Opnd) (t : BitVec 4) (q : BitVec 2) (c : BitVec 7) (n : BitVec 4) : Statement (.take g d t q c n) := of_head rfl
theorem barInit (g : Guard) (a : Opnd) (k : BitVec 3) : Statement (.barInit g a k) := of_head rfl
theorem barArv (g : Guard) (k : BitVec 3) : Statement (.barArv g k) := of_head rfl
theorem barAddr (g : Guard) (d : Opnd) (k : BitVec 3) : Statement (.barAddr g d k) := of_head rfl
theorem arrive (g : Guard) (a : Opnd) (dc : BitVec 3) : Statement (.arrive g a dc) := of_head rfl
theorem bkpt (g : Guard) (n : BitVec 16) : Statement (.bkpt g n) := of_head rfl
theorem svcall (g : Guard) (n : BitVec 16) : Statement (.svcall g n) := of_head rfl
theorem mma (g : Guard) (a b : Opnd) (scope : BitVec 3) (rel acq : Bool) (db da t : BitVec 4) : Statement (.mma g a b scope rel acq db da t) := of_head rfl
theorem mmaz (g : Guard) (a b : Opnd) (scope : BitVec 3) (rel acq : Bool) (db da t : BitVec 4) : Statement (.mmaz g a b scope rel acq db da t) := of_head rfl
theorem mzero (g : Guard) (t : BitVec 4) : Statement (.mzero g t) := of_head rfl
theorem mhaar (g : Guard) (a b : Opnd) (scope : BitVec 3) (rel : Bool) (t : BitVec 4) : Statement (.mhaar g a b scope rel t) := of_head rfl
theorem mihaarTile (g : Guard) (scope : BitVec 3) (rel : Bool) (t : BitVec 4) : Statement (.mihaarTile g scope rel t) := of_head rfl
theorem mihaar (g : Guard) (a b : Opnd) (scope : BitVec 3) (rel : Bool) : Statement (.mihaar g a b scope rel) := of_head rfl
theorem mthrSet (g : Guard) (a : Opnd) (i : BitVec 4) : Statement (.mthrSet g a i) := of_head rfl
theorem mthrTile (g : Guard) (a : Opnd) (scope : BitVec 3) (rel : Bool) : Statement (.mthrTile g a scope rel) := of_head rfl
theorem mwait (g : Guard) (a b : Opnd) (e : Bool) : Statement (.mwait g a b e) := of_head rfl
theorem mdesc (g : Guard) (a b : Opnd) (j : BitVec 4) : Statement (.mdesc g a b j) := of_head rfl
theorem bankmodeSelect (cmd : DWord) : Statement (.bankmodeSelect cmd) := of_event rfl
theorem bankmodeSwitch (cmd : DWord) : Statement (.bankmodeSwitch cmd) := of_event rfl
theorem bankSwitchStep (cl bank : Nat) : Statement (.bankSwitchStep cl bank) := of_event rfl
theorem dispatcherBankTake (cl bank : Nat) : Statement (.dispatcherBankTake cl bank) := of_event rfl
theorem clauseEntry (core pipe : Nat) : Statement (.clauseEntry core pipe) := of_event rfl
theorem issueStarvation (core pipe : Nat) : Statement (.issueStarvation core pipe) := of_event rfl
theorem yieldTimeout (core rslot : Nat) : Statement (.yieldTimeout core rslot) := of_event rfl
theorem slotStallEnd (core rslot : Nat) : Statement (.slotStallEnd core rslot) := of_event rfl
theorem storeFaultReport (core rslot : Nat) : Statement (.storeFaultReport core rslot) := of_event rfl
theorem loupeFrontierReport (core rslot : Nat) : Statement (.loupeFrontierReport core rslot) := of_event rfl
theorem loupeWaitReport (core rslot : Nat) : Statement (.loupeWaitReport core rslot) := of_event rfl
theorem lanternDeliver (core rslot : Nat) : Statement (.lanternDeliver core rslot) := of_event rfl
theorem raycmdSelect (core rslot : Nat) : Statement (.raycmdSelect core rslot) := of_event rfl
theorem raycmdResume (core rslot : Nat) : Statement (.raycmdResume core rslot) := of_event rfl
theorem raycmdResumeSkip (core rslot : Nat) : Statement (.raycmdResumeSkip core rslot) := of_event rfl
theorem raycmdPark (core rslot : Nat) : Statement (.raycmdPark core rslot) := of_event rfl
theorem raycmdTermRay (core rslot : Nat) : Statement (.raycmdTermRay core rslot) := of_event rfl
theorem raycmdTermBeam (core rslot : Nat) : Statement (.raycmdTermBeam core rslot) := of_event rfl
theorem raycmdTermCtx (core rslot : Nat) : Statement (.raycmdTermCtx core rslot) := of_event rfl
theorem pageWalk (die : Nat) : Statement (.pageWalk die) := of_event rfl
theorem loadComplete (core op : Nat) : Statement (.loadComplete core op) := of_event rfl
theorem storeCheck (core op : Nat) : Statement (.storeCheck core op) := of_event rfl
theorem storeFaultRecord (core op : Nat) : Statement (.storeFaultRecord core op) := of_event rfl
theorem atomicComplete (core op : Nat) : Statement (.atomicComplete core op) := of_event rfl
theorem fifoOperationComplete (core op : Nat) : Statement (.fifoOperationComplete core op) := of_event rfl
theorem acqComplete (core op : Nat) : Statement (.acqComplete core op) := of_event rfl
theorem relComplete (core op : Nat) : Statement (.relComplete core op) := of_event rfl
theorem fenceComplete (core op : Nat) : Statement (.fenceComplete core op) := of_event rfl
theorem copyAccept (core op : Nat) : Statement (.copyAccept core op) := of_event rfl
theorem flashProgramComplete (core op : Nat) : Statement (.flashProgramComplete core op) := of_event rfl
theorem ldtComplete (core op : Nat) : Statement (.ldtComplete core op) := of_event rfl
theorem sthComplete (core op : Nat) : Statement (.sthComplete core op) := of_event rfl
theorem feedComplete (core op : Nat) : Statement (.feedComplete core op) := of_event rfl
theorem bwaitComplete (core op : Nat) : Statement (.bwaitComplete core op) := of_event rfl
theorem spawnComplete (core op : Nat) : Statement (.spawnComplete core op) := of_event rfl
theorem dirtyWriteBack (level : CacheLevel) (unit sector : Nat) : Statement (.dirtyWriteBack level unit sector) := of_event rfl
theorem copyChunkComplete (core op chunk : Nat) (second : Bool) : Statement (.copyChunkComplete core op chunk second) := of_event rfl
theorem barrierArrival (k : Nat) : Statement (.barrierArrival k) := of_event rfl
theorem lanternRecord (k : Nat) : Statement (.lanternRecord k) := of_event rfl
theorem streamBegin (cl : Nat) : Statement (.streamBegin cl) := of_event rfl
theorem tileCommandExecute (cl : Nat) : Statement (.tileCommandExecute cl) := of_event rfl
theorem mwaitRelease (cl : Nat) : Statement (.mwaitRelease cl) := of_event rfl
theorem streamEnd (cl : Nat) : Statement (.streamEnd cl) := of_event rfl
theorem qdoor (fn q : Nat) (wr : DWord) : Statement (.qdoor fn q wr) := of_event rfl
theorem queueHeaderPoll (q : Nat) : Statement (.queueHeaderPoll q) := of_event rfl
theorem barrierPacketEvaluate (q : Nat) : Statement (.barrierPacketEvaluate q) := of_event rfl
theorem aggregatorMerge (q : Nat) : Statement (.aggregatorMerge q) := of_event rfl
theorem packetTake (q : Nat) : Statement (.packetTake q) := of_event rfl
theorem launchBegin (l : Nat) : Statement (.launchBegin l) := of_event rfl
theorem launchComplete (l : Nat) : Statement (.launchComplete l) := of_event rfl
theorem pageEntryTake (l pos : Nat) : Statement (.pageEntryTake l pos) := of_event rfl
theorem pageTranslate (l pos : Nat) : Statement (.pageTranslate l pos) := of_event rfl
theorem flashSense (l pos : Nat) : Statement (.flashSense l pos) := of_event rfl
theorem ldpcDecode (l pos : Nat) : Statement (.ldpcDecode l pos) := of_event rfl
theorem pageFetch (l pos : Nat) : Statement (.pageFetch l pos) := of_event rfl
theorem pageDecompress (l pos : Nat) : Statement (.pageDecompress l pos) := of_event rfl
theorem pageTransform (l pos : Nat) : Statement (.pageTransform l pos) := of_event rfl
theorem windowCarve (l pos : Nat) : Statement (.windowCarve l pos) := of_event rfl
theorem pageLanding (l pos : Nat) : Statement (.pageLanding l pos) := of_event rfl
theorem beamPlace (l pos : Nat) : Statement (.beamPlace l pos) := of_event rfl
theorem beamComplete (l pos : Nat) : Statement (.beamComplete l pos) := of_event rfl
theorem drainTimeout (l pos : Nat) : Statement (.drainTimeout l pos) := of_event rfl
theorem beamSave (l pos : Nat) : Statement (.beamSave l pos) := of_event rfl
theorem beamFlush (l pos : Nat) : Statement (.beamFlush l pos) := of_event rfl
theorem beamResume (l pos : Nat) : Statement (.beamResume l pos) := of_event rfl
theorem gangPlace (l pos : Nat) : Statement (.gangPlace l pos) := of_event rfl
theorem sliceExpiry (core ctx : Nat) : Statement (.sliceExpiry core ctx) := of_event rfl
theorem preemptDecision (l pos : Nat) (trigger : Trigger) : Statement (.preemptDecision l pos trigger) := of_event rfl
theorem replyIntoSaveRecord (l pos op : Nat) : Statement (.replyIntoSaveRecord l pos op) := of_event rfl
theorem evpop (core : Nat) : Statement (.evpop core) := of_event rfl
theorem sffree (core : Nat) (mask : DWord) : Statement (.sffree core mask) := of_event rfl
theorem xlate (core : Nat) (v : DWord) : Statement (.xlate core v) := of_event rfl
theorem tlbinvPage (core ctx : Nat) (va : DWord) : Statement (.tlbinvPage core ctx va) := of_event rfl
theorem tlbinvContext (core ctx : Nat) : Statement (.tlbinvContext core ctx) := of_event rfl
theorem tlbinvAll (core : Nat) : Statement (.tlbinvAll core) := of_event rfl
theorem raywin (core off size : Nat) (v : DWord) : Statement (.raywin core off size v) := of_event rfl
theorem createCtx (fn : Nat) (blk : DWord) : Statement (.createCtx fn blk) := of_event rfl
theorem destroyCtx (fn : Nat) (blk : DWord) : Statement (.destroyCtx fn blk) := of_event rfl
theorem createQueue (fn : Nat) (blk : DWord) : Statement (.createQueue fn blk) := of_event rfl
theorem destroyQueue (fn : Nat) (blk : DWord) : Statement (.destroyQueue fn blk) := of_event rfl
theorem clearHalt (fn : Nat) (blk : DWord) : Statement (.clearHalt fn blk) := of_event rfl
theorem suspend (fn : Nat) (blk : DWord) : Statement (.suspend fn blk) := of_event rfl
theorem resume (fn : Nat) (blk : DWord) : Statement (.resume fn blk) := of_event rfl
theorem confirmBoot (fn : Nat) (blk : DWord) : Statement (.confirmBoot fn blk) := of_event rfl
theorem stageImage (fn : Nat) (blk : DWord) : Statement (.stageImage fn blk) := of_event rfl
theorem setPowerCap (fn : Nat) (blk : DWord) : Statement (.setPowerCap fn blk) := of_event rfl
theorem readLog (fn : Nat) (blk : DWord) : Statement (.readLog fn blk) := of_event rfl
theorem flashStatus (fn : Nat) (blk : DWord) : Statement (.flashStatus fn blk) := of_event rfl
theorem assignFlash (fn : Nat) (blk : DWord) : Statement (.assignFlash fn blk) := of_event rfl
theorem eraseFlash (fn : Nat) (blk : DWord) : Statement (.eraseFlash fn blk) := of_event rfl
theorem nonce (fn : Nat) (blk : DWord) : Statement (.nonce fn blk) := of_event rfl
theorem releaseOwner (fn : Nat) (blk : DWord) : Statement (.releaseOwner fn blk) := of_event rfl
theorem claimOwner (fn : Nat) (blk : DWord) : Statement (.claimOwner fn blk) := of_event rfl
theorem lnpay (fn k : Nat) (v : DWord) : Statement (.lnpay fn k v) := of_event rfl
theorem lndoor (fn k : Nat) (v : DWord) : Statement (.lndoor fn k v) := of_event rfl
theorem registerWriteOther (fn off : Nat) (v : DWord) : Statement (.registerWriteOther fn off v) := of_event rfl
theorem trustLoss (fn : Nat) : Statement (.trustLoss fn) := of_event rfl
theorem moduleReset : Statement (.moduleReset) := of_event rfl
theorem watchdogExpiry : Statement (.watchdogExpiry) := of_event rfl
theorem sharedBootRetry : Statement (.sharedBootRetry) := of_event rfl
theorem thermalTrip : Statement (.thermalTrip) := of_event rfl
theorem imageBlockFill (blk : Nat) : Statement (.imageBlockFill blk) := of_event rfl
theorem patrolScrub (unit : ScrubUnit) (addr : Nat) : Statement (.patrolScrub unit addr) := of_event rfl
theorem flitCrcFail (link : LinkFlit) : Statement (.flitCrcFail link) := of_event rfl
theorem thermalThrottle (on : Bool) : Statement (.thermalThrottle on) := of_event rfl
theorem spdmRequest (fn : Nat) (msg : SpdmMsg) : Statement (.spdmRequest fn msg) := of_event rfl
theorem peerRequest (fn : Nat) (req : PeerReq) : Statement (.peerRequest fn req) := of_event rfl

end Sys2Proof.Laws.EncodeLength
end

