-- ==== Sys2Proof/Laws/RegOps.lean ====
section
/-!
SUPPORT. What the shared frames of register instructions answer: the state State.wrote or State.decided where no
check fails, the domain trap where a mark may not be read, a wait where a token is pending.
-/
namespace Sys2Proof.Machine

/-- A register instruction that passes its checks writes its results. -/
theorem regOp_next {i : Instr} {d : Opnd} {w64 : Bool} {dom : Thread → Nat → Bool} {cause : Nat}
    {chk : Thread → Nat → Bool} {res : Thread → Mask → Nat → LaneRes} {s : State} {t : Thread}
    (h : s.atSlot t i) (hd : ∀ k < 32, bit (t.active i.guard) k = true → dom t k = false)
    (hc : ∀ k < 32, bit (t.active i.guard) k = true → chk t k = false) :
    regOp i d w64 dom cause chk res s =
      .next (s.wrote t i d w64 (fun k => (res t (t.active i.guard) k).val)
        (fun k => (res t (t.active i.guard) k).mark) (fun k => (res t (t.active i.guard) k).flags)) := by
  simp only [regOp, h.1, h.2, lanesWhere_eq_zero.2 hd, lanesWhere_eq_zero.2 hc, ne_eq, not_true, if_false,
    State.wrote]

/-- A register instruction that reads a mark where none may be raises the domain trap. -/
theorem regOp_domain {i : Instr} {d : Opnd} {w64 : Bool} {dom : Thread → Nat → Bool} {cause : Nat}
    {chk : Thread → Nat → Bool} {res : Thread → Mask → Nat → LaneRes} {s : State} {t : Thread}
    (h : s.atSlot t i) (hd : ∃ k < 32, bit (t.active i.guard) k = true ∧ dom t k = true) :
    regOp i d w64 dom cause chk res s = .next (s.trapCur causeDomain (t.active i.guard) 0 0) := by
  simp only [regOp, h.1, h.2, lanesWhere_ne_zero.2 hd, ne_eq, not_false_iff, if_true]

/-- A register instruction that fails its own check raises that check's cause. -/
theorem regOp_check {i : Instr} {d : Opnd} {w64 : Bool} {dom : Thread → Nat → Bool} {cause : Nat}
    {chk : Thread → Nat → Bool} {res : Thread → Mask → Nat → LaneRes} {s : State} {t : Thread}
    (h : s.atSlot t i) (hd : ∀ k < 32, bit (t.active i.guard) k = true → dom t k = false)
    (hc : ∃ k < 32, bit (t.active i.guard) k = true ∧ chk t k = true) :
    regOp i d w64 dom cause chk res s = .next (s.trapCur cause (t.active i.guard) 0 0) := by
  simp only [regOp, h.1, h.2, lanesWhere_eq_zero.2 hd, lanesWhere_ne_zero.2 hc, ne_eq, not_true, not_false_iff,
    if_false, if_true]

/-- A register instruction without a check of its own that passes the domain check writes its results. -/
theorem vecOp_next {i : Instr} {d : Opnd} {w64 : Bool} {dom : Thread → Nat → Bool} {res : Thread → Nat → LaneRes}
    {s : State} {t : Thread} (h : s.atSlot t i)
    (hd : ∀ k < 32, bit (t.active i.guard) k = true → dom t k = false) :
    vecOp i d w64 dom res s =
      .next (s.wrote t i d w64 (fun k => (res t k).val) (fun k => (res t k).mark) (fun k => (res t k).flags)) :=
  regOp_next h hd (fun _ _ _ => rfl)

/-- An instruction that writes predicates and passes the domain check writes them. -/
theorem predOp_next {i : Instr} {pt pf : Pred} {dom : Thread → Nat → Bool} {flags : Thread → Nat → BitVec 6}
    {f : Thread → Mask → Nat → Bool} {s : State} {t : Thread} (h : s.atSlot t i)
    (hd : ∀ k < 32, bit (t.active i.guard) k = true → dom t k = false) :
    predOp i pt pf dom flags f s = .next (s.decided t i pt pf (f t (t.active i.guard)) (flags t)) := by
  simp only [predOp, h.1, h.2, lanesWhere_eq_zero.2 hd, ne_eq, not_true, if_false, State.decided]

/-- An instruction that writes predicates and reads a mark where none may be raises the domain trap. -/
theorem predOp_domain {i : Instr} {pt pf : Pred} {dom : Thread → Nat → Bool} {flags : Thread → Nat → BitVec 6}
    {f : Thread → Mask → Nat → Bool} {s : State} {t : Thread} (h : s.atSlot t i)
    (hd : ∃ k < 32, bit (t.active i.guard) k = true ∧ dom t k = true) :
    predOp i pt pf dom flags f s = .next (s.trapCur causeDomain (t.active i.guard) 0 0) := by
  simp only [predOp, h.1, h.2, lanesWhere_ne_zero.2 hd, ne_eq, not_false_iff, if_true]

/-- No mark in the active lanes, as the frames check it. -/
theorem anyMarked_clean {t : Thread} {g : Guard} {os : List Opnd} (h : t.clean g false os) :
    ∀ k < 32, bit (t.active g) k = true → anyMarked os t k = false := by
  intro k hk ha
  simpa [anyMarked] using fun o ho => h k hk ha o ho

end Sys2Proof.Machine
end

