-- ==== Sys2Proof/Laws/Slots.lean ====
section
/-!
SUPPORT. What each shared frame of the instructions and of the commands answers, case by case: the control transfers,
the memory instructions, the instructions that act once per ray, those of a stream, the system instructions and the
commands of the supervisor core. A prover cites these and need not unfold a frame.
-/
namespace Sys2Proof.Machine

/-! ### Who executes -/

/-- The ray that executes, as the frames read it. -/
theorem State.executes.curRay {s : State} {core rslot : Nat} {r : Ray} (h : s.executes core rslot r) :
    s.curRay = some (core, rslot, r) := by
  simp [State.curRay, h.1, h.2]

/-- Its registers. -/
theorem State.executes.curThread {s : State} {core rslot : Nat} {r : Ray} (h : s.executes core rslot r) :
    s.curThread = some r.th := by
  simp [State.curThread, h.1, h.2]

/-- With no register pending the ray stands at any of its instructions. -/
theorem State.executes.atSlot {s : State} {core rslot : Nat} {r : Ray} {i : Instr} (h : s.executes core rslot r)
    (hw : s.tokenWait i = none) : s.atSlot r.th i := ⟨h.curThread, hw⟩

/-- The stream that executes, as the frames read it. -/
theorem curStream_eq {s : State} {cl : Nat} {x : Stream} (hc : s.cur = .stream cl)
    (hx : (s.cluster cl).stream = some x) : s.curStream = some (cl, x) := by
  simp [State.curStream, hc, hx]

/-- Its registers. -/
theorem curThread_stream {s : State} {cl : Nat} {x : Stream} (hc : s.cur = .stream cl)
    (hx : (s.cluster cl).stream = some x) : s.curThread = some x.th := by
  simp [State.curThread, hc, hx]

/-! ### Taking a trap and ending a slot -/

/-- A precise trap of a resident ray: parked at its point, its reservations lost, its quarter pipe and its places of the fork queue
free, and the event raised (R185, R209, R379, R380). -/
theorem takeTrap_eq {s : State} {core rslot : Nat} {r : Ray} {why : ParkReason} {t : TrapInfo}
    (h : s.ray core rslot = some r) :
    s.takeTrap core rslot why t =
      (s.dropPlaces core [rslot]).setCore core (Core.raise { s.core core with
        rays := SMap.put (s.core core).rays rslot { r with parked := some why, resv := [], stall := none, unresolved := [] }
        pipes := (s.core core).freePipeOf r.pipe rslot }
          (eventRec (s.ctxOf r.l) rslot r.rayId r.role false 1 t.slot t.cause t.info t.pc t.lanes t.detail)) := by
  simp [State.takeTrap, h, State.dropPlaces, State.updCluster, State.setCluster, State.cluster, State.queueEvent, State.updCore,
    State.ctxOf, State.launch, State.setCore, State.core]

/-- A run-time trap of the ray that executes, inside its clause. -/
theorem trapCur_ray {s : State} {core rslot : Nat} {r : Ray} {c : Clause} {cause detail info : Nat} {lanes : Mask}
    (h : s.executes core rslot r) (hc : r.th.clause = some c) :
    s.trapCur cause lanes detail info =
      s.takeTrap core rslot .runTrap ⟨cause, c.next + 1, c.pc, lanes, detail, info⟩ := by
  simp [State.trapCur, h.1, h.2, hc]

/-- A run-time trap of the stream that executes: its fault (R216, R218). -/
theorem trapCur_stream {s : State} {cl : Nat} {x : Stream} {cause detail info : Nat} {lanes : Mask}
    (hc : s.cur = .stream cl) (hx : (s.cluster cl).stream = some x) :
    s.trapCur cause lanes detail info = s.streamFault cl (statusOf cause) x.th.pcNow := by
  simp only [State.trapCur, hc, hx]
  rfl

/-- The end of a slot of a ray that goes on in its clause: its registers, and the clocks its next slot waits for (R245, R256). -/
theorem finishSlot_ray {s : State} {core rslot : Nat} {r : Ray} {t : Thread} (h : s.executes core rslot r) :
    s.finishSlot t =
      (let u := s.setRay core rslot { r with
        th := t, stall := none, unresolved := [], frontier := if r.th.live &&& ~~~t.live = 0 ∨ s.frontierDue r then r.frontier else 0
        slotEnd := s.clock + r.quarters t.entering }
       if t.clauseOver then u.endClause core rslot else u) := by
  simp [State.finishSlot, h.1, h.2]

/-! ### Control transfers -/

/-- A control transfer that passes its checks changes the registers past the slot. -/
theorem control_next {i : Instr} {dom : Thread → Nat → Bool} {chks : List (Nat × (Thread → Nat → Bool))}
    {f : Thread → Thread → Mask → Thread} {s : State} {t : Thread} (h : s.atSlot t i)
    (hd : ∀ k < 32, bit (t.active i.guard) k = true → dom t k = false)
    (hc : ∀ p ∈ chks, ∀ k < 32, bit (t.active i.guard) k = true → p.2 t k = false) :
    Machine.control i dom chks f s = .next (s.finishSlot (f t (t.past i) (t.active i.guard))) := by
  have hn : (chks.find? fun (_, c) => lanesWhere (t.active i.guard) (c t) != 0) = none := by
    rw [List.find?_eq_none]
    rintro ⟨c, p⟩ hp
    simp [lanesWhere_eq_zero.2 (hc _ hp)]
  simp only [Machine.control, h.1, h.2, lanesWhere_eq_zero.2 hd, ne_eq, not_true, if_false, Thread.past, hn]

/-- A control transfer whose register operand is marked in an active lane raises the domain trap. -/
theorem control_domain {i : Instr} {dom : Thread → Nat → Bool} {chks : List (Nat × (Thread → Nat → Bool))}
    {f : Thread → Thread → Mask → Thread} {s : State} {t : Thread} (h : s.atSlot t i)
    (hd : ∃ k < 32, bit (t.active i.guard) k = true ∧ dom t k = true) :
    Machine.control i dom chks f s = .next (s.trapCur causeDomain (t.active i.guard) 0 0) := by
  simp only [Machine.control, h.1, h.2, lanesWhere_ne_zero.2 hd, ne_eq, not_false_iff, if_true]

/-- A control transfer that fails its first check raises that check's cause. -/
theorem control_check {i : Instr} {dom : Thread → Nat → Bool} {cause : Nat} {c : Thread → Nat → Bool}
    {chks : List (Nat × (Thread → Nat → Bool))} {f : Thread → Thread → Mask → Thread} {s : State} {t : Thread}
    (h : s.atSlot t i) (hd : ∀ k < 32, bit (t.active i.guard) k = true → dom t k = false)
    (hc : ∃ k < 32, bit (t.active i.guard) k = true ∧ c t k = true) :
    Machine.control i dom ((cause, c) :: chks) f s = .next (s.trapCur cause (t.active i.guard) 0 0) := by
  have hn : (lanesWhere (t.active i.guard) (c t) != 0) = true := bne_iff_ne.2 (lanesWhere_ne_zero.2 hc)
  simp only [Machine.control, h.1, h.2, lanesWhere_eq_zero.2 hd, ne_eq, not_true, if_false, List.find?_cons, hn]

/-! ### Instructions under a control word -/

/-- An instruction under a control word that passes its checks writes its results, which the lowest active lane's
word decides. -/
theorem ctlOp_next {i : Instr} {d a b : Opnd} {chks : List (Nat × (List Word → Bool))}
    {res : Thread → Mask → Word → Nat → LaneRes} {s : State} {t : Thread} (h : s.atSlot t i)
    (hd : t.clean i.guard false [a, b])
    (hc : ∀ p ∈ chks, p.2 ((lanesOf (t.active i.guard)).map (t.rd32 b)) = false) :
    let r := res t (t.active i.guard) (((lanesOf (t.active i.guard)).map (t.rd32 b)).headD 0)
    ctlOp i d a b chks res s =
      .next (s.wrote t i d false (fun k => (r k).val) (fun k => (r k).mark) (fun k => (r k).flags)) := by
  have hn : (chks.find? fun (_, f) => f ((lanesOf (t.active i.guard)).map (t.rd32 b))) = none := by
    rw [List.find?_eq_none]
    intro q hq
    simp only [hc q hq, Bool.false_eq_true, not_false_iff]
  simp only [ctlOp, h.1, h.2, lanesWhere_eq_zero.2 (anyMarked_clean hd), ne_eq, not_true, if_false, hn, State.wrote]

/-! ### Memory instructions -/

/-- A memory instruction with no active lane issues an operation that is over at once (R24). -/
theorem memOp_idle {f : MemForm} {dc : Option Nat} {d : Opnd} {data : Thread → Nat → BitVec 128}
    {kind : State → Ray → OpKind} {s : State} {core rslot : Nat} {r : Ray} (h : s.executes core rslot r)
    (hw : s.tokenWait f.i = none) (ha : r.th.active f.i.guard = 0) :
    memOp f dc d data kind s =
      .next (s.issueOp core rslot r f.i (s.newOp core rslot r f.i dc d 0 [] [] [] .empty)) := by
  simp [memOp, h.curRay, hw, ha]

/-- A memory instruction whose lanes all have their place issues the operation that captures its sources. -/
theorem memOp_go {f : MemForm} {dc : Option Nat} {d : Opnd} {data : Thread → Nat → BitVec 128}
    {kind : State → Ray → OpKind} {s : State} {core rslot : Nat} {r : Ray} {ps : List Place}
    (h : s.executes core rslot r) (hw : s.tokenWait f.i = none) (ha : r.th.active f.i.guard ≠ 0)
    (hi : s.memIssue core r f (r.th.active f.i.guard) = .go ps) :
    memOp f dc d data kind s =
      .next (s.issueOp core rslot r f.i (s.newOp core rslot r f.i dc d (r.th.active f.i.guard)
        (laneTab fun k => f.ea r.th k) ps (laneTab fun k => data r.th k) (kind s r))) := by
  simp only [memOp, h.curRay, hw, if_neg ha, hi]

/-- A memory instruction that fails a check raises the check's precise trap, with the lowest failing address where the
cause is one of addresses (R164, R380). -/
theorem memOp_trap {f : MemForm} {dc : Option Nat} {d : Opnd} {data : Thread → Nat → BitVec 128}
    {kind : State → Ray → OpKind} {s : State} {core rslot : Nat} {r : Ray} {c : Nat} {ls : Mask}
    (h : s.executes core rslot r) (hw : s.tokenWait f.i = none) (ha : r.th.active f.i.guard ≠ 0)
    (hi : s.memIssue core r f (r.th.active f.i.guard) = .trap c ls) :
    memOp f dc d data kind s =
      .next (s.trapCur c ls (if 0x30 ≤ c ∧ c ≤ 0x33 then lowestEa f r.th ls else 0) 0) := by
  simp only [memOp, h.curRay, hw, if_neg ha, hi]

/-- A memory instruction whose translation misses asks for a walk and waits (R172, R273). -/
theorem memOp_miss {f : MemForm} {dc : Option Nat} {d : Opnd} {data : Thread → Nat → BitVec 128}
    {kind : State → Ray → OpKind} {s : State} {core rslot : Nat} {r : Ray} {va : Nat}
    (h : s.executes core rslot r) (hw : s.tokenWait f.i = none) (ha : r.th.active f.i.guard ≠ 0)
    (hi : s.memIssue core r f (r.th.active f.i.guard) = .miss va) :
    memOp f dc d data kind s = .next (s.askWalk core rslot va (f.store || f.writes)) := by
  simp only [memOp, h.curRay, hw, if_neg ha, hi]

/-- A memory instruction with a pending register waits for it (R20). -/
theorem memOp_token {f : MemForm} {dc : Option Nat} {d : Opnd} {data : Thread → Nat → BitVec 128}
    {kind : State → Ray → OpKind} {s : State} {core rslot q : Nat} {r : Ray} (h : s.executes core rslot r)
    (hw : s.tokenWait f.i = some q) : memOp f dc d data kind s = .next (s.stallSlot (.token q)) := by
  simp [memOp, h.curRay, hw]

/-! ### Instructions that act once per ray -/

/-- With no active lane they only pass. -/
theorem rayOp_idle {i : Instr} {marks : List (Opnd × Bool)} {plan : State → Nat → Nat → Ray → Nat → Except Nat State}
    {s : State} {core rslot : Nat} {r : Ray} (h : s.executes core rslot r) (hw : s.tokenWait i = none)
    (ha : lowest (r.th.active i.guard) = none) : rayOp i marks plan s = .next (s.finishSlot (r.th.past i)) := by
  simp [rayOp, h.curRay, hw, ha, Thread.past]

/-- Where a check fails they raise its cause with the active lanes. -/
theorem rayOp_error {i : Instr} {marks : List (Opnd × Bool)} {plan : State → Nat → Nat → Ray → Nat → Except Nat State}
    {s : State} {core rslot k0 c : Nat} {r : Ray} (h : s.executes core rslot r) (hw : s.tokenWait i = none)
    (ha : lowest (r.th.active i.guard) = some k0)
    (hm : ∀ k < 32, bit (r.th.active i.guard) k = true → (marks.any fun (o, w) => r.th.marked w o k) = false)
    (hp : plan s core rslot r k0 = .error c) :
    rayOp i marks plan s = .next (s.trapCur c (r.th.active i.guard) 0 0) := by
  simp only [rayOp, h.curRay, hw, ha, lanesWhere_eq_zero.2 hm, ne_eq, not_true, if_false, hp]

/-- Otherwise they make their state, and the slot is over. -/
theorem rayOp_next {i : Instr} {marks : List (Opnd × Bool)} {plan : State → Nat → Nat → Ray → Nat → Except Nat State}
    {s s1 : State} {core rslot k0 : Nat} {r : Ray} {t : Thread} (h : s.executes core rslot r) (hw : s.tokenWait i = none)
    (ha : lowest (r.th.active i.guard) = some k0)
    (hm : ∀ k < 32, bit (r.th.active i.guard) k = true → (marks.any fun (o, w) => r.th.marked w o k) = false)
    (hp : plan s core rslot r k0 = .ok s1) (ht : s1.curThread = some t) :
    rayOp i marks plan s = .next (s1.finishSlot (t.past i)) := by
  simp only [rayOp, h.curRay, hw, ha, lanesWhere_eq_zero.2 hm, ne_eq, not_true, if_false, hp, ht, Thread.past]

/-- A copy instruction with no active lane issues an operation that is over at once (R197). -/
theorem copyOp_idle {i : Instr} {d a : Opnd} {dc : BitVec 3} {regs : List Nat} {marks : List Opnd}
    {plan : State → Nat → Ray → Nat → DWord → Except (Nat × DWord) Copy} {s : State} {core rslot : Nat} {r : Ray}
    (h : s.executes core rslot r) (hw : s.tokenWait i = none) (hp : r.pendingIn regs = none)
    (ha : lowest (r.th.active i.guard) = none) :
    copyOp i d a dc regs marks plan s =
      .next (s.issueOp core rslot r i (s.newOp core rslot r i (some dc.toNat) d 0 [] [] [] .empty)) := by
  simp [copyOp, h.curRay, hw, hp, ha]

/-- A copy instruction that passes its checks makes its tokens pending and 0, and its copy waits for acceptance. -/
theorem copyOp_go {i : Instr} {d a : Opnd} {dc : BitVec 3} {regs : List Nat} {marks : List Opnd}
    {plan : State → Nat → Ray → Nat → DWord → Except (Nat × DWord) Copy} {s : State} {core rslot k0 : Nat} {r : Ray}
    {cp : Copy} (h : s.executes core rslot r) (hw : s.tokenWait i = none) (hp : r.pendingIn regs = none)
    (ha : lowest (r.th.active i.guard) = some k0) (hr : s.copies core < 16)
    (hm : ∀ k < 32, bit (r.th.active i.guard) k = true → (marks.any fun o => r.th.marked true o k) = false)
    (hc : plan s core r k0 (r.th.rd64 false a k0) = .ok cp) :
    let toks := cp.tok :: cp.tok2.toList
    copyOp i d a dc regs marks plan s =
      .next (s.issueOp core rslot
        { r with
          th := { r.th with s := toks.foldl (fun m t => SMap.put m t 0) r.th.s }
          pend := r.pend ++ toks.filter fun t => !r.pend.contains t }
        i (s.newOp core rslot r i (some dc.toNat) d (r.th.active i.guard) (laneTab fun _ => r.th.rd64 false a k0) [] []
          (.copy cp))) := by
  simp only [copyOp, h.curRay, hw, hp, ha, if_neg (Nat.not_le.2 hr), lanesWhere_eq_zero.2 hm, ne_eq, not_true, if_false,
    hc]

/-- An instruction on a scratchpad reference with no active lane issues an operation that is over at once (R24). -/
theorem refOp_idle {i : Instr} {a d : Opnd} {fields : DWord} {align : Nat} {dc : BitVec 3}
    {plan : State → Nat → Ray → Mask → DWord → Except Nat OpKind} {s : State} {core rslot : Nat} {r : Ray}
    (h : s.executes core rslot r) (hw : s.tokenWait i = none) (ha : lowest (r.th.active i.guard) = none) :
    refOp i a fields align dc d plan s =
      .next (s.issueOp core rslot r i (s.newOp core rslot r i (some dc.toNat) d 0 [] [] [] .empty)) := by
  simp [refOp, h.curRay, hw, ha]

/-- A drain with an active lane waits while its condition holds, and passes once it does not (R176, R177, R248). -/
theorem drain_eq {i : Instr} {wait : Core → Nat → Bool} {after : State → Nat → Nat → State} {s : State}
    {core rslot : Nat} {r : Ray} (h : s.executes core rslot r) :
    drain i wait after s =
      .next (if r.th.active i.guard = 0 then s.finishSlot (r.th.past i)
        else if wait (s.core core) rslot then s.stallSlot .drain
        else after (s.finishSlot (r.th.past i)) core rslot) := by
  simp only [drain, h.curRay, Thread.past]
  split <;> [rfl; (split <;> rfl)]

/-- A system instruction passes with no active lane, and has its effect with one (R389). -/
theorem systemOp_eq {g : Guard} {size : Nat} {f : State → Nat → Nat → Ray → Mask → State} {s : State} {core rslot : Nat}
    {r : Ray} (h : s.executes core rslot r) :
    systemOp g size f s =
      .next (if r.th.active g = 0 then s.finishSlot ((r.th.advance size).push Latch.zero)
        else f s core rslot r (r.th.active g)) := by
  simp only [systemOp, h.curRay]
  split <;> rfl

/-! ### Instructions of a stream -/

/-- With a false guard they only advance (R216). -/
theorem seqOp_idle {i : Instr} {plan : State → Nat → Stream → Except Nat State} {s : State} {cl : Nat} {x : Stream}
    (hc : s.cur = .stream cl) (hx : (s.cluster cl).stream = some x) (ha : x.th.active i.guard = 0) :
    seqOp i plan s = .next (s.finishSlot (x.th.past i)) := by
  simp [seqOp, curStream_eq hc hx, curThread_stream hc hx, ha, Thread.past]

/-- Where a check fails the stream ends with its STATUS (R217, R218). -/
theorem seqOp_error {i : Instr} {plan : State → Nat → Stream → Except Nat State} {s : State} {cl e : Nat} {x : Stream}
    (hc : s.cur = .stream cl) (hx : (s.cluster cl).stream = some x) (ha : x.th.active i.guard ≠ 0)
    (hp : plan s cl x = .error e) : seqOp i plan s = .next (s.streamFault cl e x.th.pcNow) := by
  simp only [seqOp, curStream_eq hc hx, if_neg ha, hp]

/-- Otherwise they have their effect and the stream goes on. -/
theorem seqOp_next {i : Instr} {plan : State → Nat → Stream → Except Nat State} {s s1 : State} {cl : Nat} {x : Stream}
    {t : Thread} (hc : s.cur = .stream cl) (hx : (s.cluster cl).stream = some x) (ha : x.th.active i.guard ≠ 0)
    (hp : plan s cl x = .ok s1) (ht : s1.curThread = some t) :
    seqOp i plan s = .next (s1.finishSlot (t.past i)) := by
  simp only [seqOp, curStream_eq hc hx, if_neg ha, hp, ht, Thread.past]

/-- A full command queue stalls the stream (R220). -/
theorem tileCmd_full {i : Instr} {scope : BitVec 3} {acq rel : Bool} {plan : State → Nat → Stream → Except Nat TileOp}
    {s : State} {cl : Nat} {x : Stream} (hc : s.cur = .stream cl) (hx : (s.cluster cl).stream = some x)
    (ha : x.th.active i.guard ≠ 0) (hq : 8 ≤ (s.cluster cl).cmds.length) : tileCmd i scope acq rel plan s = .next s := by
  simp only [tileCmd, curStream_eq hc hx, if_pos (And.intro ha hq)]

/-! ### Commands and events -/

/-- A command of the supervisor core on a ray that meets what it needs (R385). -/
theorem raycmd_next {core rslot : Nat} {needs : Ray → Bool} {f : State → Ray → State} {s : State} {r : Ray}
    (hr : s.ray core rslot = some r) (hn : needs r = true) :
    raycmd core rslot needs f s = .next (f (s.updCore core fun c => { c with refused := false }) r) := by
  simp [raycmd, hr, hn]

/-- On one that does not, or on no ray, it sets REFUSED and changes nothing else (R385). -/
theorem raycmd_refused {core rslot : Nat} {needs : Ray → Bool} {f : State → Ray → State} {s : State}
    (h : ∀ r, s.ray core rslot = some r → needs r = false) :
    raycmd core rslot needs f s = .next (s.updCore core fun c => { c with refused := true }) := by
  unfold raycmd
  split
  · rw [h _ ‹_›]; rfl
  · rfl

/-- An event of the page pipeline on an entry in its state. -/
theorem onEntry_next {l pos : Nat} {st : EntryState → Bool} {f : State → Launch → Entry → State} {s : State} {x : Launch}
    {e : Entry} (h : s.entry l pos = some (x, e)) (he : st e.state = true) : onEntry l pos st f s = .next (f s x e) := by
  simp [onEntry, h, he]

/-- On an entry in another state, or on none, it does nothing. -/
theorem onEntry_none {l pos : Nat} {st : EntryState → Bool} {f : State → Launch → Entry → State} {s : State}
    (h : ∀ x e, s.entry l pos = some (x, e) → st e.state = false) : onEntry l pos st f s = .next s := by
  unfold onEntry
  split
  · rw [h _ _ ‹_›]; rfl
  · rfl

/-- A command of the host that is accepted runs and ends with the status it answers (R398). -/
theorem command_runs {op : Nat} {pf0 recovery : Bool} {fn : Nat} {blk : DWord} {f : State → Block → State × Nat} {s : State}
    (hb : (s.fnOf fn).busy = false) (ha : blk.toNat % 64 = 0) (ht : s.answers fn = true)
    (ho : (s.block blk.toNat).op = op) (hp : pf0 = false ∨ fn = 0)
    (hm : s.module.boot ≠ .rom ∧ s.module.boot ≠ .failed ∧ s.module.tripped = false ∧
      (s.module.boot = .recovery → recovery = true)) (hc : (s.block blk.toNat).clean = true) :
    command op pf0 recovery fn blk f s =
      let p := f (s.updFn fn fun x => { x with cmdAddr := blk.toNat }) (s.block blk.toNat)
      .next (p.1.endCmd fn blk.toNat p.2) := by
  have h1 : (pf0 && fn != 0) = false := by rcases hp with h | h <;> simp [h]
  have h2 : (s.module.boot == .recovery && !recovery) = false := by
    cases hr : decide (s.module.boot = .recovery) <;> simp_all
  simp only [command]
  rw [if_neg (by simp [hb, ha, ho, ht]), h1, if_neg (by simp), if_neg (by simp [hm, h2]), hc]
  simp

end Sys2Proof.Machine
end

