-- ==== Sys2Proof/Tests/Slice0.lean ====
section
/-!
SUPPORT. The model's own tests: words of the spec's encodings that decode to their instructions, ill-formed terms that
the check refuses, single steps whose results the spec gives, and for each statement that has hypotheses a state and
operands that meet them.
-/
namespace Sys2Proof.Tests
open Sys2Proof Sys2Proof.Machine Sys2Proof.Claims

-- One theorem at a time: kernel evaluations that wait for each other would each hold a thread.
set_option Elab.async false

/-- Every row's words decode to its instruction, which takes them all. -/
def decodes (rows : List (List Word × Instr)) : Bool :=
  rows.all fun (ws, i) => match decode ws with
    | .ok (j, n) => j == i && n == ws.length
    | .error _ => false

/-! ### Decoding (R96 to R103, R105, R107) -/

/-- R99 to R102, R105: the primary opcodes from 0x00: words from the maps and formats of the spec, and the instruction each is. -/
theorem test_decode_primary00 : decodes [
  ([0b0000000_1010_0000001_0000010_1100011#32], .iaddS32 ⟨true, 2⟩ (.v 1) (.v 2) (.s 3)),
  ([0b0000001_1010_0000001_0000010_1100011#32], .isubS32 ⟨true, 2⟩ (.v 1) (.v 2) (.s 3)),
  ([0b0000010_1010_0000001_0000010_1100011#32], .iaddS64 ⟨true, 2⟩ (.v 1) (.v 2) (.s 3)),
  ([0b0000011_1010_0000001_0000010_1100011#32], .isubS64 ⟨true, 2⟩ (.v 1) (.v 2) (.s 3)),
  ([0b0000100_1010_0000001_0000010_1100011#32], .imulS32 ⟨true, 2⟩ (.v 1) (.v 2) (.s 3)),
  ([0b0000101_1010_0000001_0000010_1100011#32], .imulhiS32 ⟨true, 2⟩ (.v 1) (.v 2) (.s 3)),
  ([0b0000110_1010_0000001_0000010_1100011#32], .imulhiZ32 ⟨true, 2⟩ (.v 1) (.v 2) (.s 3)),
  ([0b0000111_1010_0000001_0000010_1100011#32], .imadS32 ⟨true, 2⟩ (.v 1) (.v 2) (.s 3))] = true := by decide

/-- R99 to R102, R105: the primary opcodes from 0x08: words from the maps and formats of the spec, and the instruction each is. -/
theorem test_decode_primary08 : decodes [
  ([0b0001000_1010_0000001_0000010_1100011#32], .iminS32 ⟨true, 2⟩ (.v 1) (.v 2) (.s 3)),
  ([0b0001001_1010_0000001_0000010_1100011#32], .iminZ32 ⟨true, 2⟩ (.v 1) (.v 2) (.s 3)),
  ([0b0001010_1010_0000001_0000010_1100011#32], .imaxS32 ⟨true, 2⟩ (.v 1) (.v 2) (.s 3)),
  ([0b0001011_1010_0000001_0000010_1100011#32], .imaxZ32 ⟨true, 2⟩ (.v 1) (.v 2) (.s 3)),
  ([0b0001100_1010_0000001_0000010_1111100#32], .iabsS32 ⟨true, 2⟩ (.v 1) (.v 2)),
  ([0b0001101_1010_0000001_0000010_1100011#32], .imulwS32 ⟨true, 2⟩ (.v 1) (.v 2) (.s 3)),
  ([0b0001110_1010_0000001_0000010_1100011#32], .imulwZ32 ⟨true, 2⟩ (.v 1) (.v 2) (.s 3)),
  ([0b0001111_1010_0000001_0000010_1100011#32], .leaS64 ⟨true, 2⟩ (.v 1) (.v 2) (.s 3))] = true := by decide

/-- R99 to R102, R105: the primary opcodes from 0x10: words from the maps and formats of the spec, and the instruction each is. -/
theorem test_decode_primary10 : decodes [
  ([0b0010000_1010_0000001_0000010_1100011#32], .andZ32 ⟨true, 2⟩ (.v 1) (.v 2) (.s 3)),
  ([0b0010001_1010_0000001_0000010_1100011#32], .orZ32 ⟨true, 2⟩ (.v 1) (.v 2) (.s 3)),
  ([0b0010010_1010_0000001_0000010_1100011#32], .xorZ32 ⟨true, 2⟩ (.v 1) (.v 2) (.s 3)),
  ([0b0010011_1010_0000001_0000010_1100011#32], .andnZ32 ⟨true, 2⟩ (.v 1) (.v 2) (.s 3)),
  ([0b0010100_1010_0000001_0000010_1100011#32], .shlZ32 ⟨true, 2⟩ (.v 1) (.v 2) (.s 3)),
  ([0b0010100_1010_0000001_1111101_1111100#32, 0b11011110101011011011111011101111#32], .shlZ32 ⟨true, 2⟩ (.v 1) (.lit 0xDEADBEEF) .zero),
  ([0b0010101_1010_0000001_0000010_1100011#32], .shrZ32 ⟨true, 2⟩ (.v 1) (.v 2) (.s 3)),
  ([0b0010110_1010_0000001_0000010_1100011#32], .shrS32 ⟨true, 2⟩ (.v 1) (.v 2) (.s 3)),
  ([0b0010111_1010_0000001_0000010_1100011#32], .rotZ32 ⟨true, 2⟩ (.v 1) (.v 2) (.s 3))] = true := by decide

/-- R99 to R102, R105: the primary opcodes from 0x18: words from the maps and formats of the spec, and the instruction each is. -/
theorem test_decode_primary18 : decodes [
  ([0b0011000_1010_0000001_0000010_1111100#32], .popcZ32 ⟨true, 2⟩ (.v 1) (.v 2)),
  ([0b0011001_1010_0000001_0000010_1111100#32], .clzZ32 ⟨true, 2⟩ (.v 1) (.v 2)),
  ([0b0011010_1010_0000001_0000010_1111100#32], .brevZ32 ⟨true, 2⟩ (.v 1) (.v 2)),
  ([0b0011011_1010_0000001_0000010_1100011#32], .bfeZ32 ⟨true, 2⟩ (.v 1) (.v 2) (.s 3)),
  ([0b0011100_1010_0000001_0000010_1100011#32], .bfeS32 ⟨true, 2⟩ (.v 1) (.v 2) (.s 3)),
  ([0b0011101_1010_0000001_0000010_1100011#32], .bfiZ32 ⟨true, 2⟩ (.v 1) (.v 2) (.s 3)),
  ([0b0011110_1010_0000001_0000010_1111100#32], .movZ32 ⟨true, 2⟩ (.v 1) (.v 2)),
  ([0b0011111_1010_0000001_0000010_1111100#32], .movZ64 ⟨true, 2⟩ (.v 1) (.v 2))] = true := by decide

/-- R99 to R102, R105: the primary opcodes from 0x20: words from the maps and formats of the spec, and the instruction each is. -/
theorem test_decode_primary20 : decodes [
  ([0b0100000_1010_001_010_0_0000010_1100011#32], .icmpEqZ32 ⟨true, 2⟩ 1 2 (.v 2) (.s 3)),
  ([0b0100001_1010_001_010_0_0000010_1100011#32], .icmpLtS32 ⟨true, 2⟩ 1 2 (.v 2) (.s 3)),
  ([0b0100010_1010_001_010_0_0000010_1100011#32], .icmpLeS32 ⟨true, 2⟩ 1 2 (.v 2) (.s 3)),
  ([0b0100011_1010_001_010_0_0000010_1100011#32], .icmpLtZ32 ⟨true, 2⟩ 1 2 (.v 2) (.s 3)),
  ([0b0100100_1010_001_010_0_0000010_1100011#32], .icmpLeZ32 ⟨true, 2⟩ 1 2 (.v 2) (.s 3)),
  ([0b0100101_1010_001_010_0_011_100_0000_0110#32], .plop ⟨true, 2⟩ 1 2 3 4 6),
  ([0b0100110_1010_001_010_0_011_1_000_1111100#32], .voteAny ⟨true, 2⟩ 1 2 3 true),
  ([0b0100111_1010_001_010_0_011_1_000_1111100#32], .voteAll ⟨true, 2⟩ 1 2 3 true)] = true := by decide

/-- R99 to R102, R105: the primary opcodes from 0x28: words from the maps and formats of the spec, and the instruction each is. -/
theorem test_decode_primary28 : decodes [
  ([0b0101000_1010_0000001_011_1_000_1111100#32], .ballot ⟨true, 2⟩ (.v 1) 3 true),
  ([0b0101001_1010_0000001_0000010_1100011#32], .shflIdx ⟨true, 2⟩ (.v 1) (.v 2) (.s 3)),
  ([0b0101010_1010_0000001_0000010_1100011#32], .shflUp ⟨true, 2⟩ (.v 1) (.v 2) (.s 3)),
  ([0b0101011_1010_0000001_0000010_1100011#32], .shflDn ⟨true, 2⟩ (.v 1) (.v 2) (.s 3)),
  ([0b0101100_1010_0000001_0000010_1100011#32], .shflXor ⟨true, 2⟩ (.v 1) (.v 2) (.s 3)),
  ([0b0101101_1010_0000001_0000010_1111100#32], .iredaddS32 ⟨true, 2⟩ (.v 1) (.v 2)),
  ([0b0101110_1010_0000001_0000010_1111100#32], .iredminS32 ⟨true, 2⟩ (.v 1) (.v 2)),
  ([0b0101111_1010_0000001_0000010_1111100#32], .iredmaxS32 ⟨true, 2⟩ (.v 1) (.v 2))] = true := by decide

/-- R99 to R102, R105: the primary opcodes from 0x30: words from the maps and formats of the spec, and the instruction each is. -/
theorem test_decode_primary30 : decodes [
  ([0b0110000_1010_0000001_0000010_1100011#32], .faddF32 ⟨true, 2⟩ (.v 1) (.v 2) (.s 3)),
  ([0b0110001_1010_0000001_0000010_1100011#32], .fsubF32 ⟨true, 2⟩ (.v 1) (.v 2) (.s 3)),
  ([0b0110010_1010_0000001_0000010_1100011#32], .fmulF32 ⟨true, 2⟩ (.v 1) (.v 2) (.s 3)),
  ([0b0110011_1010_0000001_0000010_1100011#32], .ffmaF32 ⟨true, 2⟩ (.v 1) (.v 2) (.s 3)),
  ([0b0110100_1010_0000001_0000010_1100011#32], .fminF32 ⟨true, 2⟩ (.v 1) (.v 2) (.s 3)),
  ([0b0110101_1010_0000001_0000010_1100011#32], .fmaxF32 ⟨true, 2⟩ (.v 1) (.v 2) (.s 3)),
  ([0b0110110_1010_0000001_0000010_1111100#32], .fabsF32 ⟨true, 2⟩ (.v 1) (.v 2)),
  ([0b0110111_1010_0000001_0000010_1111100#32], .fnegF32 ⟨true, 2⟩ (.v 1) (.v 2))] = true := by decide

/-- R99 to R102, R105: the primary opcodes from 0x38: words from the maps and formats of the spec, and the instruction each is. -/
theorem test_decode_primary38 : decodes [
  ([0b0111000_1010_0000001_0000010_1100011#32], .faddF16x2 ⟨true, 2⟩ (.v 1) (.v 2) (.s 3)),
  ([0b0111001_1010_0000001_0000010_1100011#32], .fsubF16x2 ⟨true, 2⟩ (.v 1) (.v 2) (.s 3)),
  ([0b0111010_1010_0000001_0000010_1100011#32], .fmulF16x2 ⟨true, 2⟩ (.v 1) (.v 2) (.s 3)),
  ([0b0111011_1010_0000001_0000010_1100011#32], .ffmaF16x2 ⟨true, 2⟩ (.v 1) (.v 2) (.s 3)),
  ([0b0111100_1010_0000001_0000010_1100011#32], .faddBf16x2 ⟨true, 2⟩ (.v 1) (.v 2) (.s 3)),
  ([0b0111101_1010_0000001_0000010_1100011#32], .fsubBf16x2 ⟨true, 2⟩ (.v 1) (.v 2) (.s 3)),
  ([0b0111110_1010_0000001_0000010_1100011#32], .fmulBf16x2 ⟨true, 2⟩ (.v 1) (.v 2) (.s 3)),
  ([0b0111111_1010_0000001_0000010_1100011#32], .ffmaBf16x2 ⟨true, 2⟩ (.v 1) (.v 2) (.s 3))] = true := by decide

/-- R99 to R102, R105: the primary opcodes from 0x40: words from the maps and formats of the spec, and the instruction each is. -/
theorem test_decode_primary40 : decodes [
  ([0b1000000_1010_001_010_0_0000010_1100011#32], .fcmpEqF32 ⟨true, 2⟩ 1 2 (.v 2) (.s 3)),
  ([0b1000001_1010_001_010_0_0000010_1100011#32], .fcmpLtF32 ⟨true, 2⟩ 1 2 (.v 2) (.s 3)),
  ([0b1000010_1010_001_010_0_0000010_1100011#32], .fcmpLeF32 ⟨true, 2⟩ 1 2 (.v 2) (.s 3)),
  ([0b1000011_1010_001_010_0_0000010_1100011#32], .fcmpUnF32 ⟨true, 2⟩ 1 2 (.v 2) (.s 3)),
  ([0b1000100_1010_0000001_0000010_1111100#32], .fredaddF32 ⟨true, 2⟩ (.v 1) (.v 2)),
  ([0b1000101_1010_0000001_0000010_1111100#32], .fredminF32 ⟨true, 2⟩ (.v 1) (.v 2)),
  ([0b1000110_1010_0000001_0000010_1111100#32], .fredmaxF32 ⟨true, 2⟩ (.v 1) (.v 2)),
  ([0b1000111_1010_0000001_0000010_1100011#32], .fdivF32 ⟨true, 2⟩ (.v 1) (.v 2) (.s 3))] = true := by decide

/-- R99 to R102, R105: the primary opcodes from 0x48: words from the maps and formats of the spec, and the instruction each is. -/
theorem test_decode_primary48 : decodes [
  ([0b1001000_1010_0000001_0000010_1100011#32], .iaddS16x2 ⟨true, 2⟩ (.v 1) (.v 2) (.s 3)),
  ([0b1001001_1010_0000001_0000010_1100011#32], .isubS16x2 ⟨true, 2⟩ (.v 1) (.v 2) (.s 3)),
  ([0b1001010_1010_0000001_0000010_1100011#32], .iaddsS16x2 ⟨true, 2⟩ (.v 1) (.v 2) (.s 3)),
  ([0b1001011_1010_0000001_0000010_1100011#32], .isubsS16x2 ⟨true, 2⟩ (.v 1) (.v 2) (.s 3)),
  ([0b1001100_1010_0000001_0000010_1100011#32], .iaddsZ16x2 ⟨true, 2⟩ (.v 1) (.v 2) (.s 3)),
  ([0b1001101_1010_0000001_0000010_1100011#32], .isubsZ16x2 ⟨true, 2⟩ (.v 1) (.v 2) (.s 3)),
  ([0b1001110_1010_0000001_0000010_1100011#32], .imulS16x2 ⟨true, 2⟩ (.v 1) (.v 2) (.s 3)),
  ([0b1001111_1010_0000001_0000010_1100011#32], .imadS16x2 ⟨true, 2⟩ (.v 1) (.v 2) (.s 3))] = true := by decide

/-- R99 to R102, R105: the primary opcodes from 0x50: words from the maps and formats of the spec, and the instruction each is. -/
theorem test_decode_primary50 : decodes [
  ([0b1010000_1010_0000001_0000010_1100011#32], .iminS16x2 ⟨true, 2⟩ (.v 1) (.v 2) (.s 3)),
  ([0b1010001_1010_0000001_0000010_1100011#32], .imaxS16x2 ⟨true, 2⟩ (.v 1) (.v 2) (.s 3)),
  ([0b1010010_1010_0000001_0000010_1100011#32], .iminZ16x2 ⟨true, 2⟩ (.v 1) (.v 2) (.s 3)),
  ([0b1010011_1010_0000001_0000010_1100011#32], .imaxZ16x2 ⟨true, 2⟩ (.v 1) (.v 2) (.s 3)),
  ([0b1010100_1010_0000001_0000010_1111100#32], .iabsS16x2 ⟨true, 2⟩ (.v 1) (.v 2)),
  ([0b1010101_1010_0000001_0000010_1100011#32], .sadZ8x4 ⟨true, 2⟩ (.v 1) (.v 2) (.s 3)),
  ([0b1010110_1010_0000001_0000010_1100011#32], .sadZ16x2 ⟨true, 2⟩ (.v 1) (.v 2) (.s 3)),
  ([0b1010111_1010_0000001_0000010_1100011#32], .dotS16x2 ⟨true, 2⟩ (.v 1) (.v 2) (.s 3))] = true := by decide

/-- R99 to R102, R105: the primary opcodes from 0x58: words from the maps and formats of the spec, and the instruction each is. -/
theorem test_decode_primary58 : decodes [
  ([0b1011000_1010_0000001_0000010_1111100#32], .frcpF32 ⟨true, 2⟩ (.v 1) (.v 2)),
  ([0b1011001_1010_0000001_0000010_1111100#32], .frsqF32 ⟨true, 2⟩ (.v 1) (.v 2)),
  ([0b1011010_1010_0000001_0000010_1111100#32], .fsqrtF32 ⟨true, 2⟩ (.v 1) (.v 2)),
  ([0b1011011_1010_0000001_0000010_1111100#32], .fexp2F32 ⟨true, 2⟩ (.v 1) (.v 2)),
  ([0b1011100_1010_0000001_0000010_1111100#32], .flog2F32 ⟨true, 2⟩ (.v 1) (.v 2)),
  ([0b1011101_1010_0000001_0000010_1111100#32], .fsinF32 ⟨true, 2⟩ (.v 1) (.v 2)),
  ([0b1011110_1010_0000001_0000010_1111100#32], .fcosF32 ⟨true, 2⟩ (.v 1) (.v 2)),
  ([0b1011111_1010_0000001_0000010_1111100#32], .ftanhF32 ⟨true, 2⟩ (.v 1) (.v 2))] = true := by decide

/-- R99 to R102, R105: the primary opcodes from 0x60: words from the maps and formats of the spec, and the instruction each is. -/
theorem test_decode_primary60 : decodes [
  ([0b1100000_1010_0000001_0000010_0100101#32], .cvt ⟨true, 2⟩ (.v 1) (.v 2) 37),
  ([0b1100001_1010_0000001_0000010_1100011#32], .quant ⟨true, 2⟩ (.v 1) (.v 2) (.s 3)),
  ([0b1100010_1010_0000001_0000010_1100011#32], .deq ⟨true, 2⟩ (.v 1) (.v 2) (.s 3)),
  ([0b1100011_1010_0000001_0000010_1100011#32], .pxunpack ⟨true, 2⟩ (.v 1) (.v 2) (.s 3)),
  ([0b1100100_1010_0000001_0000010_1100011#32], .pxpack ⟨true, 2⟩ (.v 1) (.v 2) (.s 3)),
  ([0b1100101_1010_0000001_0000010_1111100#32], .fgeluF32 ⟨true, 2⟩ (.v 1) (.v 2)),
  ([0b1100110_1010_0000001_0000010_1111100#32], .fsigmF32 ⟨true, 2⟩ (.v 1) (.v 2)),
  ([0b1100111_1010_0000001_0000010_1111100#32], .fexp2F16x2 ⟨true, 2⟩ (.v 1) (.v 2))] = true := by decide

/-- R99 to R102, R105: the primary opcodes from 0x68: words from the maps and formats of the spec, and the instruction each is. -/
theorem test_decode_primary68 : decodes [
  ([0b1101000_1010_111111111111111111101#32], .bra ⟨true, 2⟩ (BitVec.ofInt 21 (-3))),
  ([0b1101001_1010_111111111111111111101#32], .call ⟨true, 2⟩ (BitVec.ofInt 21 (-3))),
  ([0b1101010_1010_1111111_1111100_1111100#32], .ret ⟨true, 2⟩),
  ([0b1101011_1010_1111111_1111100_1111100#32], .exit ⟨true, 2⟩),
  ([0b1101100_1010_1111111_1111100_1111100#32], .yield ⟨true, 2⟩),
  ([0b1101101_1010_1111111_0000010_1111100#32], .brx ⟨true, 2⟩ (.v 2)),
  ([0b1101110_1010_1111111_0000010_1111100#32], .callx ⟨true, 2⟩ (.v 2)),
  ([0b1101111_1010_1111111_1111100_1111100#32], .lnret ⟨true, 2⟩)] = true := by decide

/-- R99 to R102, R105: the primary opcodes from 0x70: words from the maps and formats of the spec, and the instruction each is. -/
theorem test_decode_primary70 : decodes [
  ([0b1110000_1010_0000001_0000010_101_0110#32], .ldZ32 ⟨true, 2⟩ (.v 1) (.v 2) 5 (.scaled 6)),
  ([0b1110001_1010_0000001_0000010_101_0110#32], .ldZ64 ⟨true, 2⟩ (.v 1) (.v 2) 5 (.scaled 6)),
  ([0b1110010_1010_0000001_0000010_101_0110#32], .stZ32 ⟨true, 2⟩ (.v 1) (.v 2) 5 (.scaled 6)),
  ([0b1110010_1010_0000001_0000010_101_1111#32, 0b11111111111111111111111111110000#32], .stZ32 ⟨true, 2⟩ (.v 1) (.v 2) 5 (.lit 0xFFFFFFF0)),
  ([0b1110011_1010_0000001_0000010_101_0110#32], .stZ64 ⟨true, 2⟩ (.v 1) (.v 2) 5 (.scaled 6)),
  ([0b1110100_1010_0000001_0000010_101_0110#32], .ldroZ32 ⟨true, 2⟩ (.v 1) (.v 2) 5 (.scaled 6)),
  ([0b1110101_1010_0000001_0000010_101_0110#32], .ldroZ64 ⟨true, 2⟩ (.v 1) (.v 2) 5 (.scaled 6)),
  ([0b1110110_1010_0000001_0000010_101_0110#32], .stntZ32 ⟨true, 2⟩ (.v 1) (.v 2) 5 (.scaled 6)),
  ([0b1110111_1010_0000001_0000010_101_0110#32], .stntZ64 ⟨true, 2⟩ (.v 1) (.v 2) 5 (.scaled 6))] = true := by decide

/-- R99 to R102, R105: the primary opcodes from 0x78: words from the maps and formats of the spec, and the instruction each is. -/
theorem test_decode_primary78 : decodes [
  ([0b1111000_1010_0000001_0000010_101_0000#32], .ldt ⟨true, 2⟩ (.v 1) (.v 2) 5),
  ([0b1111001_1010_0000001_0000010_101_0000#32], .ldtC ⟨true, 2⟩ (.v 1) (.v 2) 5),
  ([0b1111010_1010_0000001_0000010_101_0000#32], .sth ⟨true, 2⟩ (.v 1) (.v 2) 5),
  ([0b1111011_1010_0000001_0000010_101_0110#32], .acq ⟨true, 2⟩ (.v 1) (.v 2) 5 (.scaled 6)),
  ([0b1111100_1010_0000001_0000010_101_0110#32], .rel ⟨true, 2⟩ (.v 1) (.v 2) 5 (.scaled 6)),
  ([0b1111101_1010_0000001_0001001_1111100#32], .mfs ⟨true, 2⟩ (.v 1) 9),
  ([0b1111110_1010_1111111_0101000_1100011#32], .mts ⟨true, 2⟩ 40 (.s 3))] = true := by decide

/-- R103, R107: the extended opcodes from 0x00: words from the maps and formats of the spec, and the instruction each is. -/
theorem test_decode_wide00 : decodes [
  ([0b1111111_1010_0000001_0000010_1100011#32, 0b00000000_1111100_00000000000000000#32], .idivS32 ⟨true, 2⟩ (.v 1) (.v 2) (.s 3)),
  ([0b1111111_1010_0000001_0000010_1100011#32, 0b00000001_1111100_00000000000000000#32], .idivZ32 ⟨true, 2⟩ (.v 1) (.v 2) (.s 3)),
  ([0b1111111_1010_0000001_0000010_1100011#32, 0b00000010_1111100_00000000000000000#32], .iremS32 ⟨true, 2⟩ (.v 1) (.v 2) (.s 3)),
  ([0b1111111_1010_0000001_0000010_1100011#32, 0b00000011_1111100_00000000000000000#32], .iremZ32 ⟨true, 2⟩ (.v 1) (.v 2) (.s 3)),
  ([0b1111111_1010_0000001_0000010_1100011#32, 0b00000100_1111100_00000000000010011#32], .sel ⟨true, 2⟩ (.v 1) (.v 2) (.s 3) true false 3),
  ([0b1111111_1010_001_010_0_0000010_1100011#32, 0b00000101_1111100_00000000000000010#32], .icmpS64 ⟨true, 2⟩ 1 2 (.v 2) (.s 3) 2),
  ([0b1111111_1010_001_010_0_0000010_1100011#32, 0b00000110_1111100_00000000000000001#32], .icmpZ64 ⟨true, 2⟩ 1 2 (.v 2) (.s 3) 1),
  ([0b1111111_1010_0000001_0000010_1100011#32, 0b00000111_0000101_00000000000000000#32], .iadd3S32 ⟨true, 2⟩ (.v 1) (.v 2) (.s 3) (.v 5))] = true := by decide

/-- R103, R107: the extended opcodes from 0x08: words from the maps and formats of the spec, and the instruction each is. -/
theorem test_decode_wide08 : decodes [
  ([0b1111111_1010_0000001_0000010_1100011#32, 0b00001000_1111100_00000000000000000#32], .shlZ64 ⟨true, 2⟩ (.v 1) (.v 2) (.s 3)),
  ([0b1111111_1010_0000001_0000010_1100011#32, 0b00001001_1111100_00000000000000000#32], .shrZ64 ⟨true, 2⟩ (.v 1) (.v 2) (.s 3)),
  ([0b1111111_1010_0000001_0000010_1100011#32, 0b00001010_1111100_00000000000000000#32], .shrS64 ⟨true, 2⟩ (.v 1) (.v 2) (.s 3)),
  ([0b1111111_1010_0000001_0000010_1100011#32, 0b00001011_1111100_00000000000000000#32], .andZ64 ⟨true, 2⟩ (.v 1) (.v 2) (.s 3)),
  ([0b1111111_1010_0000001_0000010_1100011#32, 0b00001100_1111100_00000000000000000#32], .orZ64 ⟨true, 2⟩ (.v 1) (.v 2) (.s 3)),
  ([0b1111111_1010_0000001_0000010_1100011#32, 0b00001101_1111100_00000000000000000#32], .xorZ64 ⟨true, 2⟩ (.v 1) (.v 2) (.s 3)),
  ([0b1111111_1010_0000001_0000010_1111100#32, 0b00001110_1111100_00000000000000000#32], .popcZ64 ⟨true, 2⟩ (.v 1) (.v 2)),
  ([0b1111111_1010_0000001_0000010_1111100#32, 0b00001111_1111100_00000000000000000#32], .clzZ64 ⟨true, 2⟩ (.v 1) (.v 2))] = true := by decide

/-- R103, R107: the extended opcodes from 0x10: words from the maps and formats of the spec, and the instruction each is. -/
theorem test_decode_wide10 : decodes [
  ([0b1111111_1010_0000001_0000010_1100011#32, 0b00010000_0000101_00000000000000000#32], .ffma3F32 ⟨true, 2⟩ (.v 1) (.v 2) (.s 3) (.v 5)),
  ([0b1111111_1010_0000001_0000010_1100011#32, 0b00010001_0000101_00000000000000000#32], .ffma3F16x2 ⟨true, 2⟩ (.v 1) (.v 2) (.s 3) (.v 5)),
  ([0b1111111_1010_0000001_0000010_1100011#32, 0b00010010_0000101_00000000000000000#32], .ffma3Bf16x2 ⟨true, 2⟩ (.v 1) (.v 2) (.s 3) (.v 5)),
  ([0b1111111_1010_0000001_0000010_1100011#32, 0b00010011_1111100_00000000000000001#32], .faddF32Rm ⟨true, 2⟩ (.v 1) (.v 2) (.s 3) 1),
  ([0b1111111_1010_0000001_0000010_1100011#32, 0b00010100_1111100_00000000000000011#32], .fmulF32Rm ⟨true, 2⟩ (.v 1) (.v 2) (.s 3) 3),
  ([0b1111111_1010_0000001_0000010_1100011#32, 0b00010101_0000101_00000000000000000#32], .dotsS16x2 ⟨true, 2⟩ (.v 1) (.v 2) (.s 3) (.v 5)),
  ([0b1111111_1010_001_010_0_0000010_1100011#32, 0b00010110_1111100_00000000000000110#32], .fcmpF16 ⟨true, 2⟩ 1 2 (.v 2) (.s 3) true 2),
  ([0b1111111_1010_001_010_0_0000010_1100011#32, 0b00010111_1111100_00000000000000001#32], .fcmpBf16 ⟨true, 2⟩ 1 2 (.v 2) (.s 3) false 1)] = true := by decide

/-- R103, R107: the extended opcodes from 0x18: words from the maps and formats of the spec, and the instruction each is. -/
theorem test_decode_wide18 : decodes [
  ([0b1111111_1010_0000001_0000010_1111100#32, 0b00011000_1111100_00010011010011011#32], .cvtWide ⟨true, 2⟩ (.v 1) (.v 2) 1 3 2 1 2 3)] = true := by decide

/-- R103, R107: the extended opcodes from 0x20: words from the maps and formats of the spec, and the instruction each is. -/
theorem test_decode_wide20 : decodes [
  ([0b1111111_1010_0000001_0000010_101_0110#32, 0b00100000_1111100_00000000000001011#32], .ldType ⟨true, 2⟩ (.v 1) (.v 2) 5 (.scaled 6) 1 3),
  ([0b1111111_1010_0000001_0000010_101_0110#32, 0b00100001_1111100_00000000000010110#32], .stType ⟨true, 2⟩ (.v 1) (.v 2) 5 (.scaled 6) 2 6),
  ([0b1111111_1010_0000001_0000010_101_0110#32, 0b00100010_0000101_00000001001010111#32], .atom ⟨true, 2⟩ (.v 1) (.v 2) 5 (.scaled 6) (.v 5) 4 5 7),
  ([0b1111111_1010_0000001_0000010_101_0110#32, 0b00100011_1111100_00000000000000001#32], .ldres ⟨true, 2⟩ (.v 1) (.v 2) 5 (.scaled 6) true),
  ([0b1111111_1010_0000001_0000010_101_0110#32, 0b00100100_0000101_00000000000000001#32], .stcon ⟨true, 2⟩ (.v 1) (.v 2) 5 (.scaled 6) (.v 5) true),
  ([0b1111111_1010_1111111_1111100_101_0000#32, 0b00100101_1111100_00000000000000100#32], .fence ⟨true, 2⟩ 5 4),
  ([0b1111111_1010_1111111_1111100_1111100#32, 0b00100110_1111100_00000000000000000#32], .drainnt ⟨true, 2⟩),
  ([0b1111111_1010_1111111_1111100_1111100#32, 0b00100111_1111100_00000000000000000#32], .drainst ⟨true, 2⟩)] = true := by decide

/-- R103, R107: the extended opcodes from 0x28: words from the maps and formats of the spec, and the instruction each is. -/
theorem test_decode_wide28 : decodes [
  ([0b1111111_1010_0000001_0000010_101_0000#32, 0b00101000_0000101_00000010001100000#32], .xcopyIn ⟨true, 2⟩ (.v 1) (.v 2) 5 (.v 5) false true 3),
  ([0b1111111_1010_0000001_0000010_101_0000#32, 0b00101000_0000101_00000001110010110#32], .xcopyOut ⟨true, 2⟩ (.v 1) (.v 2) 5 (.v 5) true 4 22),
  ([0b1111111_1010_0000001_0000010_101_0000#32, 0b00101001_0000101_00000010001100101#32], .xmcast ⟨true, 2⟩ (.v 1) (.v 2) 5 (.v 5) false true 3 5),
  ([0b1111111_1010_0000001_0000010_101_0000#32, 0b00101010_0000101_00000000000001010#32], .fread ⟨true, 2⟩ (.v 1) (.v 2) 5 (.v 5) true 2),
  ([0b1111111_1010_0000001_0000010_101_0000#32, 0b00101011_0000101_00000000000010110#32], .fwrite ⟨true, 2⟩ (.v 1) (.v 2) 5 (.v 5) 22),
  ([0b1111111_1010_0000001_0000010_1100011#32, 0b00101100_1111100_00000000000000001#32], .waitc ⟨true, 2⟩ (.v 1) (.v 2) (.s 3) true),
  ([0b1111111_1010_0000001_0000010_101_0000#32, 0b00101101_0000101_00000000000000000#32], .fork ⟨true, 2⟩ (.v 1) (.v 2) 5 (.v 5)),
  ([0b1111111_1010_0000001_0000010_101_0000#32, 0b00101110_1111100_00000000000000000#32], .join ⟨true, 2⟩ (.v 1) (.v 2) 5),
  ([0b1111111_1010_0000001_0000010_101_0000#32, 0b00101111_0000101_00000000000000000#32], .feed ⟨true, 2⟩ (.v 1) (.v 2) 5 (.v 5))] = true := by decide

/-- R103, R107: the extended opcodes from 0x30: words from the maps and formats of the spec, and the instruction each is. -/
theorem test_decode_wide30 : decodes [
  ([0b1111111_1010_0000001_1111100_1111100#32, 0b00110000_1111100_01110000101100011#32], .take ⟨true, 2⟩ (.v 1) 3 2 5 7),
  ([0b1111111_1010_1111111_0000010_1111100#32, 0b00110001_1111100_00000000000101000#32], .barInit ⟨true, 2⟩ (.v 2) 5),
  ([0b1111111_1010_1111111_1111100_1111100#32, 0b00110001_1111100_00000000000101001#32], .barArv ⟨true, 2⟩ 5),
  ([0b1111111_1010_0000001_1111100_1111100#32, 0b00110001_1111100_00000000000101010#32], .barAddr ⟨true, 2⟩ (.v 1) 5),
  ([0b1111111_1010_1111111_0000010_101_0000#32, 0b00110010_1111100_00000000000000000#32], .arrive ⟨true, 2⟩ (.v 2) 5),
  ([0b1111111_1010_0000001_0000010_101_0000#32, 0b00110011_1111100_00000000000000000#32], .bwait ⟨true, 2⟩ (.v 1) (.v 2) 5),
  ([0b1111111_1010_1111111_0000010_1111100#32, 0b00110100_1111100_00000000000000000#32], .caladv ⟨true, 2⟩ (.v 2)),
  ([0b1111111_1010_1111111_0000010_1111100#32, 0b00110100_1111100_00000000000000001#32], .caladvAllow ⟨true, 2⟩ (.v 2)),
  ([0b1111111_1010_0000001_0000010_101_0000#32, 0b00110101_1111100_00000000000000000#32], .spawn ⟨true, 2⟩ (.v 1) (.v 2) 5)] = true := by decide

/-- R103, R107: the extended opcodes from 0x38: words from the maps and formats of the spec, and the instruction each is. -/
theorem test_decode_wide38 : decodes [
  ([0b1111111_1010_0000001_0000010_1100011#32, 0b00111000_1111100_00000000000000000#32], .lnsend ⟨true, 2⟩ (.v 1) (.v 2) (.s 3)),
  ([0b1111111_1010_0000001_0000010_1111100#32, 0b00111001_1111100_00000000000000000#32], .lnclr ⟨true, 2⟩ (.v 1) (.v 2))] = true := by decide

/-- R103, R107: the extended opcodes from 0x40: words from the maps and formats of the spec, and the instruction each is. -/
theorem test_decode_wide40 : decodes [
  ([0b1111111_1010_1111111_1111100_1111100#32, 0b01000000_1111100_01011111011101111#32], .bkpt ⟨true, 2⟩ 0xBEEF),
  ([0b1111111_1010_1111111_1111100_1111100#32, 0b01000001_1111100_01011111011101111#32], .svcall ⟨true, 2⟩ 0xBEEF),
  ([0b1111111_1010_1111111_1111100_1111100#32, 0b01000010_1111100_00000000000000000#32], .tret ⟨true, 2⟩),
  ([0b1111111_1010_1111111_1111100_1111100#32, 0b01000011_1111100_00000000000000000#32], .termRay ⟨true, 2⟩),
  ([0b1111111_1010_1111111_1111100_1111100#32, 0b01000011_1111100_00000000000000001#32], .termBeam ⟨true, 2⟩)] = true := by decide

/-- R103, R107: the extended opcodes from 0x60: words from the maps and formats of the spec, and the instruction each is. -/
theorem test_decode_wide60 : decodes [
  ([0b1111111_1010_1111111_0000010_1100011#32, 0b01100000_1111100_01110010110011100#32], .mma ⟨true, 2⟩ (.v 2) (.s 3) 3 true false 5 9 12),
  ([0b1111111_1010_1111111_0000010_1100011#32, 0b01100001_1111100_01110010110011100#32], .mmaz ⟨true, 2⟩ (.v 2) (.s 3) 3 true false 5 9 12),
  ([0b1111111_1010_1111111_1111100_1111100#32, 0b01100010_1111100_00000000000001001#32], .mzero ⟨true, 2⟩ 9),
  ([0b1111111_1010_1111111_0000010_1100011#32, 0b01100011_1111100_01010000000001001#32], .mhaar ⟨true, 2⟩ (.v 2) (.s 3) 2 true 9),
  ([0b1111111_1010_1111111_1111100_1111100#32, 0b01100100_1111100_01010000000011001#32], .mihaarTile ⟨true, 2⟩ 2 true 9),
  ([0b1111111_1010_1111111_0000010_1100011#32, 0b01100100_1111100_01010000000000000#32], .mihaar ⟨true, 2⟩ (.v 2) (.s 3) 2 true),
  ([0b1111111_1010_1111111_0000010_1111100#32, 0b01100101_1111100_00000000000001001#32], .mthrSet ⟨true, 2⟩ (.v 2) 9),
  ([0b1111111_1010_1111111_0000010_1111100#32, 0b01100101_1111100_01010000000010000#32], .mthrTile ⟨true, 2⟩ (.v 2) 2 true),
  ([0b1111111_1010_1111111_0000010_1111100#32, 0b01100110_1111100_00000000000000000#32], .msig ⟨true, 2⟩ (.v 2)),
  ([0b1111111_1010_1111111_0000010_1100011#32, 0b01100111_1111100_00000000000000001#32], .mwait ⟨true, 2⟩ (.v 2) (.s 3) true)] = true := by decide

/-- R103, R107: the extended opcodes from 0x68: words from the maps and formats of the spec, and the instruction each is. -/
theorem test_decode_wide68 : decodes [
  ([0b1111111_1010_1111111_0000010_1100011#32, 0b01101000_1111100_00000000000001010#32], .mdesc ⟨true, 2⟩ (.v 2) (.s 3) 10),
  ([0b1111111_1010_1111111_1111100_1111100#32, 0b01101001_1111100_00000000000000000#32], .mend ⟨true, 2⟩)] = true := by decide
/-- Words that are no instruction: an unassigned extended opcode (R107), a reserved bit (R101, R103), an unused field that is
not 0x7C (R98), a wide form without its extension word and a literal without its slot (R103). -/
theorem test_decode_rejects : ([
    [0b1111111_1010_0000001_0000010_1100011#32, 0b00011001_1111100_00000000000000000#32],
    [0b0100000_1010_001_010_1_0000010_1100011#32], [0b1111111_1010_0000001_0000010_1100011#32, 0b00000000_1111100_00000000000000001#32],
    [0b0001100_1010_0000001_0000010_0000000#32], [0b1111111_1010_0000001_0000010_1100011#32],
    [0b0010100_1010_0000001_1111101_1111100#32]].all fun ws => match decode ws with | .ok _ => false | .error _ => true) = true := by decide

/-! ### Well-formed instructions (R96 to R103, R109) -/

/-- Well-formed terms: registers, the greatest allotment's last pair, a literal named twice, a stream's instruction. -/
theorem test_wf_accepts : ([.iaddS32 ⟨false, 7⟩ (.v 95) .lane (.s 23), .movZ64 ⟨true, 7⟩ (.v 94) (.l 3),
    .andZ32 ⟨false, 7⟩ .nul (.lit 5) (.lit 5), .stType ⟨false, 7⟩ (.v 92) (.s 0) 5 (.lit 7) 2 6, .fence ⟨false, 7⟩ 0 5,
    .mma ⟨false, 7⟩ (.v 31) .zero 2 true true 15 15 15] : List Instr).all (·.wf) = true := by decide

/-- An event is no instruction of a clause. -/
theorem test_wf_class : (Instr.evpop 0).wf = false := by decide

/-- Two fields that name different literals. -/
theorem test_wf_literal : (Instr.andZ32 ⟨false, 7⟩ (.v 0) (.lit 5) (.lit 6)).wf = false := by decide

/-- Reserved field values: a counter, a type, a scope, a special register that is read only, a conversion to itself,
columns beyond the tile. -/
theorem test_wf_fields : ([.ldZ32 ⟨false, 7⟩ (.v 0) (.s 0) 6 (.scaled 0), .ldType ⟨false, 7⟩ (.v 0) (.s 0) 0 (.scaled 0) 0 7,
    .fence ⟨false, 7⟩ 0 6, .mts ⟨false, 7⟩ 0x0C (.s 0), .cvt ⟨false, 7⟩ (.v 0) (.v 1) 0, .take ⟨false, 7⟩ (.v 0) 0 0 127 1,
    .xcopyOut ⟨false, 7⟩ (.s 3) (.s 0) 0 (.s 4) false 0 3] : List Instr).all (fun i => !i.wf) = true := by decide

/-- Operands that are not legal: 0x7F as a source, an odd pair, a pair beyond v95, a group that is not aligned, a vector token,
a latch as a destination. -/
theorem test_wf_operands : ([.iaddS32 ⟨false, 7⟩ (.v 0) .nul (.v 1), .ldZ64 ⟨false, 7⟩ (.v 3) (.s 2) 0 (.scaled 0), .iaddS64 ⟨false, 7⟩ (.v 95) .zero .zero,
    .stType ⟨false, 7⟩ (.v 90) (.s 0) 0 (.scaled 0) 0 6, .xcopyIn ⟨false, 7⟩ (.v 0) (.s 0) 0 (.s 4) false false 1,
    .iaddS32 ⟨false, 7⟩ (.l 0) .zero .zero, .mdesc ⟨false, 7⟩ (.v 32) .zero 0] : List Instr).all (fun i => !i.wf) = true := by decide

/-- The clause check's causes (R109): 0x10 to 0x13 for operands and 0x11 for a latch before its instruction. -/
theorem test_operand_causes :
    ((Instr.iaddS32 ⟨false, 7⟩ (.l 0) .zero .zero).operandCauses ⟨false, 96, 2⟩,
     (Instr.iaddS32 ⟨false, 7⟩ (.v 0) (.l 1) .zero).operandCauses ⟨false, 96, 2⟩,
     (Instr.iaddS32 ⟨false, 7⟩ (.v 8) (.v 7) .zero).operandCauses ⟨false, 8, 2⟩,
     (Instr.movZ64 ⟨false, 7⟩ (.v 3) .zero).operandCauses ⟨false, 96, 2⟩) = ([0x10], [0x11], [0x12], [0x13]) := by decide

/-! ### Small states -/

/-- A clause that holds some words. -/
def clauseOf (slots : List Word) : Clause :=
  { hdr := 0x40, word := 0, slots := slots, next := 0, pos := 1, entering := allLanes, hset := [] }

/-- A thread in a clause, with lane values in v0 to v3 and words in s0 to s3, p1 a mask. -/
def thr (slots : List Word) (vs : List (Nat → Word)) (ss : List DWord) (act : Mask := allLanes) : Thread :=
  { fetchThread .ray (clauseOf slots) with
    v := vs.zipIdx.map fun (f, n) => (n, laneTab f), s := ss.zipIdx.map fun (x, n) => (n, x), p := [(1, act)], vpc := laneTab fun _ => 0x44
    span := 0x1000 }

/-- Ray 0 of core 0 executes, alone on the machine. -/
def alone (t : Thread) : State :=
  { State.reset with cur := .ray 0 0, cores := [(0, { Core.reset with rays := [(0, Ray.release t 0 0 0 0 0 0)] })] }

/-- The registers of ray 0 of core 0 after a step. -/
def after (o : Out) : Option Thread := match o with | .next s => (s.ray 0 0).map (·.th) | _ => none

/-- Word n of a lane, its latch and its flags after one instruction. -/
def laneAfter (i : Instr) (t : Thread) (n k : Nat) : Option (Word × DWord × BitVec 6) :=
  (after (exec i (alone t))).map fun u => (u.vreg n k, u.latch 0 k, laneGet u.flags 0 k)

/-- Word n of a lane after one instruction. -/
def wordAfter (i : Instr) (t : Thread) (n k : Nat) : Option Word := (laneAfter i t n k).map (·.1)

/-- The last event of core 0 after a step: KIND, CAUSE, SLOT, PC and LANES (R380). -/
def eventAfter (o : Out) : Option (Nat × Nat × Nat × Nat × Nat) := match o with
  | .next s => ((s.core 0).events.getLast?).map fun e => (bits e 31 28, bits e 23 16, bits e 27 24, bits e 95 64, bits e 127 96)
  | _ => none

/-- The guards that every lane, and the lanes of p1, satisfy. -/
def always : Guard := ⟨false, 7⟩
def ifP1 : Guard := ⟨false, 1⟩

/-! ### Integer, predicate and lane instructions: results worked out from their rules -/

/-- R113, R26: a sum wraps modulo 2^32, and the latch holds it. -/
theorem test_iadd_wraps : laneAfter (.iaddS32 always (.v 2) (.v 0) (.v 1)) (thr [0] [fun _ => 0xFFFFFFFF, fun _ => 2] []) 2 5 =
    some (1, 1, 0) := by decide

/-- R113: 64-bit addition carries from the even register into the odd one, and a scalar destination holds 64 bits. -/
theorem test_iadd64_carries : ((after (exec (.iaddS64 always (.s 3) (.s 0) (.s 1)) (alone (thr [0] [] [0xFFFFFFFFFFFFFFFF, 2])))).map
    fun u => SMap.get u.s 0 3) = some 1 := by decide

/-- R113: the literal of a .S64 operand is sign-extended (R97). -/
theorem test_iadd64_literal : ((after (exec (.iaddS64 always (.s 3) (.s 0) (.lit 0xFFFFFFFE)) (alone (thr [0, 0] [] [5])))).map
    fun u => SMap.get u.s 0 3) = some 3 := by decide

/-- R114: the high half of a signed and of an unsigned product. -/
theorem test_imulhi : (wordAfter (.imulhiS32 always (.v 2) (.v 0) (.v 1)) (thr [0] [fun _ => 0x80000000, fun _ => 4] []) 2 0,
    wordAfter (.imulhiZ32 always (.v 2) (.v 0) (.v 1)) (thr [0] [fun _ => 0x80000000, fun _ => 4] []) 2 0) =
    (some 0xFFFFFFFE, some 2) := by decide

/-- R116: the quotient truncates towards zero and the remainder has the dividend's sign: −7 / 2. -/
theorem test_division : (wordAfter (.idivS32 always (.v 2) (.v 0) (.v 1)) (thr [0, 0] [fun _ => 0xFFFFFFF9, fun _ => 2] []) 2 0,
    wordAfter (.iremS32 always (.v 2) (.v 0) (.v 1)) (thr [0, 0] [fun _ => 0xFFFFFFF9, fun _ => 2] []) 2 0) =
    (some 0xFFFFFFFD, some 0xFFFFFFFF) := by decide

/-- R118: shifts by 32 give 0 and the sign; a rotation takes its amount modulo 32. -/
theorem test_shifts : (wordAfter (.shlZ32 always (.v 2) (.v 0) (.v 1)) (thr [0] [fun _ => 0x80000001, fun _ => 32] []) 2 0,
    wordAfter (.shrS32 always (.v 2) (.v 0) (.v 1)) (thr [0] [fun _ => 0x80000001, fun _ => 32] []) 2 0,
    wordAfter (.rotZ32 always (.v 2) (.v 0) (.v 1)) (thr [0] [fun _ => 0x80000001, fun _ => 36] []) 2 0) =
    (some 0, some 0xFFFFFFFF, some 0x18) := by decide

/-- R120: the spec's own example of BFE.S32. -/
theorem test_bfe : wordAfter (.bfeS32 always (.v 2) (.v 0) (.v 1)) (thr [0] [fun _ => 0xF00, fun _ => 0x0408] []) 2 0 =
    some 0xFFFFFFFF := by decide

/-- R110: the old destination goes into a bit-field insertion, under a guard that only lane 1 meets. -/
theorem test_bfi_guarded : (wordAfter (.bfiZ32 ifP1 (.v 0) (.v 1) (.v 2)) (thr [0] [fun _ => 0xAAAAAAAA, fun _ => 0xFF, fun _ => 0x0408] [] 2) 0 1,
    wordAfter (.bfiZ32 ifP1 (.v 0) (.v 1) (.v 2)) (thr [0] [fun _ => 0xAAAAAAAA, fun _ => 0xFF, fun _ => 0x0408] [] 2) 0 0) =
    (some 0xAAAAAFAA, some 0xAAAAAAAA) := by decide

/-- R19: a scalar destination takes the lowest active lane's value. -/
theorem test_scalar_takes_lowest : ((after (exec (.movZ32 ifP1 (.s 3) .lane) (alone (thr [0] [] [] 0xFFFFFF00)))).map
    fun u => SMap.get u.s 0 3) = some 8 := by decide

/-- R125: TABLE 0x2 is a AND NOT b, and PF gets the complement. -/
theorem test_plop : ((after (exec (.plop always 2 3 1 7 0x2) (alone (thr [0] [] [] 0xF0)))).map fun u => (u.pred 2, u.pred 3)) =
    some (0, 0xFFFFFFFF) := by decide

/-- R126, R127: a vote and a ballot over the lanes of p1: .NOT complements the lane's predicate. -/
theorem test_votes : ((after (exec (.voteAll ifP1 2 3 1 false) (alone (thr [0] [] [] 0xF0)))).map fun u => (u.pred 2, u.pred 3),
    wordAfter (.ballot always (.v 0) 1 true) (thr [0] [] [] 0xF0) 0 0) = (some (0xF0, 0), some 0xFFFFFF0F) := by decide

/-- R128: SHFL.UP by 1: lane 0 keeps its own value, lane 1 reads lane 0. -/
theorem test_shfl_up : (wordAfter (.shflUp always (.v 2) (.v 0) (.v 1)) (thr [0] [fun k => BitVec.ofNat 32 (10 + k), fun _ => 1] []) 2 0,
    wordAfter (.shflUp always (.v 2) (.v 0) (.v 1)) (thr [0] [fun k => BitVec.ofNat 32 (10 + k), fun _ => 1] []) 2 31) =
    (some 10, some 40) := by decide

/-- R129: a reduction over the active lanes 4 to 7 alone: 4 + 5 + 6 + 7. -/
theorem test_iredadd : wordAfter (.iredaddS32 ifP1 (.v 2) (.v 0)) (thr [0] [fun k => BitVec.ofNat 32 k] [] 0xF0) 2 7 = some 22 := by decide

/-! ### Floating point, conversion and packed words -/

/-- R37, R144: 2^24 + 1 ties and rounds to the even 2^24, with NX (R41). -/
theorem test_fadd_ties : laneAfter (.faddF32 always (.v 2) (.v 0) (.v 1)) (thr [0] [fun _ => 0x4B800000, fun _ => 0x3F800000] []) 2 0 =
    some (0x4B800000, 0x4B800000, flNX) := by decide

/-- R144: a finite number divided by 0 is infinite, with DZ; 0 / 0 is the canonical NaN, with NV. -/
theorem test_fdiv : (laneAfter (.fdivF32 always (.v 2) (.v 0) (.v 1)) (thr [0] [fun _ => 0x3F800000, fun _ => 0x80000000] []) 2 0,
    laneAfter (.fdivF32 always (.v 2) (.v 0) (.v 1)) (thr [0] [fun _ => 0, fun _ => 0] []) 2 0) =
    (some (0xFF800000, 0xFF800000, flDZ), some (0x7FC00000, 0x7FC00000, flNV)) := by decide

/-- R144: the minimum of +0 and −0 is −0; a NaN yields to the number. -/
theorem test_fmin : (wordAfter (.fminF32 always (.v 2) (.v 0) (.v 1)) (thr [0] [fun _ => 0, fun _ => 0x80000000] []) 2 0,
    wordAfter (.fminF32 always (.v 2) (.v 0) (.v 1)) (thr [0] [fun _ => 0x7FC00000, fun _ => 0x40000000] []) 2 0) =
    (some 0x80000000, some 0x40000000) := by decide

/-- R144: a fused multiply-add rounds once: (1 + 2^-12)^2 - (1 + 2^-11) is 2^-24, which a rounded square would lose. -/
theorem test_ffma : wordAfter (.ffmaF32 always (.v 2) (.v 0) (.v 1)) (thr [0] [fun _ => 0x3F800800, fun _ => 0x3F800800, fun _ => 0xBF801000] []) 2 0 =
    some 0x33800000 := by decide

/-- R158: a saturating sum clamps each half and sets SA. -/
theorem test_iadds : laneAfter (.iaddsS16x2 always (.v 2) (.v 0) (.v 1)) (thr [0] [fun _ => 0x7FFF0001, fun _ => 0x00010001] []) 2 0 =
    some (0x7FFF0002, 0x7FFF0002, flSA) := by decide

/-- R44: the spec's own example: 0.3 to E4M3 under RNE is 0x2A, with NX (K = 0x18, R154). -/
theorem test_cvt_e4m3 : laneAfter (.cvt always (.v 2) (.v 0) 0x18) (thr [0] [fun _ => 0x3E99999A] []) 2 0 = some (0x2A, 0x2A, flNX) := by decide

/-- R46, R156: the spec's own example of a block with k = 31: scale 120; 3.0 is 0x7C, 1.25 is 0x72, 1000.0 saturates to 0x7E. -/
theorem test_quant : (([0, 1, 2] : List Nat).map fun k => wordAfter (.quant always (.v 2) (.v 0) (.v 1))
    (thr [0] [fun k => if k = 0 then 0x40400000 else if k = 1 then 0x3FA00000 else if k = 2 then 0x447A0000 else 0x3F800000,
      fun _ => 0x1E00] []) 2 k) = [some 0x787C, some 0x7872, some 0x787E] := by decide

/-- R45, R157: E4M3 code 0x7C (384) under scale 120 (2^-7) is 3.0. -/
theorem test_deq : wordAfter (.deq always (.v 2) (.v 0) (.v 1)) (thr [0] [fun _ => 0x787C, fun _ => 0] []) 2 0 = some 0x40400000 := by decide

/-- R152: FRSQ of a number below zero is the canonical NaN with NV, FRCP of −0 is −infinity with DZ. -/
theorem test_functions : (laneAfter (.frsqF32 always (.v 2) (.v 0)) (thr [0] [fun _ => 0xBF800000] []) 2 0,
    laneAfter (.frcpF32 always (.v 2) (.v 0)) (thr [0] [fun _ => 0x80000000] []) 2 0) =
    (some (0x7FC00000, 0x7FC00000, flNV), some (0xFF800000, 0xFF800000, flDZ)) := by decide

/-- R161: 10-bit pixels, aligned right: lane 0 gets bits 9..0 and 19..10 of the string. -/
theorem test_pxunpack : wordAfter (.pxunpack always (.v 2) (.v 0) (.v 1)) (thr [0] [fun _ => 0x000FFC01, fun _ => 0] []) 2 0 =
    some 0x03FF0001 := by decide +kernel

/-- R54, R68: the worked tile: the coefficients of 10, 10, 10, 10, 12, 12, 4, 4 in tree order are 9, 1, 0, 4 and zeros, and the
inverse of 9, 0, 0, 4, 0, 0, 0, 0 is 9, 9, 9, 9, 13, 13, 5, 5 (as FP32 codes). -/
theorem test_haar : (forward 3 [0x41200000, 0x41200000, 0x41200000, 0x41200000, 0x41400000, 0x41400000, 0x40800000, 0x40800000],
    inverse 3 [0x41100000, 0, 0, 0x40800000, 0, 0, 0, 0]) =
    ([0x41100000, 0x3F800000, 0, 0x40800000, 0, 0, 0, 0],
     [0x41100000, 0x41100000, 0x41100000, 0x41100000, 0x41500000, 0x41500000, 0x40A00000, 0x40A00000]) := by decide

/-! ### Control, special registers and traps -/

/-- R89, R102, R130: a branch of −3 words from the header at 0x40; a lane whose guard fails goes on. -/
theorem test_bra : ((after (exec (.bra ifP1 (BitVec.ofInt 21 (-3))) (alone (thr [0] [] [] 1)))).map fun u => (u.pcOf 0, u.pcOf 1)) =
    some (0x34, 0x48) := by decide

/-- R132: a call pushes the next clause's header, 0x48, and a return pops it. -/
theorem test_call_and_return : ((after (exec (.call always 4) (alone (thr [0] [] [])))).map fun u =>
      (u.pcOf 0, laneGet (SMap.get u.ret [] 0) 0 0, laneGet u.level 0 0),
    (after (exec (.ret always) (alone { thr [0] [] [] with ret := [(0, laneTab fun _ => 0x48)], level := laneTab fun _ => 1 }))).map
      fun u => (u.pcOf 0, laneGet u.level 0 0)) = (some (0x50, 0x48, 1), some (0x48, 0)) := by decide

/-- R134: EXIT ends its lanes, whose vpc then reads 0xFFFFFFFC. -/
theorem test_exit : ((after (exec (.exit ifP1) (alone (thr [0] [] [] 1)))).map fun u => (u.live, u.pcOf 0, u.pcOf 1)) =
    some (0xFFFFFFFE, 0xFFFFFFFC, 0x48) := by decide

/-- R31, R43: a write to %fmode with a reserved rounding mode traps with cause 0x08, and a legal one is kept. -/
theorem test_mts_fmode : (eventAfter (exec (.mts always 2 (.v 0)) (alone (thr [0] [fun _ => 5] []))),
    (after (exec (.mts always 2 (.v 0)) (alone (thr [0] [fun _ => 0x2C] [])))).map (·.fmode)) =
    (some (1, 8, 1, 0x44, 0xFFFFFFFF), some 0x2C) := by decide

/-- The ray of the spec's divide-check: RSLOT 5 of core 0, of a launch that no context is known of. -/
def divider : State :=
  { State.reset with cur := .ray 0 5, cores := [(0, { Core.reset with rays := [(5, Ray.release
    { thr [0x02E0C102, 0xFEE10082, 0x00F80000] [fun _ => 0, fun _ => 0x64, fun k => if k = 3 then 0 else 5, fun _ => 0x69] [] with
      clause := some { clauseOf [0x02E0C102, 0xFEE10082, 0x00F80000] with next := 1, pos := 2 }, vpc := laneTab fun _ => 0x48 }
    0 0 0 0 0 0)] })] }

/-- R116, R379, R380: the worked divide-check: event word 0 without its context 0x0005000012280000 with SLOT 2, word 1
0xFFFFFFFF00000048; v4 is not written, vpc stays 0x48, and the ray is parked. -/
theorem test_divide_check : (match exec (.idivS32 always (.v 4) (.v 1) (.v 2)) divider with
    | .next s => ((s.core 0).events.map fun e => (bits e 63 0, bits e 127 64), (s.ray 0 5).map fun r => (r.parked, r.th.pcOf 3, r.th.vreg 4 0))
    | _ => ([], none)) = ([(0x0005000012280000, 0xFFFFFFFF00000048)], some (some .runTrap, 0x48, 0)) := by decide

/-- R385: RESUME.SKIP of that ray passes over the IDIV: vpc goes to the next clause header, 0x50, and v4 stays. -/
theorem test_resume_skip : (match exec (.idivS32 always (.v 4) (.v 1) (.v 2)) divider with
    | .next s => (match exec (.raycmdResumeSkip 0 5) s with
      | .next u => (u.ray 0 5).map fun r => (r.parked, r.th.pcOf 3, r.th.clause, r.th.vreg 4 0)
      | _ => none)
    | _ => none) = some (none, 0x50, none, 0) := by decide

/-- R389: BKPT traps with its number, SVCALL at the next header. -/
theorem test_system : (eventAfter (exec (.bkpt always 7) (alone (thr [0, 0] [] []))),
    (after (exec (.svcall always 7) (alone (thr [0, 0] [] [])))).map fun u => (u.pcOf 0, u.clause)) =
    (some (1, 0x60, 1, 0x44, 0xFFFFFFFF), some (0x4C, none)) := by decide

/-! ### Memory and engines -/

/-- R165, R269: a store to a bank that is no FIFO bank traps with cause 0x33 in its active lanes. -/
theorem test_store_space : eventAfter (exec (.stZ32 ifP1 (.v 0) (.s 0) 2 (.scaled 1)) (alone (thr [0] [fun _ => 7] [0x0200000000000000] 5))) =
    some (1, 0x33, 1, 0x44, 5) := by decide

/-- R182, R183: the new values of atomics on 0xFFFFFFFF with 1: ADD wraps, signed MIN keeps −1, unsigned MIN takes 1. -/
theorem test_atomic_values : (atomNew false 0 0 0xFFFFFFFF 0 1, atomNew false 0 1 0xFFFFFFFF 0 1, atomNew false 1 1 0xFFFFFFFF 0 1, atomNew false 1 7 5 5 9) =
    (0, 0xFFFFFFFF, 1, 9) := by decide

/-- R200: a token with an error meets WAITC whatever its chunks; one that lacks a chunk does not. -/
theorem test_waitc : (wordAfter (.waitc always (.v 0) (.s 0) (.s 1) false) (thr [0, 0] [] [0x8003000000000000, 3]) 0 0,
    wordAfter (.waitc always (.v 0) (.s 0) (.s 1) false) (thr [0, 0] [] [0x0000000000000001, 3]) 0 0) = (some 1, some 0) := by decide

/-! ### Fetching -/

/-- The word of IADD.S32 v0, zero, zero is what the next step fetches and runs, from the state after reset. -/
theorem test_fetch : (match step (State.reset.withFetchWord 32 0x00E03E7C) with
    | .next s => (s.ray 0 0).map fun r => (r.th.retired, r.th.clause)
    | _ => none) = some (1, none) := by decide

/-- R216: a sequencer's instruction is run by the stream of cluster 0. -/
theorem test_fetch_stream : (match step (State.reset.withFetchWord 64 0x69F80000FEFFFE7C) with
    | .next s => (s.cluster 0).stream.map (·.state)
    | _ => none) = some .ended := by decide

/-! ### Hypotheses of the statements about decoding and register instructions -/

/-- A thread with words in v0 to v3 and s0 to s3, p1 true in lanes 4 to 7, no mark; and the same with v1 and v2 marked. -/
def plain : Thread := thr [0, 0, 0] [fun k => BitVec.ofNat 32 k, fun k => BitVec.ofNat 32 (k + 1), fun _ => 3, fun _ => 4] [1, 2, 3, 4] 0xF0
def marked : Thread := { plain with marks := [(0, 0xFFFFFFFF), (1, 0xFFFFFFFF), (2, 0xFFFFFFFF), (3, 0xFFFFFFFF)] }

/-- The instructions that DecodeEncode speaks of, with no literal, with one, and wide. -/
theorem test_hyps_encodable : ([.iaddS32 always .nul (.s 23) (.l 3), .andZ64 ifP1 (.v 95) (.lit 0xFFFFFFFF) (.lit 0xFFFFFFFF),
    .ldZ32 always (.v 0) (.v 1) 7 (.lit 0), .mend always, .bra always (BitVec.ofInt 21 (-1048576))] : List Instr).all (·.encodable) = true := by decide

/-- StepRunsDecoded: a ray about to run an IADD, and a stream about to run MEND, both chosen. -/
theorem test_hyps_step :
    (State.reset.withFetchWord 32 0x00E03E7C).turn = some (.slot 0 0) ∧
    (∃ r c, (State.reset.withFetchWord 32 0x00E03E7C).ray 0 0 = some r ∧ r.th.clause = some c ∧ r.parked = none ∧ r.th.live ≠ 0 ∧
      r.stall = none ∧ (decode (c.slots.drop c.next)).toOption.isSome ∧
      SMap.get? ((State.reset.withFetchWord 32 0x00E03E7C).core 0).pipes r.pipe = some 0) ∧
    ((State.reset.withFetchWord 32 0x00E03E7C).core 0).xfault = none ∧ (State.reset.withFetchWord 32 0x00E03E7C).module.tripped = false ∧
    (State.reset.withFetchWord 64 0x69F80000FEFFFE7C).turn = some (.streamSlot 0) ∧
    (∃ x c, ((State.reset.withFetchWord 64 0x69F80000FEFFFE7C).cluster 0).stream = some x ∧ x.th.clause = some c ∧ x.state = .running ∧
      x.th.live ≠ 0) :=
  ⟨rfl, ⟨_, _, rfl, rfl, by decide, by decide, by decide, by decide, by decide⟩, by decide, by decide, rfl,
    ⟨_, _, rfl, rfl, by decide, by decide⟩⟩

/-- StepKeepsMemory: the state after reset has its memory in canonical form, and a step from it gives a next state. -/
theorem test_hyps_memory : State.reset.memWf ∧ ∃ u, step State.reset = .next u := ⟨by unfold State.memWf; decide, _, rfl⟩

/-- RegisterEffect: a ray in a clause executes. -/
theorem test_hyps_effect : (∃ r, (alone plain).executes 0 0 r ∧ r.th.clause ≠ none ∧ r.th.kind = .ray) ∧
    (alone plain).atSlot plain (.iaddS32 ifP1 (.v 0) (.v 1) (.v 2)) :=
  ⟨⟨_, ⟨rfl, rfl⟩, by decide, rfl⟩, rfl, by decide⟩

/-- Instructions of the register files on the plain thread: no register is pending, no operand is marked. -/
theorem test_hyps_words :
    (∀ row ∈ twoWord, (alone plain).tokenWait (row.1 ifP1 (.v 0) (.v 1) (.v 2)) = none) ∧
    (∀ row ∈ oneWord, (alone plain).tokenWait (row.1 ifP1 (.v 0) (.v 1)) = none) ∧
    (∀ row ∈ threeWord, (alone plain).tokenWait (row.1 ifP1 (.v 0) (.v 1) (.v 2)) = none) ∧
    (∀ row ∈ packedInts, (alone plain).tokenWait (row.1 ifP1 (.v 0) (.v 1) (.v 2)) = none) ∧
    (∀ row ∈ divisions, (alone plain).tokenWait (row.1 ifP1 (.v 0) (.v 1) (.v 2)) = none) ∧
    (∀ f ∈ ([Instr.frcpF32, .frsqF32, .fsqrtF32, .fexp2F32, .flog2F32, .fsinF32, .fcosF32, .ftanhF32, .fgeluF32, .fsigmF32] : List (Guard → Opnd → Opnd → Instr)),
      (alone plain).tokenWait (f ifP1 (.v 0) (.v 1)) = none) ∧
    (∀ f ∈ ([Instr.icmpEqZ32, .icmpLtS32, .icmpLeS32, .icmpLtZ32, .icmpLeZ32, .fcmpEqF32, .fcmpLtF32, .fcmpLeF32, .fcmpUnF32] :
      List (Guard → Pred → Pred → Opnd → Opnd → Instr)), (alone plain).tokenWait (f ifP1 2 3 (.v 1) (.v 2)) = none) ∧
    (∀ row ∈ wordReductions, (alone plain).tokenWait (row.1 ifP1 (.v 0) (.v 1)) = none) ∧
    (∀ row ∈ floatReductions, (alone plain).tokenWait (row.1 ifP1 (.v 0) (.v 1)) = none) ∧
    (∀ row ∈ sourceLanes, (alone plain).tokenWait (row.1 ifP1 (.v 0) (.v 1) (.v 2)) = none) ∧
    (alone plain).curThread = some plain ∧ plain.active ifP1 ≠ 0 ∧
    (∀ k < 32, bit (plain.active ifP1) k = true → ∀ o ∈ [Opnd.v 0, .v 1, .v 2, .v 3], plain.marked false o k = false) ∧
    (∀ k < 32, bit (plain.active ifP1) k = true → ∀ o ∈ [Opnd.v 0, .v 2, .s 0, .s 3], plain.marked true o k = false) ∧
    (∀ k < 32, bit (plain.active ifP1) k = true → plain.rd32 (.v 2) k ≠ 0) := by decide

/-- The operands of the other instructions of LinearResults, LongResults, PackedResults and the compares. -/
theorem test_hyps_others : (∀ i ∈ ([.iaddS32 ifP1 (.v 0) (.v 1) (.v 2), .isubS32 ifP1 (.v 0) (.v 1) (.v 2), .iaddS64 ifP1 (.v 0) (.s 1) (.v 2),
      .isubS64 ifP1 (.v 0) (.s 1) (.v 2), .iadd3S32 ifP1 (.v 0) (.v 1) (.v 2) (.v 3), .movZ32 ifP1 (.v 0) (.v 1), .movZ64 ifP1 (.v 0) (.v 2),
      .fnegF32 ifP1 (.v 0) (.v 1), .sel ifP1 (.v 0) (.v 2) (.s 1) true true 1, .imulwS32 ifP1 (.v 0) (.v 1) (.v 2), .imulwZ32 ifP1 (.v 0) (.v 1) (.v 2),
      .andZ64 ifP1 (.v 0) (.v 2) (.s 0), .orZ64 ifP1 (.v 0) (.v 2) (.s 0), .xorZ64 ifP1 (.v 0) (.v 2) (.s 0), .shlZ64 ifP1 (.v 0) (.v 2) (.s 0),
      .shrZ64 ifP1 (.v 0) (.v 2) (.s 0), .shrS64 ifP1 (.v 0) (.v 2) (.s 0), .popcZ64 ifP1 (.v 0) (.v 2), .clzZ64 ifP1 (.v 0) (.v 2),
      .leaS64 ifP1 (.v 0) (.s 0) (.v 1), .faddF32 ifP1 (.v 0) (.v 1) (.v 2), .faddF32Rm ifP1 (.v 0) (.v 1) (.v 2) 3, .fmulF32Rm ifP1 (.v 0) (.v 1) (.v 2) 0,
      .fdivF32 ifP1 (.v 0) (.v 1) (.v 2), .fminF32 ifP1 (.v 0) (.v 1) (.v 2), .fmaxF32 ifP1 (.v 0) (.v 1) (.v 2), .imadS16x2 ifP1 (.v 0) (.v 1) (.v 2),
      .iabsS16x2 ifP1 (.v 0) (.v 1), .dotsS16x2 ifP1 (.v 0) (.v 1) (.v 2) (.v 3), .fexp2F16x2 ifP1 (.v 0) (.v 1), .icmpS64 ifP1 2 3 (.v 2) (.s 0) 1,
      .icmpZ64 ifP1 2 3 (.v 2) (.s 0) 2, .fcmpF16 ifP1 2 3 (.v 1) (.v 2) true 3, .fcmpBf16 ifP1 2 3 (.v 1) (.v 2) false 0, .plop ifP1 2 3 1 1 6,
      .voteAny ifP1 2 3 1 true, .voteAll ifP1 2 3 1 false, .ballot ifP1 (.s 3) 1 true] : List Instr), (alone plain).atSlot plain i) ∧
    (∀ row ∈ additions, (alone plain).atSlot plain (row.1 ifP1 (.v 0) (.v 1) (.v 2))) ∧
    (∀ row ∈ products, (alone plain).atSlot plain (row.1 ifP1 (.v 0) (.v 1) (.v 2))) ∧
    (∀ row ∈ multiplyAdds, (alone plain).atSlot plain (row.1 ifP1 (.v 0) (.v 1) (.v 2))) ∧
    (∀ row ∈ multiplyAdds3, (alone plain).atSlot plain (row.1 ifP1 (.v 0) (.v 1) (.v 2) (.v 3))) := by
  simp only [State.atSlot]; decide

/-- Marks: v0 marked in lane 4 with v1 clear meets ProductResults; both marked meets the second clause of DomainTraps, and each
operand of a strict form marked meets its first. -/
theorem test_hyps_domain :
    (∀ k < 32, bit ({ plain with marks := [(0, 0x10)] }.active ifP1) k = true →
      ({ plain with marks := [(0, 0x10)] }.marked false (.v 0) k && { plain with marks := [(0, 0x10)] }.marked false (.v 1) k) = false) ∧
    bit (marked.active ifP1) 4 = true ∧ marked.marked false (.v 1) 4 = true ∧ marked.marked false (.v 2) 4 = true := by decide

/-- Of lane 4 of the marked thread every strict form reads a marked operand. -/
theorem test_hyps_strict : (strictForms ifP1 (.v 0) (.v 1) (.v 2) (.v 3) 2 3 1 true).all (fun row =>
    row.2.any (fun m => marked.marked m.2 m.1 4) && decide ((alone marked).tokenWait row.1 = none)) = true ∧
    (alone marked).curThread = some marked := by decide +kernel

/-- DivideCheck: one active lane's divisor is 0. -/
theorem test_hyps_divide : ∃ k < 32, bit (plain.active always) k = true ∧ plain.rd32 (.v 0) k = 0 := by decide

/-- The special inputs of FunctionSpecials: signalling and quiet NaNs, the least and the greatest finite numbers below zero. -/
theorem test_hyps_specials : (plain.fmodeArith.read fmtF32 0x7F800001).1.isNan = true ∧ (plain.fmodeArith.read fmtF32 0xFFC00000).1.isNan = true ∧
    (∃ n d, n ≠ 0 ∧ (plain.fmodeArith.read fmtF32 0x80000001).1 = .fin true n d) ∧
    (∃ n d, n ≠ 0 ∧ (plain.fmodeArith.read fmtF32 0xFF7FFFFF).1 = .fin true n d) ∧
    (plain.fmodeArith.read fmtF16 0x7C01).1.isNan = true ∧ (plain.fmodeArith.read fmtF16 0xFE00).1.isNan = true :=
  ⟨by decide, by decide, ⟨_, _, by decide, rfl⟩, ⟨_, _, by decide, rfl⟩, by decide, by decide⟩

/-- MinMaxResults' cases: NaN and NaN, a number and NaN, smaller and greater, and the two zeros. -/
theorem test_hyps_minmax : let r (c : Nat) := (plain.fmodeArith.read fmtF32 c).1
    (r 0x7FC00000).isNan = true ∧ (r 0x3F800000).isNan = false ∧ (r 0xFF800000).isNan = false ∧ (r 0x3F800000).lt (r 0x40000000) = true ∧
    (r 0xFF800000).lt (r 0x80000000) = true ∧ (∃ n, r 0 = .fin false 0 n) ∧ ∃ n, r 0x80000000 = .fin true 0 n :=
  ⟨by decide, by decide, by decide, by decide +kernel, by decide +kernel, ⟨_, rfl⟩, ⟨_, rfl⟩⟩

/-- ExactValuesRound: the code 0 and the greatest finite code of each sign and format. -/
theorem test_hyps_exact : ∀ f ∈ [fmtF32, fmtF16, fmtBf16, fmtE5m2, fmtE4m3, fmtE2m1], ∀ c ∈ [0, f.maxCode, 2 ^ (f.width - 1), 2 ^ (f.width - 1) + f.maxCode],
    c < 2 ^ f.width ∧ c % 2 ^ (f.width - 1) ≤ f.maxCode := by decide

/-- ConversionForms: no mark where the conversion is not between floating-point types, and a position that fits; ConversionCases: a
NaN, +infinity, the halves of 2^31 and beyond. -/
theorem test_hyps_conversion : (∀ i ∈ ([.cvt ifP1 (.v 0) (.v 1) 7, .cvt ifP1 (.v 0) (.v 1) 0x4D, .cvtWide ifP1 (.v 0) (.v 1) 3 0 7 2 0 3,
      .cvtWide ifP1 (.v 0) (.s 1) 8 13 0 0 0 0] : List Instr), (alone plain).atSlot plain i) ∧
    (∀ k < 32, bit (plain.active ifP1) k = true → plain.marked false (.v 1) k = false ∧ plain.marked true (.s 1) k = false ∧ plain.marked false (.v 0) k = false) ∧
    (3 + 1) * (cvtType 3).width ≤ 32 ∧ (plain.fmodeCvt.read fmtF32 0x7FC00000).1.isNan = true ∧ (plain.fmodeCvt.read fmtF32 0x7F800000).1 = .inf false ∧
    (∃ n d, (plain.fmodeCvt.read fmtF32 0x4EFFFFFF).1 = .fin false n d ∧ (roundNat false plain.fmodeCvt.rm n d).1 < 2 ^ 31) ∧
    (∃ n d, (plain.fmodeCvt.read fmtF32 0x4F800000).1 = .fin false n d ∧ 2 ^ 31 < (roundNat false plain.fmodeCvt.rm n d).1) ∧ plain.fmodeCvt.sat = false := by
  simp only [State.atSlot]
  exact ⟨by decide, by decide, by decide, by decide, by decide, ⟨_, _, rfl, by decide⟩, ⟨_, _, rfl, by decide⟩, by decide⟩

/-- QuantResults and DequantResults: a legal word that every active lane holds, with a clip rank of 32; a block of numbers, of zeros and with
an infinity; elements of every format; a scale of 0xFF. -/
theorem test_hyps_quant :
    (alone plain).atSlot plain (.quant ifP1 (.v 0) (.v 1) (.lit 0x1F00)) ∧ (alone plain).atSlot plain (.deq ifP1 (.v 0) (.v 1) (.lit 4)) ∧
    (∀ k < 32, bit (plain.active ifP1) k = true → plain.rd32 (.lit 0x1F00) k = 0x1F00 ∧ bits (plain.rd32 (.lit 4) k) 31 3 = 0 ∧ bits (plain.rd32 (.lit 4) k) 2 0 ≤ 4) ∧
    (bits 0x1F00#32 31 13 = 0 ∧ bits 0x1F00#32 7 2 = 0 ∧ bits 0x1F00#32 1 0 ≠ 3) ∧
    (∃ x ∈ blockOf (thr [0] [fun k => if k = 4 then 0x7F800000 else 0] [] 0xF0) ifP1 (.v 0), x = .inf false) ∧
    (blockOf (thr [0] [fun _ => 0] [] 0xF0) ifP1 (.v 0)).all (fun x => match x with | .fin _ 0 _ => true | _ => false) = true ∧
    (blockOf plain ifP1 (.v 1)).all (fun x => match x with | .fin _ n _ => n != 0 | _ => false) = true ∧ bits 0xFF38#32 15 8 = 0xFF := by
  simp only [State.atSlot]; decide

/-- PixelResults and ControlWordTraps: words at the ends of what each takes, agreed in every lane, reserved, and differing. -/
theorem test_hyps_pixels : (∀ i ∈ ([.pxunpack ifP1 (.v 0) (.v 1) (.lit 6), .pxpack ifP1 (.v 0) (.v 1) (.lit 14), .quant ifP1 (.v 0) (.v 1) (.v 0),
      .deq ifP1 (.v 0) (.v 1) (.lit 5), .pxunpack ifP1 (.v 0) (.v 1) (.v 0)] : List Instr), (alone plain).atSlot plain i) ∧
    (∀ k < 32, bit (plain.active ifP1) k = true → plain.rd32 (.lit 6) k = 6) ∧ bits 6#32 31 3 = 0 ∧ bits 6#32 1 0 ≠ 3 ∧ bits 14#32 31 4 = 0 ∧ bits 14#32 1 0 ≠ 3 ∧
    bits 8#32 31 3 ≠ 0 ∧ bits 16#32 31 4 ≠ 0 ∧ bits 3#32 1 0 = 3 ∧ bits 0x2000#32 31 13 ≠ 0 ∧ bits 4#32 7 2 ≠ 0 ∧ plain.active ifP1 ≠ 0 ∧
    (∃ j < 32, ∃ k < 32, bit (plain.active ifP1) j = true ∧ bit (plain.active ifP1) k = true ∧ plain.rd32 (.v 0) j ≠ plain.rd32 (.v 0) k) ∧
    (∃ k < 32, bit (plain.active ifP1) k = true ∧ 4 < bits (plain.rd32 (.lit 5) k) 2 0) ∧
    (∀ k < 32, bit ((thr [0] [fun k => BitVec.ofNat 32 (k % 3)] [] 0xF0).active ifP1) k = true → bits ((thr [0] [fun k => BitVec.ofNat 32 (k % 3)] [] 0xF0).rd32 (.v 0) k) 31 3 = 0 ∧
      bits ((thr [0] [fun k => BitVec.ofNat 32 (k % 3)] [] 0xF0).rd32 (.v 0) k) 1 0 ≠ 3) := by
  simp only [State.atSlot]; decide

/-- A function but FSQRT of a finite operand, whose result is exact (R151). -/
theorem run_exact {f : Fun1} {m : FMode} {fmt : Fmt} {code n d : Nat} {neg : Bool} (hf : f ≠ .sqrt) (h : m.read fmt code = (.fin neg n d, 0))
    (hs : f.special (.fin neg n d) = none) (hx : f.exact fmt neg n d (f.value neg n d) = true) :
    f.run m fmt code = roundTo fmt .rne m.sat (m.flush fmt) (fmt.unbounded (roundTo fmt .rne false false (f.value neg n d)).1) := by
  simp [Fun1.run, h, hs, hf, Fun1.approx, hx]

/-- FunctionBounds: the operand 1.0, whose square root, 2^1.0 and logarithm the statement speaks of, and whose 2^1.0 is a normal number. -/
theorem test_hyps_bounds : plain.fmodeArith.read fmtF32 0x3F800000 = (.fin false (2 ^ 23) (2 ^ 23), 0) ∧ 0 < 2 ^ 23 ∧ 2 ^ 23 = 1 * 2 ^ 23 ∧
    (∀ j : Nat, (0 ≤ (0 : Int) ∧ (0 : Int) = j → 2 ^ 23 = 2 ^ j * 2 ^ 23) ∧ ((0 : Int) < 0 ∧ (0 : Int) = -(j : Int) → 2 ^ j * 2 ^ 23 = 2 ^ 23)) ∧
    Fun1.special .exp2 (.fin false (2 ^ 23) (2 ^ 23)) = none ∧ plain.fmodeArith.flush fmtF32 = false ∧
    (match Fun1.value .exp2 false (2 ^ 23) (2 ^ 23) with | .fin s _ _ => !s | _ => false) = true ∧
    Fun1.run .exp2 plain.fmodeArith fmtF32 0x3F800000 = (0x40000000, 0) ∧ 0x40000000 % 2 ^ 31 < fmtF32.maxCode ∧
    (match (fmtF32.decode false 0x40000000).1 with | .fin s _ _ => !s | _ => false) = true := by
  refine ⟨by decide +kernel, by decide, by decide, fun j => ⟨fun h => ?_, fun h => absurd h.1 (by decide)⟩, by decide, by decide, by decide +kernel,
    (run_exact (by decide) (by decide +kernel) (by decide) (by decide +kernel : Fun1.exact .exp2 fmtF32 false (2 ^ 23) (2 ^ 23) _ = true)).trans (by decide +kernel),
    by decide, by decide +kernel⟩
  obtain rfl : j = 0 := by omega
  rfl

/-! ### A machine with one resident beam -/

/-- A context with a lantern table and a pending vector 5, a launch of one role of one ray, its entry, and its beam. -/
def ctx0 : Ctx :=
  { fn := 0, flCount := 16, flBase := 0, saveSize := 1024, save := 0x100000, lntab := 0x10000, rbt := 0, rbtn := 0, waitLim := 31
    frontLim := 20, slice := 1, maxPri := 3, dq := none, root := 0x4000, faulted := false, cut := false, suspended := false, serials := 1, lnmask := 0, maskAt := (0, 0, 0)
    lnpend := 0x20, vecs := [(5, ⟨2, 7, true⟩)], rooms := [] }
def hdr0 : Header :=
  { roles := [⟨0x40, 1, 8⟩], depth := 4, idem := true, gang := 1, mode := 0, expect := 0, codeOfs := 0x100, codeSize := 0x1000, nsel := 0, bindings := [] }
def entry0 : Entry := { Entry.fresh 3 with state := .running, winOfs := 0x40000, winSize := 0x8000 }
def launch0 : Launch :=
  { ctx := 0, queue := 0, b := false, child := false, takenAt := 0, pri := 1, begun := true, isOver := false, serial := 0, kernel := 0x20000
    params := 0x30000, plist := 0, nent := 2, compl := 0, signal := 0, hsrc := false, aux := 0, bad := false, pmap := 0, thrb := 0, report := 0
    srcBase := 0, status := 0, header := hdr0, regions := [], nextPos := 1, entries := [(0, entry0)], merge := [], acquired := [], coresUsed := [] }
def beam0 : Beam :=
  { ctx := 0, core := 0, cluster := 0, rays := [0], h := List.replicate 16 0, hAt := [], bars := List.replicate 8 ⟨1, 0, 0⟩, arrAt := (0, 0), allow := 1, gangPos := 0
    winOfs := 0x40000, winSize := 0x8000, pageIdx := 3, retry := 0, codeBase := 0x20100, streams := 0, choice := none, cause := none, result := 0, halted := false }

/-- Ray 0 of core 0 with its beam, launch and context: bank 0 is SCRATCH and bank 1 FIFO of the context, the page at 0 is translated to
itself, and the window lies at 0x40000. -/
def resident (r : Ray) : State :=
  { State.reset with
    cur := .ray 0 0
    cores := [(0, { Core.reset with rays := [(0, r)], tlb := [⟨0, 0, 0x10000, 0, false, false, true⟩] })]
    clusters := [(0, { Cluster.reset with banks := [(0, ⟨.scratch, some 0, false, false, 0, 0, 0⟩), (1, ⟨.fifo, some 0, false, false, 0, 5, 5⟩),
      (2, ⟨.scratch, none, true, false, 0, 0, 0⟩)], windows := [⟨0x40000, 0x8000, 0, 0, false⟩] })]
    ctxs := [(0, ctx0)], launches := [(0, launch0)], beams := [(beamKey 0 0, beam0)], nextLaunch := 1 }
/-- A ray of the plain thread. -/
def ray0 : Ray := Ray.release plain 0 0 0 0 0 0
def home : State := resident ray0
/-- A ray of a thread with words in its scalar registers, every lane in v0 to v3 its number. -/
def rayS (ss : List DWord) : Ray := Ray.release (thr [0, 0, 0] [fun k => BitVec.ofNat 32 k, fun k => BitVec.ofNat 32 (8 * k), fun _ => 8, fun _ => 0x44] ss 0xF0) 0 0 0 0 0 0
def homeS (ss : List DWord) : State := resident (rayS ss)

/-! ### Hypotheses of the statements about control transfers, special registers, traps and lanterns -/

/-- ReleaseValues: a landed beam that fits is placed. -/
theorem test_hyps_release : (({ home with cores := [] }).placeBeam 0 0 launch0 entry0).isSome = true := by decide

/-- ControlResults: levels below the depth and above 0, register targets aligned and within the code span. -/
theorem test_hyps_control :
    (home.atSlot plain (.bra ifP1 5) ∧ home.atSlot plain (.call ifP1 5) ∧ home.atSlot plain (.ret ifP1) ∧ home.atSlot plain (.exit ifP1)) ∧
    ((homeS []).atSlot (rayS []).th (.brx ifP1 (.v 3)) ∧ (homeS []).atSlot (rayS []).th (.callx ifP1 (.v 3)) ∧ home.inHandler = false) ∧
    ((∀ k < 32, bit (plain.active ifP1) k = true → levelOf plain k < plain.depth) ∧
    (∀ k < 32, bit ({ plain with level := laneTab fun _ => 4 }.active ifP1) k = true → levelOf { plain with level := laneTab fun _ => 4 } k ≠ 0)) ∧
    (∀ k < 32, bit ((rayS []).th.active ifP1) k = true → ((rayS []).th.rd32 (.v 3) k).toNat % 4 = 0 ∧ ((rayS []).th.rd32 (.v 3) k).toNat < (rayS []).th.span ∧
      levelOf (rayS []).th k < (rayS []).th.depth ∧ (rayS []).th.marked false (.v 3) k = false) := by
  simp only [State.atSlot]; decide

/-- ControlTraps: levels at the depth and at 0, a target that is not aligned, a ray inside a lantern handler and one outside. -/
theorem test_hyps_control_traps :
    (∃ k < 32, bit ({ plain with level := laneTab fun _ => 16 }.active ifP1) k = true ∧
      ¬ levelOf { plain with level := laneTab fun _ => 16 } k < { plain with level := laneTab fun _ => 16 }.depth) ∧
    (∃ k < 32, bit (plain.active ifP1) k = true ∧ ¬ levelOf plain k ≠ 0) ∧
    (∃ k < 32, bit ((rayS []).th.active ifP1) k = true ∧ ¬ (((rayS []).th.rd32 (.v 0) k).toNat % 4 = 0 ∧ ((rayS []).th.rd32 (.v 0) k).toNat < (rayS []).th.span)) ∧
    (resident { ray0 with lantern := { LanternSave.none with inHandler := true } }).inHandler = true ∧ plain.active ifP1 ≠ 0 ∧
    ray0.lantern.inHandler = false ∧ home.curRay = some (0, 0, ray0) := by decide

/-- YieldAndReturn, SystemResults: a ray that executes with an active lane, with none, and in a handler. -/
theorem test_hyps_system : home.executes 0 0 ray0 ∧ plain.active ifP1 ≠ 0 ∧ plain.active ⟨true, 7⟩ = 0 ∧ ray0.th.clause = some (clauseOf [0, 0, 0]) ∧
    (∃ r, (resident { ray0 with lantern := { LanternSave.none with inHandler := true } }).executes 0 0 r ∧ r.lantern.inHandler = true) :=
  ⟨⟨rfl, rfl⟩, by decide, by decide, rfl, _, ⟨rfl, rfl⟩, rfl⟩

/-- MfsResults: a resident ray reads %lnpend of its context, a threshold register and %bankmode. -/
theorem test_hyps_mfs : home.executes 0 0 ray0 ∧ home.beam ray0.l ray0.pos = some beam0 ∧ SMap.get? home.ctxs (home.ctxOf ray0.l) = some ctx0 ∧
    home.tokenWait (.mfs ifP1 (.v 0) 0x21) = none ∧ home.tokenWait (.mfs ifP1 (.s 23) 0x28) = none ∧
    (0x21#7, (if ctx0.lntab = 0 then 0 else ctx0.lnpend)) ∈ sharedSpecials home 0 ray0 beam0 ctx0 :=
  ⟨⟨rfl, rfl⟩, by decide +kernel, by decide +kernel, by decide, by decide, by simp [sharedSpecials]⟩

/-- MtsResults: operands of each register: a rounding mode at its end and a reserved one, and a bank selection. -/
theorem test_hyps_mts : home.executes 0 0 ray0 ∧ home.atSlot ray0.th (.mts ifP1 0x02 (.v 0)) ∧ home.atSlot ray0.th (.mts ifP1 0x28 (.s 0)) ∧
    (∀ k < 32, bit (ray0.th.active ifP1) k = true → ray0.th.marked false (.v 0) k = false ∧ ray0.th.marked true (.s 0) k = false) ∧
    lowest (ray0.th.active ifP1) = some 4 ∧ bits (ray0.th.rd32 (.v 0) 4) 2 0 ≤ 4 ∧ 4 < bits (ray0.th.rd32 (.v 1) 4) 2 0 ∧
    bits (ray0.th.rd64 false (.s 0) 4) 63 62 = 0 ∧ ray0.th.active ⟨true, 7⟩ = 0 :=
  ⟨⟨rfl, rfl⟩, ⟨rfl, by decide⟩, ⟨rfl, by decide⟩, by decide, by decide, by decide, by decide, by decide, by decide⟩

/-- MtsResults: a ray whose clause has written threshold register 3, with and without a later write of a higher ray. -/
theorem test_hyps_threshold : let r : Ray := { ray0 with th := { plain with clause := some { clauseOf [0] with hset := [(3, 7)] } } }
    (resident r).ray 0 0 = some r ∧ (resident r).beam r.l r.pos = some beam0 ∧ 3 < beam0.h.length ∧ SMap.get? beam0.hAt 3 = none ∧
    SMap.get? ({ beam0 with hAt := [(3, (0, 9))] } : Beam).hAt 3 = some ((resident r).clock, 9) ∧ r.rayId < 9 := by decide +kernel

/-- BankSwitchIssue: a SWITCH of the last bank to FIFO, and illegal ones: a reserved operation, a token beyond 23, a range beyond bank 63. -/
theorem test_hyps_bank_switch : switchLegal 0x400000020000003F ∧ ray0.pend.contains (bits (0x400000020000003F : DWord) 44 40) = false ∧
    switchIllegal 0x8000000000000000 ∧ switchIllegal 0x4000180000000000 ∧ switchIllegal 0x400000000000013F ∧
    (homeS [0x400000020000003F]).executes 0 0 (rayS [0x400000020000003F]) ∧ (homeS [0x400000020000003F]).atSlot (rayS [0x400000020000003F]).th (.mts ifP1 0x28 (.s 0)) ∧
    lowest ((rayS [0x400000020000003F]).th.active ifP1) = some 4 ∧ (rayS [0x400000020000003F]).th.rd64 false (.s 0) 4 = 0x400000020000003F ∧
    (∀ k < 32, bit ((rayS [0x400000020000003F]).th.active ifP1) k = true → (rayS [0x400000020000003F]).th.marked true (.s 0) k = false) :=
  ⟨by unfold switchLegal; decide, by decide, by unfold switchIllegal; decide, by unfold switchIllegal; decide, by unfold switchIllegal; decide,
    ⟨rfl, rfl⟩, ⟨rfl, by decide⟩, by decide, rfl, by decide⟩

/-- BankSteps: a switch of bank 3 that nothing holds up, a CACHE bank to take and a window bank without a window to return. -/
theorem test_hyps_bank_steps :
    let s : State := { home with clusters := [(0, { home.cluster 0 with switches := [⟨0, 0, 0, 0, some 3, .fifo, some 0, false, [3]⟩] })] }
    let w : Switch := ⟨0, 0, 0, 0, some 3, .fifo, some 0, false, [3]⟩
    (((s.cluster 0).switches.find? fun w => w.banks.head? == some 3) = some w ∧ s.bankBusy 0 3 = false ∧ w.banks = [3]) ∧
    (((home.cluster 0).bank 3).sw = false ∧ ((home.cluster 0).bank 3).mode = .cache ∧ 8 ≤ (home.cluster 0).cacheAfter [3] .scratch) ∧
    ({ home.cluster 0 with windows := [] }.bank 2).sw = false ∧ ({ home.cluster 0 with windows := [] }.bank 2).mode = .scratch ∧
    ({ home.cluster 0 with windows := [] }.bank 2).win = true := by decide

/-- TrapEntry, Termination: the ray is resident, has no failures due, and its beam is too. -/
theorem test_hyps_trap : home.ray 0 0 = some ray0 ∧ ray0.dueStore = [] ∧ ray0.dueWb = [] ∧ home.beam 0 0 = some beam0 ∧
    (∃ (s : State) (x : Stream) (c : Clause), s.cur = .stream 0 ∧ (s.cluster 0).stream = some x ∧ x.th.clause = some c) :=
  ⟨rfl, rfl, rfl, rfl, State.reset.withFetchWord 64 0x69F80000FEFFFE7C |>.core 0 |> fun _ => { State.reset.withFetchWord 64 0x69F80000FEFFFE7C with cur := .stream 0 },
    _, _, rfl, rfl, rfl⟩

/-- LanternSend: a legal descriptor, one with a reserved bit, and an answered wait. -/
theorem test_hyps_lnsend : (homeS [0, 0x2000000000]).executes 0 0 (rayS [0, 0x2000000000]) ∧
    (homeS [0, 0x2000000000]).atSlot (rayS [0, 0x2000000000]).th (.lnsend ifP1 (.v 0) (.s 0) (.s 1)) ∧
    lowest ((rayS [0, 0x2000000000]).th.active ifP1) = some 4 ∧ bits ((rayS [0, 0x2000000000]).th.rd64 false (.s 0) 4) 63 37 = 0 ∧
    bits ((rayS [0, 0x2000000000]).th.rd64 false (.s 1) 4) 63 37 ≠ 0 ∧ (rayS [0, 0x2000000000]).stall = none ∧
    (∀ k < 32, bit ((rayS [0, 0x2000000000]).th.active ifP1) k = true → ∀ o ∈ [Opnd.s 0, .s 1], (rayS [0, 0x2000000000]).th.marked true o k = false) ∧
    (resident { rayS [0] with stall := some (.answered 2) }).ray 0 0 = some { rayS [0] with stall := some (.answered 2) } :=
  ⟨⟨rfl, rfl⟩, ⟨rfl, by decide⟩, by decide, by decide, by decide, rfl, by decide, rfl⟩

/-- LanternClear: vectors 5 and 4, both below 64, and 64. -/
theorem test_hyps_lnclr : home.executes 0 0 ray0 ∧ home.atSlot ray0.th (.lnclr ifP1 (.s 4) (.v 1)) ∧ ray0.pend.contains 4 = false ∧ ray0.pend.contains 5 = false ∧
    SMap.get? home.ctxs (home.ctxOf ray0.l) = some ctx0 ∧ lowest (ray0.th.active ifP1) = some 4 ∧ (ray0.th.rd32 (.v 1) 4).toNat ≤ 63 ∧
    (∀ k < 32, bit (ray0.th.active ifP1) k = true → ray0.th.marked false (.v 1) k = false ∧ ray0.th.marked false (.lit 64) k = false) ∧
    63 < (ray0.th.rd32 (.lit 64) 4).toNat :=
  ⟨⟨rfl, rfl⟩, ⟨rfl, by decide⟩, by decide, by decide, rfl, by decide, by decide, by decide, by decide⟩

/-! ### Hypotheses of the statements about memory -/

/-- Addresses: scratchpad 0, global 0, the FIFO bank 1, and 4096 of global memory beyond the translated page. -/
def addrs : List DWord := [0x0100000000000000, 0, 0x0200000000000001, 0x20000]
def rowLd (a : Opnd) : MemRow := ⟨.ldZ32 ifP1 (.v 0) a 1 (.scaled 0), 4, .scaled 0, true, true, false, false, [(a, true)], .load false 4 0, fun _ _ => 0⟩

/-- A scalar operand's effective address is its register's value in every lane. -/
theorem effective_scalar (t : Thread) (n : Fin 24) (size k : Nat) (x : DWord) (h : SMap.get t.s 0 n.val = x) :
    effective t (.s n) (.scaled 0) size k = x := by
  subst h; simp [effective, Thread.rd64]

/-- MemoryIssue: a load from scratchpad, from global memory and from a FIFO bank. -/
theorem test_hyps_memory_issue : (homeS addrs).executes 0 0 (rayS addrs) ∧ (∀ n : Fin 24, (homeS addrs).atSlot (rayS addrs).th (rowLd (.s n)).i) ∧
    (∀ n : Fin 24, rowLd (.s n) ∈ memRows ifP1 (.v 0) (.s n) 1 (.scaled 0) .zero 0 4 1 0 0 false false) ∧ (rayS addrs).th.active ifP1 ≠ 0 ∧
    (∀ n : Fin 24, (rayS addrs).th.clean ifP1 true [.s n]) ∧ ((homeS addrs).core 0).recs.length ≠ 16 ∧
    ∀ n : Fin 24, ∀ p : Place, (n, p) ∈ [((0 : Fin 24), Place.scratch 0), (1, .phys false 0 false), (2, .fifo 1)] → inActive (rayS addrs).th ifP1 fun k =>
      let x := effective (rayS addrs).th (.s n) (.scaled 0) 4 k
      spaceOk (homeS addrs) 0 (rayS addrs) true true x ∧ alignOk 4 x ∧ reachOk (homeS addrs) (rayS addrs) 4 x ∧
      placeIs (homeS addrs) 0 (rayS addrs) 4 false x p := by
  refine ⟨⟨rfl, rfl⟩, fun n => ⟨rfl, by revert n; decide⟩, fun n => by simp [memRows, rowLd, accessSize], by decide, fun n => ?_, by decide, ?_⟩
  · intro k _ _ o ho
    obtain rfl : o = .s n := by simpa using ho
    rfl
  · intro n p hp k _ _
    simp only [List.mem_cons, Prod.mk.injEq, List.mem_nil_iff, or_false] at hp
    obtain ⟨rfl, rfl⟩ | ⟨rfl, rfl⟩ | ⟨rfl, rfl⟩ := hp
    · rw [effective_scalar _ 0 4 k 0x0100000000000000 (by decide)]
      exact ⟨.inr (.inl (by decide)), .inr (by decide), fun _ => by decide, .inl (by decide)⟩
    · rw [effective_scalar _ 1 4 k 0 (by decide)]
      exact ⟨.inl (by decide), .inr (by decide), fun h => absurd h (by decide), .inr (.inr ⟨by decide, ⟨0, 0, 0x10000, 0, false, false, true⟩, by decide,
        by decide, by decide, by decide⟩)⟩
    · rw [effective_scalar _ 2 4 k 0x0200000000000001 (by decide)]
      exact ⟨.inr (.inr (by decide)), .inl (by decide), fun h => absurd h (by decide), .inr (.inl (by decide))⟩

/-- MemoryChecks: a reserved space, an address that is not aligned, one out of reach; TranslationMiss: a page not translated. -/
theorem test_hyps_memory_checks : lowest (0xF0 : Mask) = some 4 ∧
    failing (rayS [0x0400000000000000]).th ifP1 0xF0 (fun k => spaceOk (homeS []) 0 (rayS []) true true (effective (rayS [0x0400000000000000]).th (.s 0) (.scaled 0) 4 k)) ∧
    failing (rayS [2]).th ifP1 0xF0 (fun k => alignOk 4 (effective (rayS [2]).th (.s 0) (.scaled 0) 4 k)) ∧
    failing (rayS [0x0100000000080000]).th ifP1 0xF0 (fun k => reachOk (homeS []) (rayS []) 4 (effective (rayS [0x0100000000080000]).th (.s 0) (.scaled 0) 4 k)) := by
  have act (x : DWord) : (rayS [x]).th.active ifP1 = 0xF0 := (show _ = (rayS []).th.active ifP1 from rfl).trans (by decide)
  refine ⟨by decide, fun k hk => ?_, fun k hk => ?_, fun k hk => ?_⟩ <;> rw [act] <;>
    refine ⟨fun h => ⟨h, ?_⟩, fun h => h.1⟩ <;> dsimp only <;> rw [effective_scalar _ 0 4 k _ rfl]
  · rintro (h | h | h)
    · exact absurd h (by decide)
    · exact absurd h.1 (by decide)
    · exact absurd h.1 (by decide)
  · rintro (h | h) <;> exact absurd h (by decide)
  · intro h; exact absurd (h (by decide)) (by decide)
theorem test_hyps_miss : bits (0x20000 : DWord) 63 56 = 0 ∧ alignOk 4 0x20000 ∧ SMap.get (rayS addrs).th.s 0 3 = 0x20000 ∧
    ((homeS addrs).core 0).tlbFind ((homeS addrs).ctxOf (rayS addrs).l) 0x20000 = none ∧ (rayS addrs).unresolved = [] :=
  ⟨by decide, .inr (by decide), by decide, by decide, rfl⟩

/-- An operation of the ray on dc1, of the scratchpad word at 0 or at another place, in lane 4 or in lanes 4 to 7. -/
def opOf (act : Mask) (p : Place) (kind : OpKind) : Op :=
  { (homeS addrs).newOp 0 0 (rayS addrs) (rowLd (.s 0)).i (some 1) (.v 0) act (laneTab fun _ => 0x0100000000000000)
      (laneTab fun k => if bit act k then p else .off) (laneTab fun _ => 7) kind with pc := 0x44 }
/-- The core with one operation. -/
def withOp (o : Op) : State := let s := homeS addrs
  { s with cores := [(0, { s.core 0 with ops := [o], nextOp := 1 })] }

/-- IssueEffect, CountersInOrder: a fresh load on dc1, with no operation before it. -/
theorem test_hyps_issue : let o := opOf 0xF0 (.scratch 0) (.load false 4 0)
    (homeS addrs).executes 0 0 (rayS addrs) ∧ o.dc = some 1 ∧ 1 < (rayS addrs).dc.length ∧ o.done = false ∧ o.counted = false ∧ o.isOver = false ∧
    (∀ p ∈ ((homeS addrs).core 0).ops, p.done = false ∧ p.isOver = false) ∧ (rayS addrs).th.clause ≠ none ∧
    ((withOp { o with done := true }).core 0).ops[0]? = some { o with done := true } ∧
    (∀ p ∈ ((withOp { o with done := true }).core 0).ops, p.counted = true → p.done = true) :=
  ⟨⟨rfl, rfl⟩, by decide, by decide, by decide, by decide, by decide, by decide, by decide, by decide, by decide⟩

/-- LoadCompletes, StoreCompletes, AtomicCompletes, FifoCompletes: operations that run, in scratchpad, in global memory and at a FIFO
bank with 5 elements. -/
theorem test_hyps_completes :
    (∀ k ∈ [OpKind.load false 5 0, .ldres true, .store false 6 0, .stcon false, .atom 1 0 7 false], let o := opOf 0xF0 (.scratch 0) k
      ((withOp o).core 0).op 0 = some o ∧ o.done = false ∧ ((withOp o).core 0).mayPerform o = true ∧ o.checked = false ∧ o.fifo = false ∧ o.act ≠ 0) ∧
    (∀ k ∈ [OpKind.load false 4 0, .store true 4 0, .store false 4 0], let o := opOf 0x10 (.phys false 0x100 false) k
      ((withOp o).core 0).op 0 = some o ∧ o.done = false ∧ ((withOp o).core 0).mayPerform o = true ∧ o.checked = false ∧ o.fifo = false ∧ o.act ≠ 0 ∧
      o.act = BitVec.ofNat 32 (2 ^ 4) ∧ o.place.getD 4 .off = .phys false 0x100 false ∧ firstGlobal o = some 4 ∧ 0x100 % accessSize 4 = 0) ∧
    (∀ k ∈ [OpKind.load false 4 0, .store false 4 0], let o := opOf 0xF0 (.fifo 1) k
      ((withOp o).core 0).op 0 = some o ∧ o.done = false ∧ ((withOp o).core 0).mayPerform o = true ∧ o.act ≠ 0 ∧ o.accepted = false ∧ o.failed = 0 ∧
      (∀ k < 32, o.place.getD k .off = if bit o.act k then .fifo 1 else .off) ∧
      maskCount o.act ≤ (((withOp o).cluster 0).bank 1).count ∧ (((withOp o).cluster 0).bank 1).count + maskCount o.act ≤ 32768 ∧
      ∀ p ∈ ((withOp o).core 0).ops, p.id < o.id → False) := by decide

/-- An atomic on one scratchpad word and one on two. -/
theorem test_hyps_atomics :
    (let o := opOf 0x10 (.scratch 0) (.atom 1 0 7 false); o.locations.length ≤ 1 ∧ o.act = BitVec.ofNat 32 (2 ^ 4) ∧ o.place.getD 4 .off = .scratch 0 ∧ o.served = 0 ∧ o.olds = []) ∧
    (let o := { opOf 0x30 (.scratch 0) (.atom 1 0 7 false) with place := (laneTab fun k => if k = 4 then .scratch 0 else if k = 5 then .scratch 4 else .off) }
     1 < o.locations.length ∧ ((withOp o).core 0).op 0 = some o ∧ o.done = false ∧ ((withOp o).core 0).mayPerform o = true) := by decide

/-- The lanes of a store all in scratchpad, aligned, and one that holds its reservation; the host's memory for a context that keeps its
trust; the ray of a store that an error meets (StoreCompletes). -/
theorem test_hyps_stores : lanesIn (opOf 0xF0 (.scratch 0) (.store false 4 0)) (fun p => ∃ a, p = .scratch a ∧ a % 4 = 0) ∧
    ({ rayS addrs with resv := laneTab fun _ => some ⟨true, false, 0⟩ }.resv.getD 4 none = some ⟨true, false, 0 / 64 + 0 / 4 * 2 ^ 32⟩) ∧
    (∃ c, SMap.get? (withOp (opOf 0x10 (.phys true 0x100 false) (.store true 4 0))).ctxs 0 = some c ∧ c.cut = false) ∧
    (let o := opOf 0x10 (.phys false 0x100 false) (.store false 4 0)
     (withOp o).ray 0 o.rslot = some (rayS addrs) ∧ (rayS addrs).l = o.l ∧ (rayS addrs).pos = o.pos ∧ (rayS addrs).th.live ≠ 0) := by
  refine ⟨fun k hk h => ⟨0, ?_⟩, by decide, ⟨ctx0, rfl, rfl⟩, by decide +kernel⟩
  revert k; decide

/-- SynchronisationCompletes: an ACQ and a REL of a bound object whose beam is resident, and a FENCE. -/
theorem test_hyps_sync : let l : Launch := { launch0 with regions := [⟨0x8000, 0x1000, 0x100, 3⟩] }
    (∀ k ∈ [OpKind.acq, .rel], let o := { opOf 0x10 (.phys false 0x100 false) k with ea := laneTab fun _ => 0x100 }
      let s : State := { withOp o with launches := [(0, l)] }
      (s.core 0).op 0 = some o ∧ o.done = false ∧ (s.core 0).mayPerform o = true ∧ s.objectOf o = some (0x100, 0x100, 3, 3) ∧ s.relWaits 0 o 0x100 = false) ∧
    (withOp (opOf 0x10 .off (.fence 3))).fenceWaits 0 (opOf 0x10 .off (.fence 3)) = false ∧
    ((withOp (opOf 0x10 .off (.fence 3))).core 0).op 0 = some (opOf 0x10 .off (.fence 3)) := by decide +kernel

/-- Page tables of 64 KiB pages for the address 0x10000: tables at 0x4000, 0x5000, 0x6000 and 0x7000, the page at 0x30000, writable. -/
def tables : Mem := (Mem.writeBytes (Mem.writeBytes (Mem.writeBytes (Mem.writeBytes [] 0x4000 (leBytes 8 0x5005)) 0x5000 (leBytes 8 0x6005)) 0x6000
  (leBytes 8 0x7005)) 0x7008 (leBytes 8 0x30007))
def mapped : State := { home with hbm := tables }

/-- DIRTY_WRITE_BACK: a sector of a page that is still writable, and one of a page that no translation writes. -/
def tag0 (va : Nat) : StoreTag := ⟨0, 0, 0, 0, 0, 0, 0, 0x44, va⟩
def dirtyL1 (t : StoreTag) : State := { mapped with cores := [(0, { mapped.core 0 with l1 := ⟨[(0x30000, (7, true))], [(0x300, t)], [0xC0]⟩ })] }
theorem test_hyps_write_back : writable (dirtyL1 (tag0 0x10000)) (some (tag0 0x10000)) 0x300 ∧ readOnly (dirtyL1 (tag0 0x20000)) (tag0 0x20000) ∧
    ((dirtyL1 (tag0 0x20000)).core 0).l1.dirty 0x300 ≠ [] ∧ (dirtyL1 (tag0 0x20000)).poison = [] ∧
    (∀ t, SMap.get? (((dirtyL1 (tag0 t)).core 0).l1).tags 0x300 = some (tag0 t)) ∧
    SMap.get? ((dirtyL1 (tag0 0)).core 0).l1.bytes (256 * 0x300 + 0) = some (7, true) := by
  refine ⟨fun t h => ?_, ⟨fun e h => ?_, fun e h => ?_⟩, by decide +kernel, rfl, fun t => rfl, by decide +kernel⟩
  · obtain rfl := Option.some.inj h
    exact ⟨⟨0, 0x10000, 0x10000, 0x30000, false, false, true⟩, by decide +kernel, rfl, by decide +kernel⟩
  · rw [show (dirtyL1 (tag0 0x20000)).walk (tag0 0x20000).ctx (tag0 0x20000).va = none by decide +kernel] at h; cases h
  · rw [show ((dirtyL1 (tag0 0x20000)).core (tag0 0x20000).core).tlbFind (tag0 0x20000).ctx (tag0 0x20000).va = none by decide +kernel] at h; cases h

/-- StoreFaults: a store that failed in lane 4, with and without its ray's event awaited; a write-back that waits for a slot; rays with a
failure due at a boundary, with its slot and without one; a late event of another source, and of the same. -/
theorem test_hyps_store_faults : let o := { opOf 0x10 (.bad 0x70) (.store false 4 0) with checked := true, failed := 0x10 }
    let due (j : Option Nat) : Ray := { rayS addrs with th := { (rayS addrs).th with clause := none, live := 1 }, dueStore := [⟨0, j, 0⟩] }
    let s1 (r : Ray) : State := { withOp o with cores := [(0, { (withOp o).core 0 with rays := [(0, r)] })] }
    let s2 : State := { homeS addrs with cores := [(0, { (homeS addrs).core 0 with wbWait := [(0, tag0 0)] })] }
    (∀ r ∈ [rayS addrs, { rayS addrs with dueStore := [⟨0, none, 0⟩], awaiting := true }], ((s1 r).core 0).op 0 = some o ∧ o.done = false ∧ o.checked = true ∧
      o.failed ≠ 0 ∧ o.recSlot = none ∧ (s1 r).ray 0 o.rslot = some r ∧ r.th.live ≠ 0 ∧ r.l = o.l ∧ r.pos = o.pos ∧ freeSlot ((s1 r).core 0) 0 ∧
      (r.awaiting = true → ∀ d ∈ r.dueStore.map fun d => if d.op = 0 then { d with slot := some 0 } else d, d.slot ≠ none)) ∧
    ((s2.core 0).op 0 = none ∧ (s2.core 0).wbWait = [(0, tag0 0)] ∧ freeSlot (s2.core 0) 0 ∧ s2.ray 0 (tag0 0).rslot = some (rayS addrs) ∧
      (rayS addrs).l = (tag0 0).l ∧ (rayS addrs).pos = (tag0 0).pos) ∧
    (∀ j ∈ [some 5, none], (resident (due j)).ray 0 0 = some (due j) ∧ (due j).parked = none ∧ (due j).th.clause = none ∧ (due j).th.live ≠ 0 ∧
      ((resident (due j)).ready 0 0 && (resident (due j)).entryTrap 0 (due j)) = false ∧ (due j).dueStore ≠ []) ∧
    (resident (rayS addrs)).ray 0 1 = none ∧ (∀ q, sourceOf 0x30000000000000#256 q → ¬ sourceOf 0#256 q) := by
  simp only [freeSlot]
  refine ⟨by decide +kernel, by decide +kernel, by decide +kernel, by decide +kernel, fun q h h' => ?_⟩
  have e1 : q = (0, 48) := h
  have e2 : q = (0, 0) := h'
  exact absurd (e1.symm.trans e2) (by decide)

/-! ### Hypotheses of the statements about engines, barriers, streams and translation -/

/-- A copy group from s1 on with its tile at scratchpad 0, and a page index in s6. -/
def copyArgs : List DWord := [0, 0x0100000000000000, 0, 1, 0x0001000100000000, 1, 3]

/-- CopyIssue: a copy whose record does not translate, a page copy to scratchpad 0 and to global 0, with 0 and with 16 copies. -/
theorem test_hyps_copies : let r := rayS copyArgs
    let s := homeS copyArgs
    s.executes 0 0 r ∧ lowest (r.th.active ifP1) = some 4 ∧ s.copies 0 < 16 ∧
    (∀ row ∈ copyRows ifP1 8 1 (.s 0) (.s 6) 1 false true 2 7 9 s 0 r 4, s.tokenWait row.i = none ∧ (∀ q ∈ row.regs, r.pend.contains q = false) ∧
      (∀ k < 32, bit (r.th.active ifP1) k = true → ∀ o ∈ row.marks, r.th.marked true o k = false) ∧ row.ok (r.th.rd64 false (.s 0) 4)) ∧
    r.pend.contains 8 = false ∧ r.th.active ⟨true, 7⟩ = 0 ∧
    (({ s with cores := [(0, { s.core 0 with ops := (List.range 16).map fun n => { opOf 0x10 .off (.copy (freshCopy .fread 8 none 0 0 [] 1 false false false)) with id := n } })] } : State).copies 0 = 16) := by
  refine ⟨⟨rfl, rfl⟩, by decide, by decide, fun row hrow => ?_, by decide, by decide, by decide⟩
  simp only [copyRows, List.mem_cons, List.mem_nil_iff, or_false] at hrow
  rcases hrow with rfl | rfl | rfl | rfl | rfl <;>
    refine ⟨by decide, by decide, by decide, ?_⟩ <;> simp only [tileOk] <;> decide +kernel

/-- WaitcResults: a token that is met in every lane, and one that is not. -/
theorem test_hyps_waitc : (rayS [1, 0xFF]).pendingAmong [.v 0, .s 1] = none ∧ tokenMet 0x80FF000000000000 0xFF ∧ tokenMet 3 3 ∧ ¬ tokenMet 1 3 := by
  simp only [tokenMet]; decide

/-- A stored tile of 2 positions and 1 channel group at scratchpad 0, spatial or of one level, and a ray of its references. -/
def tileAt (tag : Nat) (fmt : Nat) : Mem := let t := buildTile true tag fmt 1 1 (.fin false 0 1) fun c p => if p = 0 ∧ c = 0 then 0x3F800000 else 0
  Mem.writeBytes [] 0 (t.1.bytes ++ t.2)
def tileHome (tag : Nat) : State := let s := homeS [0x0100000100000000, 0x0100100000000000, 0x0100000000000000]
  { s with clusters := [(0, { s.cluster 0 with sram := tileAt tag 1 })] }

/-- TileIssue and TileCompletes: heads that obey the rules, with the tile's last unit, spatial and of one level. -/
theorem test_hyps_tiles : ∀ tag ∈ [0, 1], let s := tileHome tag
    let h := headOf ((s.cluster 0).sram.readBytes 0 128)
    headBad h.1 h.2 = false ∧ bits (0x0100000100000000 : DWord) 40 32 < h.1.units ∧ (h.1.tag % 8 = tag) ∧
    s.inReach 0 0 (128 + (h.1.span (tag == 1) 1).1) (h.1.span (tag == 1) 1).2 = true ∧ s.inReach 0 0 0 128 = true := by decide +kernel
theorem test_hyps_refs : refOk 0x0100000100000000 (BitVec.ofNat 64 (0x1FF * 2 ^ 32)) 128 ∧ refOk 0x0100080000000000 (BitVec.ofNat 64 (0x7FFF * 2 ^ 41)) 128 ∧
    refOk 0x0100000000000000 0 64 ∧ refOk 0x0100000000000200 0 512 ∧ shapeBad (bits (0x0100080000000000 : DWord) 55 48) (bits (0x0100080000000000 : DWord) 42 41) 1 1 = false ∧
    (tileHome 0).executes 0 0 (rayS [0x0100000100000000, 0x0100100000000000, 0x0100000000000000]) ∧ ownDone (tileHome 0) 0 0 0 128 ∧
    (∀ k < 32, bit ((rayS []).th.active ifP1) k = true → ∀ u < 2, (rayS []).th.vmark (0 + u) k = false) ∧
    (tileHome 0).inReach 0 0 0 (128 + 4096) = true ∧ (tileHome 0).rvState 0 64 ∈ [0, 3] :=
  ⟨by unfold refOk; decide, by unfold refOk; decide, by unfold refOk; decide, by unfold refOk; decide, by decide, ⟨rfl, rfl⟩, by unfold ownDone; decide,
    by decide, by decide, by decide +kernel⟩

/-- RendezvousIssue: objects that are idle, queued and ended; a FEED's word and registers without marks, and marked ones with a tag. -/
theorem test_hyps_rendezvous :
    (∀ v ∈ [0, 1, 2, 3], { homeS [] with clusters := [(0, { (homeS []).cluster 0 with sram := Mem.writeBytes [] 64 [BitVec.ofNat 8 v] })] }.rvState 0 64 = v) ∧
    (∀ k < 32, bit ((rayS []).th.active ifP1) k = true → (rayS []).th.rd32 (.lit 0x10) k = 0x10) ∧ bits 0x10#32 31 16 = 0 ∧ bits 0x10#32 7 6 = 0 ∧
    bits 0x10#32 3 3 = 0 ∧ bits 0x10#32 15 8 = 0 ∧ bits 0x112#32 10 8 ≠ 0 ∧ bits 0x112#32 10 8 ≠ 7 ∧ 0 + 8 ≤ (rayS []).th.allot ∧
    (∀ p ∈ ((homeS []).core 0).ops, p.id < ((homeS []).core 0).nextOp) ∧
    (let o := opOf 0x10 (.scratch 64) .join; o.kind = .join ∧ o.done = false ∧ lowest o.act = some 4 ∧ o.place.getD 4 .off = .scratch 64) := by
  refine ⟨by decide +kernel, by decide, by decide, by decide, by decide, by decide, by decide, by decide, by decide, by decide, by decide⟩

/-- BarrierResults: E of 1, 1024, 0 and 1025, a resident beam and its launch, and a phase that saturates. -/
theorem test_hyps_barrier : home.executes 0 0 ray0 ∧ home.launch ray0.l = some launch0 ∧ home.tokenWait (.barInit ifP1 (.lit 1024) 7) = none ∧
    lowest (ray0.th.active ifP1) = some 4 ∧ (ray0.th.rd32 (.lit 1) 4).toNat = 1 ∧ (ray0.th.rd32 (.lit 1024) 4).toNat = 1024 ∧ (ray0.th.rd32 .zero 4).toNat = 0 ∧
    1024 < (ray0.th.rd32 (.lit 1025) 4).toNat ∧ (∀ k < 32, bit (ray0.th.active ifP1) k = true → ray0.th.marked false (.lit 1024) k = false) ∧
    (0xFFFFFFFFFFFFFFFF#64).toNat = (if (0xFFFFFFFFFFFFFFFE#64).toNat + 1024 < 2 ^ 64 then 0 else 2 ^ 64 - 1) ∧ ray0.th.active ⟨true, 7⟩ = 0 :=
  ⟨⟨rfl, rfl⟩, by decide +kernel, by decide, by decide, by decide, by decide, by decide, by decide, by decide, by decide, by decide⟩

/-- SynchronisationIssue: a barrier address of the own context and of another, entry 1 and entries 0 and 2, a bound object and
an unbound one. -/
theorem test_hyps_sync_issue : let s : State := { homeS [0x0300000000000000, 0x100, 0x140] with launches := [(0, { launch0 with regions := [⟨0x8000, 0x1000, 0x100, 3⟩] })] }
    (bits (0x0300000000000000 : DWord) 63 56 = 3 ∧ bits (0x0300000000000000 : DWord) 55 46 = s.ctxOf 0 ∧ bits (0x0300400000000000 : DWord) 55 46 ≠ s.ctxOf 0) ∧
    (1 ≠ (rayS []).pos ∧ 1 < launch0.nent ∧ launch0.nent ≤ 2) ∧
    (s.regionsOf 0 0x100 ≠ [] ∧ s.regionsOf 0 0x140 = [] ∧ (s.core 0).tlbFind (s.ctxOf 0) 0x100 = some ⟨0, 0, 0x10000, 0, false, false, true⟩ ∧
      bits (0x100 : DWord) 63 56 = 0 ∧ (0x100 : DWord).toNat % 64 = 0 ∧ (s.core 0).recs.length ≠ 16 ∧ 0x100 + 64 ≤ 384 * 2 ^ 30) := by decide

/-- DrainResults: an STNT that is not performed, and none; a store that is not checked. -/
theorem test_hyps_drain : ((withOp (opOf 0x10 .off (.store true 4 0))).core 0).ops = [opOf 0x10 .off (.store true 4 0)] ∧ (opOf 0x10 .off (.store true 4 0)).done = false ∧
    (opOf 0x10 .off (.store true 4 0)).checked = false ∧ ((homeS []).core 0).ops = [] ∧
    (homeS []).executes 0 0 (rayS []) ∧ (rayS []).th.active ifP1 ≠ 0 :=
  ⟨by decide, by decide, by decide, by decide, ⟨rfl, rfl⟩, by decide⟩

/-- A stream of the resident beam that runs, with operands in m0 to m3 and two descriptors at scratchpad 0. -/
def fork0 : Fork := ⟨0, 0, 0, 0, 0, 0, 0, 0, 5, 0x40, 0x40⟩
def desc0 : Desc := ⟨0x3000000000000000, 0⟩
def stream0 : Stream :=
  { th := { Thread.ofFork fork0 0x1000 with m := [(0, 0x40000), (1, 0x0300000000000000), (2, 0), (3, 0x100)], clause := some (clauseOf [0, 0, 0]), p := [(1, 1)] }
    fork := fork0, state := .running, desc := [(0, desc0), (1, desc0)], status := 0, failPc := 0 }
def streaming (x : Stream) (cmds : List TileCmd) : State :=
  { home with cur := .stream 0, clusters := [(0, { home.cluster 0 with stream := some x, cmds := cmds })] }

/-- TileCommandIssue: operands, descriptors and a scope that hold, another scope, a full queue and a false guard. -/
theorem test_hyps_commands : streams (streaming stream0 []) 0 stream0 ∧ stream0.th.active ifP1 ≠ 0 ∧ stream0.th.active ⟨true, 7⟩ = 0 ∧
    (∀ row ∈ (seqRows ifP1 (.v 2) (.v 2) 2 true true 0 1 15 (streaming stream0 []) stream0 0 0 desc0 desc0).take 7, row.ok ∧ row.scope ∈ [2, 3, 4, 5]) ∧
    (∀ row ∈ (seqRows ifP1 (.v 1) (.v 1) 2 true true 0 1 15 (streaming stream0 []) stream0 0 0 desc0 desc0).drop 7, row.ok ∧ row.scope ∈ [2, 3, 4, 5]) ∧
    (∃ row ∈ seqRows ifP1 (.v 2) (.v 2) 1 true true 0 1 15 (streaming stream0 []) stream0 0 0 desc0 desc0, row.scope ∉ [2, 3, 4, 5]) ∧
    ((streaming stream0 []).cluster 0).cmds.length < 8 ∧ ((streaming stream0 (List.replicate 8 ⟨.mzero 0, 0, false, false⟩)).cluster 0).cmds.length = 8 := by
  refine ⟨⟨rfl, rfl⟩, by decide, by decide, fun row hrow => ?_, fun row hrow => ?_, ⟨_, .head _, by decide⟩, by decide, by decide⟩
  · simp only [seqRows, List.take, List.mem_cons, List.mem_nil_iff, or_false] at hrow
    rcases hrow with rfl | rfl | rfl | rfl | rfl | rfl | rfl <;> refine ⟨?_, by decide⟩ <;> simp only [descOk, offsetOf, inStream] <;> decide +kernel
  · simp only [seqRows, List.drop, List.mem_cons, List.mem_nil_iff, or_false] at hrow
    subst hrow; refine ⟨?_, by decide⟩; decide

/-- SequencerResults: a flag at 0 that has reached 0 and not 0x100, and one that is not aligned. -/
theorem test_hyps_sequencer : offsetOf (seqArg stream0 (.v 2)) 8 0 ∧ inStream (streaming stream0 []) stream0 0 8 ∧
    (seqArg stream0 (.v 2)).toNat ≤ (streaming stream0 []).scratchN 0 0 8 ∧ ¬ (seqArg stream0 (.v 3)).toNat ≤ (streaming stream0 []).scratchN 0 0 8 ∧
    bits (seqArg stream0 (.lit 4)) 22 0 % 8 ≠ 0 := by
  simp only [offsetOf, inStream]; decide

/-- RendezvousIssue, DrainResults, BarrierResults: a FORK whose ray has an STH to its object's bytes still to perform; a ray one of whose
stores has failed; a beam at whose barrier a higher ray has arrived in this clock. -/
theorem test_hyps_fork_own : let s := withOp (opOf 0x10 (.scratch 64) (.sth [1] [2]))
    let s1 := s.performOwn 0 0
    ¬ ownDone s 0 0 64 64 ∧ (∀ p ∈ (s.core 0).ops, p.id < (s.core 0).nextOp) ∧ s1.curRay.isSome = true ∧ ownDone s1 0 0 64 64 ∧
    (s1.curRay.map fun x => lowest (x.2.2.th.active ifP1)) = some (some 4) := by unfold ownDone; decide +kernel
theorem test_hyps_order : (let r : Ray := { rayS [] with dueStore := [⟨0, none, 0⟩] }; (resident r).executes 0 0 r ∧ r.th.active ifP1 ≠ 0 ∧ r.dueStore ≠ [] ∧
      r.parked = none ∧ ((resident r).core 0).ops = []) ∧
    (let b : Beam := { beam0 with arrAt := (0, 5) }; ({ home with beams := [(beamKey 0 0, b)] } : State).beam ray0.l ray0.pos = some b ∧
      b.arrAt.1 = home.clock ∧ ray0.rayId < b.arrAt.2) :=
  ⟨⟨⟨rfl, rfl⟩, by decide, by decide, rfl, by decide⟩, by decide +kernel⟩

/-! ### Hypotheses of the statements about events -/

/-- A ray at its clause boundary at offset 0x40, its code at global 0x140: a header of one slot and an IADD, or an illegal header. -/
def boundary : Ray := { ray0 with th := { plain with clause := none, vpc := laneTab fun _ => 0x40 } }
def codeAt (hdr : Nat) : State :=
  { resident boundary with beams := [(beamKey 0 0, { beam0 with codeBase := 0x100 })], hbm := Mem.writeBytes [] 0x140 (leBytes 4 hdr ++ leBytes 4 0x00E03E7C) }

/-- ClauseEntry: the choice of pipe 0 enters a clause that passes, and one whose header names no class. -/
theorem test_hyps_entry : ∀ hdr ∈ [0x10000000, 0x1E000000], let s := codeAt hdr
    SMap.get? (s.core 0).pipes 0 = none ∧ s.module.throttled = false ∧ s.chooseRay 0 0 = some 0 ∧ s.ray 0 0 = some boundary ∧
    boundary.rewritten = false ∧ boundary.th.issue = some 0x40 ∧ 0x40 + 4 ≤ boundary.th.span ∧
    (s.fetchWords 0 (s.ctxOf 0) (s.codeBase 0 0 + 0x40) 1).toOption = some [BitVec.ofNat 32 hdr] ∧
    (s.fetchWords 0 (s.ctxOf 0) (s.codeBase 0 0 + 0x44) (bits (BitVec.ofNat 32 hdr) 31 28)).toOption = some [0x00E03E7C#32] ∧
    clauseFail ⟨false, boundary.th.allot, boundary.th.span, 0x40, BitVec.ofNat 32 hdr⟩ [0x00E03E7C] = (if hdr = 0x10000000 then none else some (0, 0x01)) ∧
    boundary.th.clause = none ∧ (ray0.th.clause ≠ none ∧ home.chooseRay 0 0 = some 0) := by decide +kernel

/-- A ray that holds a DRAINST. -/
def held : Ray := { ray0 with th := { plain with clause := some (clauseOf (encode (.drainst always))) }, stall := some .drain }
/-- IssueEvents: a clock past a YIELD's, and waits that are over. -/
theorem test_hyps_stalls : ({ ray0 with yieldAt := 0 } : Ray).yieldAt + 64 ≤ ({ home with clock := 64 } : State).clock ∧
    stallEnds home 0 0 { ray0 with stall := some (.token 3) } ∧ stallEnds home 0 0 { ray0 with stall := some .copyRoom } ∧
    stallEnds home 0 0 { ray0 with stall := some .recordSlots } ∧ held.heldInstr = some (.drainst always) ∧ ((resident held).core 0).oldestUnchecked 0 = none := by
  simp only [stallEnds]; decide

/-- PageTableWalk: four valid entries, the last a leaf; a leaf of 1 GiB at level 1 and one of 2 MiB at level 2; a first entry that is not valid. -/
def leafAt (a n e : Nat) : State := { home with hbm := Mem.writeBytes tables a (leBytes n e) }
theorem test_hyps_walk : SMap.get? mapped.ctxs 0 = some ctx0 ∧ onTheWay mapped ctx0 0x10000 [0x5005, 0x6005, 0x7005, 0x30007] ∧ entryOk 0x30007 ∧ nbits 0x30007 1 1 = 1 ∧
    nbits 0x30007 51 8 * 256 % 2 ^ 16 = 0 ∧ onTheWay (leafAt 0x5000 8 0x40000007) ctx0 0x10000 [0x5005, 0x40000007] ∧ entryOk 0x40000007 ∧ nbits 0x40000007 51 8 * 256 % 2 ^ 30 = 0 ∧
    onTheWay (leafAt 0x6000 8 0x200007) ctx0 0x10000 [0x5005, 0x6005, 0x200007] ∧ entryOk 0x200007 ∧ nbits 0x200007 51 8 * 256 % 2 ^ 21 = 0 ∧ nbits 0x40000107 51 8 * 256 % 2 ^ 30 ≠ 0 ∧
    onTheWay home ctx0 0x10000 [0] ∧ ¬ entryOk 0 := by
  have way (s : State) (es : List Nat) (h : es.length ≤ 4 ∧ ((List.range es.length).all fun j =>
      es.getD j 0 == s.homeN ((if j = 0 then ctx0.root else nbits (es.getD (j - 1) 0) 51 8 * 256) + 8 * tableIndex 0x10000 j) 8 &&
      (decide (es.length ≤ j + 1) || (nbits (es.getD j 0) 0 0 == 1 && nbits (es.getD j 0) 3 3 == 0 && nbits (es.getD j 0) 7 6 == 0 &&
        nbits (es.getD j 0) 63 52 == 0 && nbits (es.getD j 0) 1 1 == 0))) = true) : onTheWay s ctx0 0x10000 es := by
    refine ⟨h.1, fun j hj => ?_⟩
    have := List.all_eq_true.1 h.2 j (List.mem_range.2 hj)
    simp only [Bool.and_eq_true, beq_iff_eq, Bool.or_eq_true, decide_eq_true_eq] at this
    exact ⟨this.1, fun h => by unfold entryOk; omega⟩
  refine ⟨rfl, way _ _ (by decide +kernel), ?_, by decide, by decide, way _ _ (by decide +kernel), ?_, by decide, way _ _ (by decide +kernel), ?_,
    by decide, by decide, way _ _ (by decide +kernel), ?_⟩ <;> unfold entryOk <;> decide

/-- TranslationEvents: a miss that a walker serves, one that fails and stays outstanding, and XLATE's ray. -/
theorem test_hyps_translation : let q : WalkReq := ⟨0, 0, 0, 0x10000, false⟩
    let r : Ray := { ray0 with stall := some .walk }
    let s (m : Mem) : State := { resident r with hbm := m, walks := [(0, [q])] }
    (∀ m ∈ [tables, []], ((SMap.get (s m).walks [] 0).find? fun q => ((s m).core q.core).xfault.isNone) = some q ∧ (s m).ray q.core q.rslot = some r) ∧
    (s tables).walk q.ctx q.va = some ⟨0, 0x10000, 0x10000, 0x30000, false, false, true⟩ ∧ (s []).walk q.ctx q.va = none ∧
    (({ s [] with cores := [(0, { (s []).core 0 with xfault := some q })] } : State).core 0).xfault = some q ∧ bit (0 : DWord) 0 = false ∧ bit (1 : DWord) 0 = true := by
  decide +kernel

/-- A copy of an operation of the ray under way with its token s8 pending, of a context whose page 3 is in its range. -/
def copyHome (c : Copy) : State := let s := withOp (opOf 0x10 .off (.copy c))
  { s with cores := [(0, { s.core 0 with rays := [(0, { rayS addrs with pend := [8] })] })] }
def theCopy (kind : CopyKind) : Copy := { freshCopy kind 8 none 3 0x0100000000000000 [0x0100000000000000, 0, 0, 0x0001000100000000, 0x0000000100010001] 1 false false false with tok2 := if kind = .fwrite then some 9 else none }

/-- CopyAccepts: FWRITE of a page of the context's range, of one outside and of an index beyond 48 bits; a copy whose record cannot be read
and one whose record can. -/
def layoutRec : Mem := Mem.writeBytes [] 0x200 (leBytes 128 (0x0100000000000800 + 0 * 2 ^ 64 + 1 * 2 ^ 68 + 4 * 2 ^ 128 + 4 * 2 ^ 448 + 4 * 2 ^ 640))
theorem test_hyps_accept : let s := copyHome (theCopy .fwrite)
    let o := opOf 0x10 .off (.copy (theCopy .fwrite))
    (s.core 0).op 0 = some o ∧ o.isOver = false ∧ (theCopy .fwrite).ended1 = false ∧ (theCopy .fwrite).tok2 ≠ some (theCopy .fwrite).tok ∧ (s.ray 0 o.rslot).isSome ∧
    s.ctxFaulted o.ctx = false ∧ s.nextCopy 0 = some o.id ∧ s.flashInRange o.ctx (bits (3 : DWord) 47 0) = true ∧ s.flashInRange o.ctx (bits (16 : DWord) 47 0) = false ∧
    bits (0x0001000000000003 : DWord) 63 48 ≠ 0 := by decide +kernel
theorem test_hyps_tensor : let c : Copy := { theCopy .xin with record := 0x200 }
    let o := opOf 0x10 .off (.copy c)
    let at_ (m : Mem) : State := { copyHome c with hbm := m }
    let u0 (m : Mem) : State := ((at_ m).engineFill 0 o.ctx []).copyAcquires 0 c
    (∀ m ∈ [[], layoutRec], (at_ m).engineMisses 0 o.ctx [c.record.toNat] = []) ∧ (at_ []).walkersBusy 0 = false ∧ c.err = 0 ∧ c.acq = false ∧
    (at_ []).copyWaits 0 { o with kind := .copy { c with acq := true } } = false ∧
    (match (u0 []).acceptTensor 0 o c false with | .error e => decide (e < 256) | .ok _ => false) = true ∧
    (match (u0 layoutRec).acceptTensor 0 o c false with | .ok (_, m) => decide ((m.count * m.ebytes + 511) / 512 ≤ 48) | .error _ => false) = true := by
  decide +kernel

/-- CopyChunks: chunk 0 of a copy whose tensor lies in the context's own bank; FlashProgram: a page that has been read. -/
def lay0 : Layout := ⟨0x0100000000000800, 0, 1, [0, 0, 0, 0, 0], [4, 0, 0, 0, 0], [4, 0, 0, 0, 0], 0⟩
theorem test_hyps_chunks : let c : Copy := { theCopy .xin with lay := some lay0, accepted := true, nch := 1 }
    let o := opOf 0x10 .off (.copy c)
    (copyHome c).engineMisses 0 o.ctx (c.chunkAddrs 0) = [] ∧ (((copyHome c).engineFill 0 o.ctx []).chunkPlaces 0 o (boxMap lay0 c.desc) false 0).isOk = true ∧ c.acq = false ∧ 0 < c.nch ∧ c.nch ≤ 48 ∧ c.err = 0 ∧
    0 ∉ c.done1 ∧ c.done1.Nodup ∧ ((copyHome c).core 0).op 0 = some o := by decide +kernel
theorem test_hyps_program : let c : Copy := { theCopy .fwrite with ended1 := true, nch := 32 }
    let o := opOf 0x10 .off (.copy c)
    ((copyHome c).core 0).op 0 = some o ∧ o.isOver = false ∧ c.ended2 = false ∧ c.err = 0 ∧ c.tok2 = some 9 ∧ 9 ≠ c.tok ∧ (copyHome c).ctxFaulted o.ctx = false := by decide

/-- A saved beam with a BWAIT under way. -/
def saved0 : Saved :=
  { beam := beam0, rays := [boundary], ops := [{ opOf 0x10 .off (.bwait 1) with dc := some 1 }], replay := [], window := [], gtags := [], trigger := .slice
    eligible := some 0, bwaits := [], awaits := [], urgent := true, room := 0 }

/-- TileCompletes: operations at the tile of scratchpad 0 that run, and a FEED at 512. -/
theorem test_hyps_tile_ops : ∀ k ∈ [OpKind.ldt false 0x0100000100000000, .ldt true 0x0100000100000000, .sth [1] [2], .feed 0x10 8], let o := opOf 0x10 (.scratch 512) k
    ((withOp o).core 0).op 0 = some o ∧ o.done = false ∧ ((withOp o).core 0).mayPerform o = true ∧ lowest o.act = some 4 ∧ o.place.getD 4 .off = .scratch 512 := by decide

/-- WaitsComplete: an arrival by address and one that names no beam, a BWAIT whose entry is final, and a SPAWN without a device queue. -/
theorem test_hyps_waits : let v : Arrival := ⟨0x0300000000000000, none, none, none⟩
    let w : Arrival := ⟨0x0300400000000000, none, none, none⟩
    ({ home with arrivals := [v, w] } : State).addrBeam v.addr = some (0, 0) ∧ home.addrBeam w.addr = none ∧ home.beam 0 0 = some beam0 ∧
    ({ home with clock := 1, launches := [(0, { launch0 with entries := [(1, { entry0 with state := .final, result := 1 })] })] } : State).finalResult 0 1 = some (1, 0) ∧
    (let sv : State := { home with beams := [], saved := [(beamKey 0 0, saved0)], arrivals := [{ v with target := some (0, 0) }] }
     sv.beam 0 0 = none ∧ SMap.get? sv.saved (beamKey 0 0) = some saved0 ∧ sv.arrivals[0]? = some { v with target := some (0, 0) }) ∧
    home.deviceQueue 0 = none ∧ (let o := opOf 0x10 (.phys false 0 false) (.spawn [] []); ((withOp o).core 0).mayPerform o = true) := by decide +kernel

/-- StreamBegins: a fork that nothing delays, at a clause header and at an entry that is none. -/
def forking (e : Word) : State := { home with clusters := [(0, { home.cluster 0 with forks := [{ fork0 with entry := e }] })] }
theorem test_hyps_stream_begins (e : Word) : ((forking e).cluster 0).stream = none ∧ ((forking e).cluster 0).cmds = [] ∧
    ((forking e).cluster 0).forks = [{ fork0 with entry := e }] ∧ (forking e).forkWaits { fork0 with entry := e } = false ∧ (forking e).launch fork0.l = some launch0 ∧
    ((0x40 : Word).toNat % 4 = 0 ∧ (0x40 : Word).toNat < launch0.header.codeSize ∧ (2 : Word).toNat % 4 ≠ 0 ∧ launch0.header.codeSize ≤ (0x1000 : Word).toNat) :=
  ⟨rfl, rfl, rfl, rfl, rfl, by decide⟩

/-- StreamEvents: a product of two plane-form operands on a tile of the context, an operand without one tag, a flag reached and an end. -/
def tileOwned : State := let s := streaming stream0 [⟨.mma true 0 desc0 desc0 0 0, 0, false, false⟩]
  { s with clusters := [(0, (s.cluster 0).setTile 0 { Tile.reset with owner := some 0 })] }
theorem test_hyps_stream_events : let s := tileOwned
    (s.cluster 0).stream = some stream0 ∧ s.module.throttled = false ∧ s.takePending 0 0 = false ∧
    (s.operand stream0 0 desc0 0).toOption.map (·.tag) = some 0 ∧ ((s.cluster 0).tile 0).owner = some stream0.fork.ctx ∧
    (({ s with clusters := [(0, { s.cluster 0 with gtags := [(0, 1)] })] } : State).operand stream0 0 desc0 0).isOk = false ∧
    (0 : DWord).toNat ≤ s.scratchN 0 0 8 ∧ (∀ a ∈ s.arrivals, a.msig ≠ some 0) ∧ stream0.status < 256 := by decide +kernel

/-- LoupeReports: a frontier count and a wait at their limits. -/
theorem test_hyps_loupe : let f : Ray := { boundary with frontier := 2 ^ 20 }
    let w : Ray := { boundary with waiting := some ⟨.barrier 7, 2 ^ 31, 0⟩ }
    (resident f).loupeTurn 0 0 f = true ∧ (resident f).frontierDue f = true ∧
    (let s : State := { resident w with clock := 2 ^ 31 }; s.loupeTurn 0 0 w = true ∧ s.frontierDue w = false ∧ s.waitDue w = true) := by decide +kernel

/-! ### Hypotheses of the statements about queues, launches, pages and beams -/

/-- A queue of the context at the mapped page 0x10000 with one packet published: a launch packet, or another. -/
def queue0 : Queue :=
  { addr := 0x2000, base := 0x10000, log2n := 4, pri := 1, dev := false, ctx := 0, wr := 1, rd := 0, halt := false, vector := 0, destroyed := false
    published := [(1, 0)], header := 1, barriers := [], blocked := false }
def packetBytes : List Byte := leBytes 64 (1 + 0x20000 * 2 ^ 64 + 2 * 2 ^ 256)
def queued (q : Queue) : State := { mapped with hbm := Mem.writeBytes tables 0x30000 packetBytes, queues := [(3, q)] }

/-- QueueDoorbells: a value beyond WR within the ring, one at its end, one beyond and one below WR; PacketTake: a packet of TYPE 1. -/
theorem test_hyps_queues : SMap.get? (queued queue0).queues 3 = some queue0 ∧ SMap.get? (queued queue0).ctxs queue0.ctx = some ctx0 ∧ queue0.dev = false ∧
    queue0.destroyed = false ∧ ctx0.fn = 0 ∧ queue0.wr ≤ (16 : DWord).toNat ∧ (16 : DWord).toNat ≤ queue0.rd + queue0.size ∧ queue0.rd + queue0.size < (17 : DWord).toNat ∧
    (0 : DWord).toNat < queue0.wr ∧ ((queued queue0).fnOf 0).tdisp ≠ .error ∧ queue0.rd < queue0.wr ∧
    (queued queue0).readVirt queue0.ctx (queue0.base + 64 * (queue0.rd % 2 ^ queue0.log2n)) 8 = some (packetBytes.take 8) := by decide +kernel
theorem test_hyps_packet : queue0.takeable = true ∧ (∀ p ∈ (queued queue0).queues, p.1 ≠ 3 → p.2.takeable = true → p.2.before queue0 = false) ∧
    (queued queue0).readVirt queue0.ctx (queue0.base + 64 * (queue0.rd % 2 ^ queue0.log2n)) 64 = some packetBytes ∧ nbits (leNat packetBytes) 7 0 = 1 ∧
    (let p : BarrierPkt := ⟨leBytes 64 (2 + 0x10008 * 2 ^ 128), []⟩; let s := queued { queue0 with barriers := [p] }
     p.sigs = [0x10008] ∧ nbits (leNat p.bytes) 511 448 = 0 ∧ nbits (leNat p.bytes) 8 8 = 0 ∧ s.signal 0 0x10008 = some 0x20000) ∧
    (let p : BarrierPkt := ⟨leBytes 64 2, []⟩; p.sigs = []) ∧
    (let p : BarrierPkt := ⟨leBytes 64 (2 + 0x10020 * 2 ^ 128 + 0x10028 * 2 ^ 192), []⟩; let s : State := { queued queue0 with
       hbm := Mem.writeBytes tables 0x30020 (leBytes 8 (2 ^ 63)) }
     p.sigs = [0x10020, 0x10028] ∧ s.signal 0 0x10020 = some (2 ^ 63) ∧ s.signal 0 0x10028 = some 0) := by decide +kernel

/-- LaunchEvents: a launch refused, one whose header cannot be read, two children that merge, and one whose entries are FINAL. -/
def child (k : Nat) : Launch := { launch0 with begun := false, child := true, takenAt := k, entries := [] }
theorem test_hyps_launch : (child 0).begun = false ∧ (child 0).bad = false ∧ home.ctxFaulted (child 0).ctx = false ∧ (child 0).merge = [] ∧
    home.kernelHeader 0 0x20000 = none ∧ home.regionTable 0 = some [] ∧
    home.awaitsMerge 0 { launch0 with begun := false } = false ∧
    (let s (t : Nat) : State := { home with launches := [(1, child 0), (2, child 7600)], clock := t }
     (child 0).mergeable = true ∧ (child 7600).mergeable = true ∧ (child 7600).takenAt ≤ (child 0).takenAt + 7600 ∧ (child 0).takenAt + 7600 < (s 7601).clock ∧
     (s 7600).awaitsMerge 1 (child 0) = true ∧ ({ s 7601 with launches := [(1, child 0)] } : State).awaitsMerge 1 (child 0) = false) ∧
    (let x : Launch := { launch0 with nextPos := 2, entries := [(0, { entry0 with state := .final })] }
     x.begun = true ∧ x.nent ≤ x.nextPos ∧ ∀ p ∈ x.entries, p.2.state = .final) := by decide +kernel
/-- A kernel header of one role that is read and checked. -/
theorem test_hyps_header : ({ mapped with hbm := Mem.writeBytes tables 0x30000 (leBytes 64 (0x200 + 1 * 2 ^ 96 + 0x100 * 2 ^ 160 + (8 * 2 ^ 38) * 2 ^ 256)) } : State).kernelHeader 0 0x10000 ≠ none := by
  decide +kernel

/-- PagePipeline: an entry to take, and entries in each state of the pipeline; WindowsLand. -/
theorem test_hyps_pages : let s : State := { mapped with launches := [(0, { launch0 with plist := 0x10000, entries := [] , nextPos := 0 })] }
    s.readVirt 0 (0x10000 + 8 * 0) 8 = some [0, 0, 0, 0, 0, 0, 0, 0] ∧ s.launchFirst 0 { launch0 with plist := 0x10000, entries := [], nextPos := 0 } = true ∧
    s.ctxFaulted 0 = false ∧ s.countEntries (fun y => y.slot == some 0) < 8 ∧ s.countEntries (fun y => y.buffer == some 0) < 16 ∧
    ({ s with module := { s.module with flash := [(0, ⟨[1]⟩)] } } : State).flashData 0 0 ≠ none ∧ s.flashData 0 0x100 = none ∧
    s.walk 0 0x10000 = some ⟨0, 0x10000, 0x10000, 0x30000, false, false, true⟩ ∧ s.walk 0 0x20000 = none ∧ 0x30000 + 16384 ≤ 384 * 2 ^ 30 ∧
    (decompress 0 (List.replicate 8 0)).isOk = true ∧ (decompress 1 (List.replicate 8 0)).isOk = false := by decide +kernel
def stateOf (st : EntryState) : State := { home with launches := [(0, { launch0 with entries := [(0, { entry0 with state := st })] })], beams := [] }
theorem test_hyps_entries (st : EntryState) : entryAt (stateOf st) 0 0 { launch0 with entries := [(0, { entry0 with state := st })] } { entry0 with state := st } st :=
  ⟨rfl, rfl, rfl⟩
theorem test_hyps_transform : let h : Header := { hdr0 with nsel := 1, bindings := [[3, 0, 0, 0]] }
    h.bindings[1 - 1]? = some [3, 0, 0, 0] ∧ ([3, 0, 0, 0] : List DWord)[1 - 1]? = some 3 ∧ (3 : DWord) ≠ 0 ∧ 1 ≤ h.nsel ∧ bits (3 : DWord) 3 0 ≠ 2 := by decide
/-- A machine whose cluster 0 has a window bank free. -/
def roomy (st : EntryState) : State := { stateOf st with
  cores := [], clusters := [(0, { Cluster.reset with banks := [(2, ⟨.scratch, none, true, false, 0, 0, 0⟩)] })] }
theorem test_hyps_windows : let s := roomy .window
    let x : Launch := { launch0 with entries := [(0, { entry0 with state := .window })] }
    x.header.gang ≤ 1 ∧ s.chooseCluster x 0 0 { entry0 with state := .window } (fun k => !((s.cluster k).carvable 0x8000).isEmpty) = some 0 ∧
    (s.cluster 0).carvable 0x8000 ≠ [] ∧ (∀ p ∈ (s.cluster 0).windows, ¬ (p.l = 0 ∧ p.pos = 0)) := by decide +kernel

/-- BeamEvents: a landed beam that fits with room in the save area, a gang whose members have landed, a beam that is done. -/
theorem test_hyps_beams : let s := roomy .landed
    let e : Entry := { entry0 with state := .landed }
    let x : Launch := { launch0 with entries := [(0, e)] }
    (s.mayPlace x.ctx = true ∧ s.isNext e.cluster (x.candidate 0 0) = true ∧
      s.chooseCore e.cluster x.ctx x.header = some 0 ∧ ctx0.findRoom (x.header.room e.winSize) = some 0) ∧
    (resident { ray0 with th := { plain with live := 0 } }).beamDone 0 0 beam0 = true ∧
    (let v : Saved := { saved0 with rays := [{ boundary with th := { plain with live := 0 } }], ops := [] }
     ({ stateOf .saved with saved := [(beamKey 0 0, v)] } : State).beam 0 0 = none ∧ v.dead = true ∧ ∀ o ∈ v.ops, o.isOver = true) := by decide +kernel
theorem test_hyps_gang : let h : Header := { hdr0 with gang := 2 }
    let e : Entry := { entry0 with state := .landed }
    let x : Launch := { launch0 with header := h, entries := [(0, e), (1, { e with winOfs := 0x48000 })], nextPos := 2 }
    let s : State := { roomy .landed with launches := [(0, x)] }
    1 < x.header.gang ∧ gangMembers x.header.gang x.nent 0 = [0, 1] ∧ (placeGang 0 [0, 1] s).isSome = true ∧ s.mayPlace x.ctx = true ∧
    s.isNext e.cluster (x.candidate 0 0) = true := by decide +kernel

/-- Preemption: a suspended context's trigger, a slice that has expired beside a rival, a drain that has taken too long. -/
theorem test_hyps_preempt : ({ home with ctxs := [(0, { ctx0 with suspended := true })] } : State).triggered 0 0 beam0 .suspend = true ∧ beam0.choice = none ∧
    beam0.result = 0 ∧ beam0.streams = 0 ∧ launch0.header.gang = 1 ∧ beam0.halted = false ∧
    (let x : Launch := { launch0 with ctx := 1, entries := [(0, { entry0 with state := .landed })] }
     let s : State := { home with cores := [(0, { home.core 0 with charge := [(0, 7600)] })], ctxs := [(0, ctx0), (1, ctx0)], launches := [(0, launch0), (1, x)] }
     s.sliceOver 0 0 = true ∧ s.rivalWaits 0 0 (s.priOf 0) = true ∧ s.beams = [(beamKey 0 0, beam0)]) ∧
    0 + home.module.drainMax ≤ ({ home with clock := 1048576 } : State).clock := by decide +kernel

/-- SaveAndResume: a beam whose ray stands at a boundary, a flushed one, a saved BWAIT that is answered, a saved beam that returns. -/
theorem test_hyps_save : (resident boundary).savable 0 0 beam0 = true ∧ beam0.halted = false ∧ (resident boundary).atBoundary beam0 = true ∧ (resident boundary).opsOf 0 0 beam0 = [] := by
  decide +kernel
theorem test_hyps_resume : let x : Launch := { launch0 with entries := [(0, { entry0 with state := .saved }), (1, { entry0 with state := .final })] }
    let s : State := { roomy .saved with launches := [(0, x)], saved := [(beamKey 0 0, saved0)], clock := 1 }
    SMap.get? s.saved (beamKey 0 0) = some saved0 ∧ (saved0.ops.find? fun o => o.id == 0) = some { opOf 0x10 .off (.bwait 1) with dc := some 1 } ∧
    s.finalResult 0 1 = some (0, 0) ∧ s.resumeCluster (beamKey 0 0) = some 0 ∧ s.groupPast 0 0 = true ∧
    s.mayPlace x.ctx = true ∧ s.mayResume (beamKey 0 0) = true ∧ s.isNext 0 (s.savedCandidate (beamKey 0 0) saved0) = true ∧ (s.restoreBeam 0 0 saved0.beam.cluster saved0).isSome = true := by decide +kernel

/-! ### Hypotheses of the statements about lanterns, the supervisor core, the host and the module -/

/-- LanternEvents: a send to the context from its own function; LanternDelivery: vector 5 enabled with a handler in this very ray. -/
theorem test_hyps_link (n : Nat) : let s : State := { home with module := { home.module with linksDown := List.range 18 } }
    Config.route n % 18 ∈ s.module.linksDown ∧ bits (0x10000 : DWord) 16 16 = 1 ∧ (∃ r : Ray, (resident { ray0 with stall := some .lnsend }).ray 0 0 = some r ∧ r.stall = some .lnsend) :=
  ⟨List.mem_range.2 (Nat.mod_lt _ (by decide)), by decide, _, rfl, rfl⟩
theorem test_hyps_lantern : let x : LnSend := ⟨.host 0 0, 0x45, 9⟩
    ({ home with lnsends := [x] } : State).lnsends[0]? = some x ∧ bits x.desc 16 16 = 0 ∧ SMap.get? home.ctxs (bits (5 : DWord) 15 6) = some ctx0 ∧ ctx0.lntab ≠ 0 ∧
    ctx0.faulted = false ∧ (home.fnOf 0).tdisp ≠ .error := by decide +kernel
def ringing : State := { resident boundary with
  ctxs := [(0, { ctx0 with lnmask := 0x20 })], hbm := Mem.writeBytes tables 0x300E0 (leBytes 32 (0x80 + 0x20000 * 2 ^ 128)) }
theorem test_hyps_delivery : ringing.ray 0 0 = some boundary ∧ boundary.parked = none ∧ boundary.th.clause = none ∧ boundary.lantern.inHandler = false ∧
    boundary.dueStore = [] ∧ boundary.dueWb = [] ∧ ringing.frontierDue boundary = false ∧ ringing.waitDue boundary = false ∧ boundary.parkReq = false ∧
    (ringing.ready 0 0 && ringing.entryTrap 0 boundary) = false ∧
    ringing.deliveryFor boundary = some (5, 0x80 + 0x20000 * 2 ^ 128) := by decide +kernel

/-- RayCommands: no ray, a ray that is not parked, one parked by a run-time trap before a clause's last instruction, selected. -/
theorem test_hyps_raycmd : home.ray 0 1 = none ∧ home.ray 0 0 = some ray0 ∧ ray0.parked = none ∧ ray0.th.clause ≠ none ∧
    home.beam ray0.l ray0.pos = some beam0 ∧ SMap.get? home.ctxs (home.ctxOf ray0.l) = some ctx0 ∧
    (let c := clauseOf [0x00E03E7C, 0x00E03E7C]
     (decode (c.slots.drop c.next)).toOption.map (fun p => (p.1.size, p.2)) = some (1, 1) ∧ c.next + 1 < c.slots.length) := by
  decide +kernel

/-- A command block at host address 0x1000 whose record stands at 0x2000, on an owned module with a confirmed image. -/
def argsOf (l : List Nat) (j : Nat) : Nat := l.getD j 0
def called0 (op : Nat) (l : List Nat) (record : Nat) : State :=
  { home with host := Mem.writeBytes (Mem.writeBytes [] 0x1000 (leBytes 8 op ++ l.flatMap (leBytes 8))) 0x2000 (leBytes 64 record)
              beams := [], module := { Module.reset with boot := .confirmed, ownerKey := some [1] } }
theorem test_hyps_block : ∀ op ∈ [1, 2, 3, 4, 5, 6, 7, 8, 9, 0xA, 0xB, 0xC, 0xD, 0xE, 0xF, 0x10, 0x11],
    blockIs (called0 op [3, 0x2000, 5] 0) 0x1000 op (argsOf [3, 0x2000, 5]) ∧ commands (called0 op [3, 0x2000, 5] 0) 0 := by
  simp only [blockIs, commands]; decide +kernel

/-- ContextCommands: a record that breaks no limit, a queue's, a context of function 0 and one of function 1, flash ranges at their end. -/
theorem test_hyps_contexts : let w := 20 * 2 ^ 173 + 20 * 2 ^ 167 + 8 * 2 ^ 384
    ctxBad w = false ∧ SMap.get? (called0 1 [3, 0x2000, 5] w).ctxs 3 = none ∧ (called0 1 [3, 0x2000, 5] w).module.ownerKey ≠ none ∧
    queueBad (4 * 2 ^ 64) = false ∧ SMap.get? (called0 3 [3, 0x2000, 5] 0).ctxs (nbits (4 * 2 ^ 64) 89 80) = some ctx0 ∧ ctx0.fn = 0 ∧ ctx0.fn ≠ 1 ∧
    nbits (4 * 2 ^ 64) 70 69 ≤ ctx0.maxPri ∧ (∀ p ∈ (called0 6 [0, 0, 0] 0).beams, p.2.ctx ≠ 0) ∧ (2 ^ 34 - 1) + 1 ≤ 2 ^ 34 := by decide +kernel

/-- DestroyCommands: a DESTROY_CTX under way whose context is quiet, and a DESTROY_QUEUE whose launches are over. -/
theorem test_hyps_destroy : let s : State := { home with beams := [], launches := [(0, { launch0 with isOver := true })], fns := [(0, { Fn.reset with doing := some (2, 0), cmdAddr := 0x1000 })] }
    (s.fnOf 0).doing = some (2, 0) ∧ (s.fnOf 0).cmdAddr = (0x1000 : DWord).toNat ∧ SMap.get? s.ctxs 0 = some ctx0 ∧ s.ctxQuiet 0 = true ∧
    (∀ p ∈ s.launches, p.2.queue = 0 → p.2.isOver = true) ∧ SMap.get? (queued queue0).queues 3 = some queue0 := by decide +kernel

/-- ModuleCommands: power caps at both ends and outside them, a module with and without an owner and a session. -/
theorem test_hyps_module_commands : (1600 ≤ 1600 ∧ 3200 ≤ 3200 ∧ 1600 % 50 = 0 ∧ 3200 % 50 = 0 ∧ 1599 < 1600 ∧ 3200 < 3201 ∧ 1650 % 50 = 0 ∧ 1651 % 50 ≠ 0) ∧
    imageBad [] 0 1 = true ∧ (called0 0x10 [] 0).module.ownerKey = some [1] ∧ State.reset.module.ownerKey = none ∧ (State.reset.fnOf 0).session = false ∧
    (({ State.reset with fns := [(0, { Fn.reset with session := true })] } : State).fnOf 0).session = true := by decide +kernel

/-- TrustEvents: a locked interface, one with a session unlocked and locked, one in ERROR. -/
theorem test_hyps_trust : let s (f : Fn) : State := { home with fns := [(0, f)] }
    ((s { Fn.reset with everLocked := true, tdisp := .run }).fnOf 0).everLocked = true ∧ ((s { Fn.reset with everLocked := true, tdisp := .run }).fnOf 0).tdisp ≠ .error ∧
    ((s { Fn.reset with session := true }).fnOf 0).tdisp = .unlocked ∧ ((s { Fn.reset with session := true, tdisp := .locked }).fnOf 0).tdisp = .locked ∧
    ((s { Fn.reset with tdisp := .error }).fnOf 0).tdisp = .error := by decide +kernel

/-- ModuleEvents: a module with and without a seed and a trial slot, a watchdog that has expired, a shared image, a link that is up. -/
theorem test_hyps_module : Module.reset.seedOk = true ∧ Module.reset.shared = false ∧ Module.reset.trialSlot = none ∧
    ({ Module.reset with seedOk := false } : Module).seedOk = false ∧
    (let m : Module := { Module.reset with boot := .trial, trialSlot := some 1, watchdogAt := some 5 }
     let s : State := { home with module := m, clock := 5 }
     s.module.watchdogAt = some 5 ∧ s.module.boot = .trial ∧ 5 ≤ s.clock) ∧
    (let m : Module := { Module.reset with shared := true, sharedFails := 1, watchdogAt := some 5 }
     m.boot = .rom ∧ 0 < m.sharedFails ∧ m.shared = true) ∧ 3 ∉ home.module.linksDown ∧ SMap.get? home.module.linkTries 3 = none := by decide +kernel

/-- RayCommands: a parked ray that RAYWIN has written, with a level beyond its depth; an ended ray; a ray inside a clause that may be
asked to park. -/
theorem test_hyps_parked : let r : Ray := { ray0 with parked := some .runTrap }
    let w : Ray := { r with rewritten := true, th := { plain with level := laneTab fun _ => 17, depth := 16 } }
    (r.rewritten = false ∧ r.parkReq = false ∧ (resident r).ray 0 0 = some r) ∧ (w.rewritten = true ∧ w.rewriteCause = some 0x08) ∧
    ({ ray0 with th := { plain with live := 0 } } : Ray).th.live = 0 ∧
    ({ resident r with cores := [(0, { (resident r).core 0 with selected := some 0 })] } : State).ray 0 0 = some r := by decide +kernel

/-- ContextCommands and ModuleCommands: a context and a queue of another function; a module without an owner; a confirmation in time. -/
theorem test_hyps_others_own : let s : State := { called0 1 [0, 0x2000, 5] 0 with ctxs := [(0, { ctx0 with fn := 1 })], queues := [(0, queue0)] }
    (∃ c, SMap.get? s.ctxs 0 = some c ∧ c.fn ≠ 0) ∧ (∃ x c, SMap.get? s.queues 0 = some x ∧ SMap.get? s.ctxs x.ctx = some c ∧ c.fn ≠ 0) ∧
    (called0 0xD [0, 0, 0] 0).module.ownerKey ≠ none ∧ ({ called0 0xD [0, 0, 0] 0 with module := { Module.reset with boot := .confirmed } } : State).module.ownerKey = none ∧
    (called0 8 [0, 0, 0] 0).module.watchdogAt = none :=
  ⟨⟨_, rfl, by decide⟩, ⟨_, _, rfl, rfl, by decide⟩, by decide +kernel, by decide +kernel, by decide +kernel⟩

/-- ModuleEvents: an image whose one section makes one block, on a module that runs it from the host's memory; a retry that is due; links
and a flit that has failed 8 times; a missing record. -/
def image0 : List Byte := leBytes 0x80 (1 * 2 ^ 96) ++ leBytes 64 (1 + 0xF000 * 2 ^ 64 + 0x1000 * 2 ^ 128)
theorem test_hyps_image : (imageBlocks image0)[0]? = some (0xF000, 0x1000) ∧ ({ Module.reset with slot := 2, boot := .trial, image := image0 } : Module).slot = 2 ∧
    (let m : Module := { Module.reset with boot := .rom, shared := true, sharedFails := 1, retryAt := some 5 }; m.retryAt = some 5 ∧ 0 < m.sharedFails ∧ 5 ≤ ({ home with clock := 5 } : State).clock) ∧
    SMap.get? ({ home.module with linkTries := [(3, (7, 8))] } : Module).linkTries 3 = some (7, 8) ∧ (17 : Nat) < 18 ∧ 18 ≤ (18 : Nat) ∧
    CfgRecord.sramMap ∈ ({ Module.reset with absent := [.sramMap] } : Module).absent ∧ Module.reset.absent = [] := by decide +kernel

/-! ### Hypotheses of the clauses about values at the ends of their ranges -/

/-- The memories of the machines above are in canonical form. -/
theorem test_hyps_memory_wf : home.memWf ∧ (tileHome 1).memWf ∧ mapped.memWf ∧ (queued queue0).memWf ∧ (streaming stream0 []).memWf ∧
    (copyHome (theCopy .xin)).memWf ∧ (called0 8 [0, 0, 0] 5).memWf := by
  unfold State.memWf; decide +kernel

/-- RendezvousIssue, StoreCompletes, StoreFaults: a JOIN and an STCON that nothing of the ray holds, and a store whose lanes are all over. -/
theorem test_hyps_held : let j := opOf 0x10 (.scratch 64) .join
    let c := opOf 0x10 (.scratch 0) (.stcon false)
    let p := opOf 0x10 (.bad 0x70) (.store false 4 0)
    ((withOp j).core 0).mayPerform j = true ∧ noneReserving (withOp c) 0 c ∧ c.recSlot = none ∧ ¬ allOver p ∧
    allOver { p with accepted := true, served := 0x10 } := by
  refine ⟨by decide +kernel, ?_, rfl, fun h => absurd h.1 (by decide), rfl, fun k hk ha => .inl ha⟩
  intro p hp hlt
  have e : ((withOp (opOf 0x10 (.scratch 0) (.stcon false))).core 0).ops = [opOf 0x10 (.scratch 0) (.stcon false)] := by decide +kernel
  rw [e, List.mem_singleton] at hp
  rw [hp] at hlt
  exact absurd hlt (Nat.lt_irrefl _)

/-- CopyAccepts: a buffer that a switch holds, a page that holds no data, one that holds some, and a record in a poisoned word. -/
theorem test_hyps_copy_errors : let h : State := { copyHome (theCopy .fread) with
      clusters := [(0, { home.cluster 0 with banks := [(0, ⟨.scratch, some 0, false, true, 0, 0, 0⟩)] })] }
    let c := theCopy .fread
    (bits c.tile 63 56 = 1 ∧ h.switching 0 (bits c.tile 22 0) 16384 = true ∧ (copyHome c).switching 0 (bits c.tile 22 0) 16384 = false) ∧
    ((copyHome c).flashInRange 0 (bits c.record 47 0) = true ∧ (copyHome c).flashData 0 (bits c.record 47 0) = none ∧
      ({ copyHome c with module := { Module.reset with flash := [(3, ⟨[1]⟩)] } } : State).flashData 0 (bits c.record 47 0) ≠ none) ∧
    (let x : Copy := { theCopy .xin with record := 0x200 }
     let o := opOf 0x10 .off (.copy x)
     (({ copyHome x with poison := [(0, 0x10)] } : State).meetRecord 0 o x).2 = true ∧
       ((copyHome { x with record := 0x20000 }).meetRecord 0 o { x with record := 0x20000 }).2 = false) := by decide +kernel

/-- WaitsComplete: an arrival at a listed beam that is not resident, and a device queue that takes a packet, is full, bars its context or
reads a bad packet. -/
def devHome (q : Queue) (b : List Byte) : State := { home with
  hbm := Mem.writeBytes [] 0x100 b, queues := [(3, q)], ctxs := [(0, { ctx0 with dq := some 3, maxPri := 1 })] }
theorem test_hyps_device : let v : Arrival := ⟨0x0300000000000000, some (0, 1), none, none⟩
    let q : Queue := { queue0 with dev := true }
    let o := opOf (BitVec.ofNat 32 (2 ^ 4)) (.phys false 0x100 false) (.spawn [] [])
    let w (b : List Byte) : Nat := leNat ((List.range 64).map fun i => (devHome q b).l1Byte 0 (physKey false 0x100 + i))
    (home.beam 0 1 = none ∧ SMap.get? home.saved (beamKey 0 1) = none ∧ v.target = some (0, 1)) ∧
    (devHome q []).deviceQueue o.ctx = some (3, q) ∧ o.place.getD 4 .off = .phys false 0x100 false ∧ q.destroyed = false ∧ q.dev = true ∧ q.pri = 1 ∧
    ¬ 1 < q.pri ∧ 1 < ({ q with pri := 2 } : Queue).pri ∧ q.rd ≤ q.wr ∧ q.wr < q.rd + q.size ∧ ({ q with wr := 16 } : Queue).wr = q.rd + q.size ∧
    (nbits (w packetBytes) 7 0 = 1 ∧ launchBad (w packetBytes) = false ∧ ((devHome q packetBytes).readAux 0 (nbits (w packetBytes) 511 448)).2 = some 0 ∧
      auxBad 0 (nbits (w packetBytes) 288 288 == 1) = false) ∧ nbits (w []) 7 0 ≠ 1 := by decide +kernel

/-- StreamEvents: a product reads words, of which one may be poisoned; MZERO reads none. -/
theorem test_hyps_stream_reads : let s := tileOwned
    s.cmdReads 0 0 (.mma true 0 desc0 desc0 0 0) ≠ [] ∧ s.cmdReads 0 0 (.mzero 15) = [] ∧
    ({ s with poison := [(1, 0)] } : State).poisoned (s.cmdReads 0 0 (.mma true 0 desc0 desc0 0 0)) = true := by decide +kernel

/-- LaunchEvents: two children of queue 0 that merge, the second taken at the end of the time; a merge whose entries are all FINAL. -/
theorem test_hyps_merge : let s : State := { home with launches := [(0, launch0), (1, child 0), (2, child 7600), (3, child 7601)], clock := 7601 }
    (s.launches.find? fun (_, y) => y.mergeable && y.queue == 0) = some (1, child 0) ∧ (child 0).takenAt + 7600 < s.clock ∧
    (((s.launches.filter fun (_, y) => y.mergeable && y.queue == 0 && y.kernel == (child 0).kernel && y.thrb == (child 0).thrb &&
      y.hsrc == (child 0).hsrc && decide (y.takenAt ≤ (child 0).takenAt + 7600)).take 64).map (·.1)) = [1, 2] ∧
    (let x : Launch := { launch0 with merge := [0, 1], nextPos := 2, entries := [(0, { entry0 with state := .final })] }
     x.merge ≠ [] ∧ x.begun = true ∧ x.nent ≤ x.nextPos ∧ x.isOver = false ∧ ∀ p ∈ x.entries, p.2.state = .final) := by decide +kernel

/-- Preemption: a beam with a stream, a slice that has not expired, and launches of at most 2^32 entries. -/
theorem test_hyps_decisions : ({ beam0 with streams := 1 } : Beam).streams ≠ 0 ∧ home.sliceOver 0 0 = false ∧
    (let s : State := { home with ctxs := [(0, { ctx0 with suspended := true })] }; s.triggered 0 0 { beam0 with streams := 1 } .suspend = true) ∧
    (∀ p ∈ home.launches, p.2.nent ≤ 2 ^ 32) ∧ (0 : Nat) < 2 ^ 32 := by decide +kernel

/-- RayCommands: a parked ray whose lanes RAYWIN has moved, to the header at 0x40 and to its own word. -/
theorem test_hyps_rejoin : let r (x : Word) : Ray := { ray0 with parked := some .runTrap, rewritten := true, vpcWritten := 1, th := { plain with vpc := laneTab fun _ => x } }
    let c := clauseOf [0, 0, 0]
    (r 0x40).rewriteCause = none ∧ (r 0x40).vpcWritten ≠ 0 ∧ (r 0x40).parkReq = false ∧ (r 0x40).th.clause = some c ∧
    ((r 0x40).th.issue ≠ some c.pc) ∧ ((r (BitVec.ofNat 32 c.pc)).rewriteCause = none ∧ (r (BitVec.ofNat 32 c.pc)).th.issue = some c.pc ∧
      c.entering &&& (r (BitVec.ofNat 32 c.pc)).th.lanesAt c.pc ≠ 0) := by decide +kernel

/-- ContextCommands and DestroyCommands: a context and a queue that do not exist; vectors 0, 3 and 63, and one whose higher bits are set;
a context that has lost its trust. -/
theorem test_hyps_absent : SMap.get? (called0 6 [3, 0, 0] 0).ctxs 3 = none ∧ SMap.get? (called0 5 [3, 0, 0] 0).queues 3 = none ∧
    SMap.get? (called0 3 [3, 0x2000, 5] 0).ctxs (nbits (4 * 2 ^ 64 + 7 * 2 ^ 80) 89 80) = none ∧ queueBad (4 * 2 ^ 64 + 7 * 2 ^ 80) = false ∧
    0 % 64 = 0 ∧ 3 ≤ 3 % 64 ∧ 3 ≤ 63 % 64 ∧ (0x10045 : Nat) % 64 = 5 ∧ ({ ctx0 with cut := true } : Ctx).cut = true := by decide +kernel

/-- TrustEvents: a module with an identity and without one, a masked vector that is pending and one that is not, a queue of a context
that loses its trust, and the last page of HBM. -/
theorem test_hyps_masks : home.module.seeded = true ∧ ({ Module.reset with seedOk := false } : Module).seeded = false ∧
    (let f : Fn := { Fn.reset with masked := [5], pending := [5] }; 5 ∈ f.pending ∧ 6 ∉ f.pending ∧ f.tdisp ≠ .error) ∧
    (SMap.get? (queued queue0).queues 3 = some queue0 ∧ queue0.ctx = 0 ∧ SMap.get? (queued queue0).ctxs 0 = some ctx0 ∧ ctx0.fn = 0) ∧
    65536 * (6291455 + 1) ≤ 384 * 2 ^ 30 ∧ ¬ 65536 * (6291456 + 1) ≤ 384 * 2 ^ 30 := by decide +kernel

/-- ModuleEvents: a send of a ray that leaves over a link, the ray waiting for its status. -/
theorem test_hyps_in_flight : let x : LnSend := ⟨.ray 0 0 0, 0x10000, 0⟩
    let r : Ray := { ray0 with stall := some .lnsend }
    bits x.desc 16 16 = 1 ∧ Config.route (bits x.desc 36 17) % 18 < 18 ∧ x ∈ ({ resident r with lnsends := [x] } : State).lnsends ∧
    (resident r).ray 0 0 = some r ∧ r.stall = some .lnsend := by
  exact ⟨by decide, Nat.mod_lt _ (by decide), by decide, by decide +kernel, rfl⟩

/-- ConversionCases: infinities, and finite numbers at both ends of a type's range and beyond them. -/
theorem test_hyps_conversion_ranges : let m : FMode := ⟨.rne, false, 0⟩
    ((m.read fmtF32 0x7F800000).1 = .inf false ∧ (m.read fmtF32 0xFF800000).1 = .inf true) ∧
    (∀ p ∈ [(0x43000000, false, 128), (0x42FE0000, false, 127), (0xC3000000, true, 128), (0xC3010000, true, 129), (0xBF800000, true, 1), (0x437F0000, false, 255),
        (0x43800000, false, 256)],
      (match (m.read fmtF32 p.1).1 with
        | .fin neg n d => neg == p.2.1 && (roundNat neg m.rm n d).1 == p.2.2 && n % d == 0
        | _ => false) = true) := by decide +kernel

/-- DequantResults: an infinite element of E5M2 and NaN elements of E5M2 and E4M3. -/
theorem test_hyps_elements : let m : FMode := ⟨.rne, false, 0⟩
    (m.read fmtE5m2 0x7C).1 = .inf false ∧ (m.read fmtE5m2 0xFC).1 = .inf true ∧ (m.read fmtE5m2 0x7F).1.isNan = true ∧ (m.read fmtE4m3 0xFF).1.isNan = true := by
  decide +kernel

/-- TranslationEvents: a miss whose ray has gone, and a fault that a retry meets again. -/
theorem test_hyps_gone : let q : WalkReq := ⟨0, 9, 0, 0x10000, false⟩
    let s : State := { home with walks := [(0, [q])], cores := [(0, { home.core 0 with xfault := none })] }
    ((SMap.get s.walks [] 0).find? fun q => (s.core q.core).xfault.isNone) = some q ∧ s.ray q.core q.rslot = none ∧ s.walk q.ctx q.va = none ∧
    (({ s with cores := [(0, { home.core 0 with xfault := some q })] } : State).core 0).xfault = some q ∧ bit (1 : DWord) 0 = true := by decide +kernel

/-- FlashProgram: a page outside the context's range; StoreCompletes: an operation of the ray that is none of LDRES and STCON. -/
theorem test_hyps_out_of_range : home.flashInRange 0 (bits (16 : DWord) 47 0) = false ∧ home.flashInRange 0 (bits (15 : DWord) 47 0) = true := by decide +kernel

/-! ### Hypotheses of the clauses about tagged tiles, gangs, the other copies and the causes of a clause -/

/-- AtomicCompletes: an atomic on an FP32 word of scratchpad that runs. -/
theorem test_hyps_float_atomic : let o := opOf 0x10 (.scratch 0) (.atom 1 4 1 true)
    ((withOp o).core 0).op 0 = some o ∧ o.done = false ∧ ((withOp o).core 0).mayPerform o = true ∧ o.act = BitVec.ofNat 32 (2 ^ 4) ∧
    o.place.getD 4 .off = .scratch 0 ∧ o.served = 0 ∧ o.olds = [] := by decide

/-- StoreFaults: a write-back whose tag names a ray that is resident, and one whose ray no slot holds. -/
theorem test_hyps_tagged : (∃ q y, q < 64 ∧ (homeS addrs).ray 0 q = some y ∧ y.l = (tag0 0).l ∧ y.pos = (tag0 0).pos ∧ y.rayId = (tag0 0).rayId ∧ y.th.live ≠ 0) ∧
    ((List.range 64).all fun q => (({ home with cores := [] } : State).ray 0 q).isNone) = true := ⟨⟨0, rayS addrs, by decide⟩, by decide +kernel⟩

/-- TileCompletes and StreamEvents: a stored tile of one level, whose bytes the forking beam may touch. -/
def taggedHome : State := { streaming stream0 [] with
  clusters := [(0, { (streaming stream0 []).cluster 0 with sram := tileAt 1 1, tiles := [(0, ⟨[], 1, false, some 0⟩)] })] }
theorem test_hyps_tagged_tiles : let h := headOf ((taggedHome.cluster 0).sram.readBytes 0 128)
    headBad h.1 h.2 = false ∧ h.1.tag % 8 = 1 ∧ h.1.tag / 16 = 0 ∧ ((taggedHome.cluster 0).tile 0).tag = 1 ∧ ((taggedHome.cluster 0).tile 0).owner = some stream0.fork.ctx ∧
    engineMay taggedHome stream0 0 (tileLength h.1) ∧ engineMay taggedHome stream0 0x1000 (128 + 2 ^ h.1.nlog * h.1.ch * 32 * elemSize h.1) ∧
    0 + tileLength h.1 ≤ 0x1000 ∧ ¬ engineMay taggedHome stream0 0x800000 1 ∧ written 1 = 1 ∧ written 0x30 = 0 ∧
    headBad (headOf ((taggedHome.cluster 0).sram.readBytes 0x2000 128)).1 (headOf ((taggedHome.cluster 0).sram.readBytes 0x2000 128)).2 = true := by
  unfold engineMay; decide +kernel
theorem test_hyps_tagged_product : let d : Desc := ⟨0x4000000000000000 ||| 0, 0⟩
    (∀ k ∈ [TileOp.mhaar 15 0x1000 1 1 0, .mihaarTile 0, .mihaar 0 0x1000, .mthrTile 0 [0x3F800000]],
      ∀ t, k.tile = some t → taggedHome.takePending 0 t = false) ∧ taggedHome.module.throttled = false ∧ d.tile = bit d.lo 63 := by decide +kernel

/-- LaunchEvents: launches of a merge, and one without, in a context that has faulted. -/
theorem test_hyps_faulted : let s : State := { home with ctxs := [(0, { ctx0 with faulted := true })], launches := [(0, { child 0 with merge := [0, 1] }), (1, child 0)] }
    s.ctxFaulted 0 = true ∧ (child 0).begun = false ∧ (child 0).bad = false ∧ s.awaitsMerge 0 { child 0 with merge := [0, 1] } = false := by decide +kernel

/-- PagePipeline: entries with NOPAGE and a codec or a selector, and a selector above NSEL and one without steps. -/
theorem test_hyps_bad_entries : (bits (0x0900000000000000 : DWord) 63 60 = 0 ∧ bits (0x0900000000000000 : DWord) 59 59 = 1 ∧ bits (0x0900000000000000 : DWord) 58 48 ≠ 0 ∧
      bits (0x0801000000000000 : DWord) 58 48 ≠ 0) ∧
    hdr0.nsel < bits (0x0001000000000000 : DWord) 55 48 ∧ (({ hdr0 with nsel := 1, bindings := [[0, 0, 0, 0]] } : Header).bindings[0]? = some [0, 0, 0, 0]) :=
  ⟨by decide +kernel, by decide +kernel, rfl⟩

/-- Preemption and SaveAndResume: a gang of two resident beams, at boundaries, and the same two saved. -/
def pairHdr : Header := { hdr0 with gang := 2 }
def pairEntry (st : EntryState) (k : Nat) : Entry := { entry0 with state := st, winOfs := 0x40000 + 0x8000 * k }
def pairLaunch (st : EntryState) : Launch := { launch0 with header := pairHdr, entries := [(0, pairEntry st 0), (1, pairEntry st 1)], nextPos := 2 }
def second : Ray := { boundary with pos := 1 }
def pairHome (c : Option Choice) : State := { resident boundary with
  launches := [(0, pairLaunch .running)], beams := [(beamKey 0 0, { beam0 with choice := c }), (beamKey 0 1, { beam0 with rays := [1], winOfs := 0x48000, choice := c })]
  cores := [(0, { (resident boundary).core 0 with rays := [(0, boundary), (1, second)] })] }
theorem test_hyps_gang_decided : gangMembers 2 launch0.nent 0 = [0, 1] ∧ (0 < pairHdr.gang ∧ (pairHome none).beam 0 1 ≠ none) ∧
    (beam0.halted = false ∧
      ({ pairHome none with ctxs := [(0, { ctx0 with suspended := true })] } : State).triggered 0 0 beam0 .suspend = true) ∧
    (∀ c ∈ [Choice.save false, .flush], let s := pairHome (some c)
      ((gangMembers 2 launch0.nent 0).filterMap fun q => (s.beam 0 q).map fun m => (q, m)).all (fun p =>
        s.savable 0 p.1 p.2 && !p.2.halted && s.atBoundary p.2 && p.2.streams == 0 && (s.opsOf 0 p.1 p.2).isEmpty) = true) := by decide +kernel
theorem test_hyps_gang_resumed : let v (k : Nat) : Saved := { saved0 with ops := [], rays := [{ boundary with pos := k }], beam := { beam0 with rays := [k], winOfs := 0x40000 + 0x8000 * k } }
    let s : State := { roomy .saved with launches := [(0, pairLaunch .saved)], saved := [(beamKey 0 0, v 0), (beamKey 0 1, v 1)], clock := 1 }
    s.resumeCluster (beamKey 0 0) = some 0 ∧ s.groupPast 0 0 = true ∧ s.mayPlace 0 = true ∧ s.mayResume (beamKey 0 0) = true ∧
    s.isNext 0 (s.savedCandidate (beamKey 0 0) (v 0)) = true ∧ (restoreGroup 0 0 [0, 1] s).isSome = true := by decide +kernel

/-- SaveAndResume: operations at a scratchpad byte within the beam's reach and beyond it, and at a FIFO bank of the context and at no such bank. -/
theorem test_hyps_refused : (homeS addrs).byteReach false 0 0 0 = true ∧ (homeS addrs).byteReach false 0 0 0x7F0000 = false ∧
    ((withOp (opOf 0xF0 (.fifo 1) (.load false 4 0))).cluster 0).bank 1 = { ((homeS addrs).cluster 0).bank 1 with mode := .fifo, owner := some 0, sw := false } ∧
    ((homeS addrs).cluster 0).bank 9 ≠ { ((homeS addrs).cluster 0).bank 9 with mode := .fifo } ∧
    (let o := opOf 0x10 (.fifo 9) (.load false 4 0); bit o.act 4 = true ∧ bit o.served 4 = false ∧ bit o.failed 4 = false ∧
      (((withOp o).completeOp 0 o id).ray 0 o.rslot).isSome = true) := by decide +kernel

/-- RayCommands: PARK of a ray that has ended; ModuleCommands: a RELEASE_OWNER whose contexts are quiet. -/
theorem test_hyps_ended : let r : Ray := { ray0 with th := { plain with live := 0 } }
    (resident r).ray 0 0 = some r ∧ r.th.live = 0 ∧
    (let s : State := { home with beams := [], launches := [], fns := [(0, { Fn.reset with doing := some (0x10, 0), cmdAddr := 0x1000 })] }
     (s.fnOf 0).doing = some (0x10, 0) ∧ (s.fnOf 0).cmdAddr = (0x1000 : DWord).toNat ∧ ∀ p ∈ s.ctxs, s.ctxQuiet p.1 = true) := by decide +kernel

/-- CopyOtherChunks: chunk 0 of an XCOPY.OUT that is taken up and written out, of an XMCAST whose last chunk it is and whose record can be read,
and of the page copies, before and after the page is sensed. -/
def workAt (c : Copy) (o : Op) : Bool := decide (((copyHome c).core 0).op 0 = some o) && !o.isOver && decide (c.tok2 ≠ some c.tok) &&
  ((copyHome c).ray 0 o.rslot).isSome && !(copyHome c).ctxFaulted o.ctx
theorem test_hyps_other_chunks : let at_ (k : CopyKind) (t2 : Option Nat) (d : List Nat) : Copy :=
      { theCopy k with lay := some lay0, accepted := true, nch := 1, tok2 := t2, done1 := d }
    let page (k : CopyKind) (t2 : Option Nat) : Copy := { theCopy k with accepted := true, nch := 32, tok2 := t2 }
    let op (c : Copy) : Op := opOf 0x10 .off (.copy c)
    (∀ c ∈ [at_ .xout (some 9) [], at_ .xout (some 9) [0], at_ (.mcast 1 0) none []], workAt c (op c) = true ∧ c.acq = false ∧ 0 < c.nch ∧ c.nch ≤ 48 ∧ c.done1.Nodup ∧
      (copyHome c).engineMisses 0 0 (c.chunkAddrs 0) = [] ∧
      ∀ w ∈ [false, true], (((copyHome c).engineFill 0 0 []).chunkPlaces 0 (op c) (boxMap lay0 c.desc) w 0).isOk = true) ∧
    (∀ c ∈ [page .fread none, page .fwrite (some 9)], workAt c (op c) = true ∧ c.lay = none ∧ c.err = 0 ∧ c.done2 = [] ∧ (copyHome c).engineMisses 0 0 (c.chunkAddrs 0) = [] ∧
      ∀ w ∈ [false, true], (((copyHome c).engineFill 0 0 []).bufferPlaces 0 (op c) c w 0).isOk = true) ∧
    ((copyHome (page .fread none)).flashData 0 3 = none ∧
      ({ copyHome (page .fread none) with module := { Module.reset with flash := [(3, ⟨[1]⟩)] } } : State).flashData 0 3 = some [1]) ∧
    ((copyHome (at_ (.mcast 1 0) none [])).beam 0 0 ≠ none) ∧ home.receiver 0 0x40000 = some (0, 0) ∧ home.receiver 1 0x40000 = none := by decide +kernel
theorem test_hyps_mcast_accept : let c : Copy := { theCopy (.mcast 1 0) with record := 0x200, desc := [0x0100000000000000, 0, 0, 0x0001000100000000, 0x0000000100010001, 1] }
    let o := opOf 0x10 .off (.copy c)
    let s : State := { copyHome c with hbm := layoutRec }
    s.nextCopy 0 = some o.id ∧ c.err = 0 ∧ s.engineMisses 0 0 [c.record.toNat] = [] ∧
    (match ((s.engineFill 0 0 []).copyAcquires 0 c).acceptTensor 0 o c true with
      | .ok (_, m) => !m.outside 0 && decide (0 * 512 < m.count * m.ebytes)
      | .error _ => false) = true := by decide +kernel

/-- ClauseChecks: a header with and without each fault, a slot's words with none, and instructions that break each of its rules, at words
written out from the encodings. -/
theorem test_clause_causes : let e (h : Word) : ClauseEnv := ⟨false, 8, 0x1000, 0x40, h⟩
    let fails (h : Word) (ws : List Word) := clauseFail (e h) ws
    fails 0x10000000 [0x00E03E7C] = none ∧ fails 0x00000000 [] = some (0, 1) ∧ fails 0x1E000000 [0x00E03E7C] = some (0, 1) ∧ fails 0x10000002 [0x00E03E7C] = some (0, 1) ∧
    fails 0x10000800 [0x00E03E7C] = some (0, 1) ∧ fails 0x1A000000 [0x00E03E7C] = some (0, 2) ∧ fails 0x12000000 [0x00E03E7C] = some (1, 2) ∧
    fails 0x20000000 [0xFEE03E7C, 0x19F80000] = some (1, 3) ∧ fails 0x10000000 [0x30E03E7D] = some (1, 4) ∧ fails 0x12000000 [0xE0E04160] = some (1, 4) ∧
    fails 0x10000400 [0x00E03E7C] = some (1, 5) ∧ fails 0x10000000 [0xFEE03E7C] = some (1, 6) ∧ fails 0x10000000 [0x00E03E7D] = some (1, 6) ∧
    fails 0x26000000 [0xD6FFFE7C, 0xD6FFFE7C] = some (1, 6) ∧ fails 0x16000000 [0xD0F00000] = some (1, 7) ∧
    fails 0x10000000 [0x00E03FFC] = some (1, 0x10) ∧ fails 0x10000000 [0x00E03C7C] = some (1, 0x11) ∧ fails 0x10000000 [0x00E0047C] = some (1, 0x12) ∧
    fails 0x10000000 [0x04E0007C ||| 0x80] = some (1, 0x13) := by decide +kernel

/-- ConversionCases: values at, above and below the ends of a narrower type, and finite and infinite operands of every format. -/
theorem test_hyps_narrowing : (∀ v ∈ [(128 : Int), -129, 127, -128], (BitVec.ofInt 32 v).toInt = v) ∧
    (∀ p ∈ [(fmtF32, 0x7F800000), (fmtF16, 0x7C00), (fmtBf16, 0x7F80), (fmtE5m2, 0x7C)], ((⟨.rne, false, 0⟩ : FMode).read p.1 p.2).1 = .inf false) := by decide +kernel

/-! ### Hypotheses and values of the statements as the fourth review widened them -/

/-- A ray with a FIFO load, a FENCE after it, and a third operation. -/
def fencedOps (f : Op) (third : OpKind) : State :=
  { withOp f with cores := [(0, { (withOp f).core 0 with
      ops := [opOf 0x10 (.fifo 1) (.load false 4 0), { f with id := 1 }, { opOf 0x10 (.phys false 0x100 false) third with id := 2 }], nextOp := 3 })] }
/-- The FENCE as it issued, and once it has completed beside the load that waits at its bank. -/
def fence0 : Op := opOf 0x10 .off (.fence 3)
def fence1 : Op := { fence0 with done := true, accepted := true }
/-- SynchronisationCompletes: a FENCE whose earlier access waits at a FIFO bank. -/
theorem test_hyps_fence_fifo : let s := fencedOps fence0 (.load false 4 0)
    (s.core 0).op 1 = some { fence0 with id := 1 } ∧ fence0.isOver = false ∧ s.fenceWaits 0 { fence0 with id := 1 } = true ∧
    (∀ p ∈ (s.core 0).ops, p.id < 1 → p.rslot = fence0.rslot → p.fenceWaits = true → (s.core 0).behindFifo p = true) := by decide +kernel
/-- R188, R190, R248: an STNT waits for a FENCE to complete, and no longer; a load goes on waiting for the earlier FIFO load. -/
theorem test_fence_lingers : let may (f : Op) (k : OpKind) : Bool :=
      ((fencedOps f k).core 0).mayPerform { opOf 0x10 (.phys false 0x100 false) k with id := 2 }
    may fence0 (.store true 4 0) = false ∧ may fence1 (.store true 4 0) = true ∧ may fence1 (.load false 4 0) = false ∧
    may fence1 (.store false 4 0) = false ∧ may { fence1 with isOver := true } (.load false 4 0) = true := by decide +kernel

/-- StoreCompletes: the word of the scratchpad that a store writes into is poisoned. -/
theorem test_hyps_poisoned_store : let o := opOf 0x10 (.scratch 16) (.store false 4 0)
    let s : State := { withOp o with poison := [(1, 2)] }
    (∃ w ∈ s.poison, w ∈ s.storeWords 0 o) ∧ lanesIn o (fun p => (∃ a, p = .scratch a) ∨ ∃ h a nc, p = .phys h a nc) := by
  refine ⟨⟨(1, 2), by decide +kernel, by decide +kernel⟩, fun k hk h => .inl ⟨16, ?_⟩⟩
  revert k; decide

/-- R226: a group sum beyond the range of FP32 is infinity, the largest finite value is itself. -/
theorem test_group_sum_range : (XVal.fin false (2 ^ 128) 1).inF32 = .inf false ∧ (XVal.fin true (2 ^ 130) 3).inF32 = .inf true ∧
    (XVal.fin false (2 ^ 128 - 2 ^ 104) 1).inF32 = .fin false (2 ^ 128 - 2 ^ 104) 1 := by decide +kernel

/-- R81, R352: with the default EXPECT a run of 2^26 slots per ray has the estimate 0, with an EXPECT of 2^27 it has 128. -/
theorem test_progress_default : let s (n : Nat) : State := { resident { boundary with th := { boundary.th with retired := 0x4000000#64 } } with
      launches := [(0, { launch0 with header := { hdr0 with expect := n } })] }
    (s (2 ^ 32 - 1)).progress 0 0 = 0 ∧ (s (2 ^ 27)).progress 0 0 = 128 := by decide +kernel

/-- R359: in an opened record the decrement of a completed copy waits for an older load that the save captured. -/
theorem test_record_order : let o (i : Nat) (k : OpKind) (done : Bool) : Op :=
      { opOf 0x10 (.phys false 0x100 false) k with id := i, dc := some 0, done := done, isOver := done }
    (retirePass [(o 0 (.load false 4 0) false).standIn, o 1 (.spawn [] []) true] []).2 = [] ∧
    ((retirePass [{ (o 0 (.load false 4 0) false).standIn with done := true }, o 1 (.spawn [] []) true] []).2).length = 2 := by decide +kernel

/-- R328, R329: of 512 KiB for windows the middle is an open place for a first member and leaves no room for a second: both take the
lowest places. -/
theorem test_gang_reserve : let win : Bank := ⟨.scratch, none, true, false, 0, 0, 0⟩
    let c : Cluster := { Cluster.reset with banks := [(0, win), (1, win), (2, win), (3, win)] }
    (reserveSpace c 0 4 2) = none ∧ ((reserveAll c 0 4 [0, 1]).map fun d => (d.windows.map fun w => w.ofs)) = some [0, 0x40000] := by decide +kernel

end Sys2Proof.Tests
end

section
/-!
SUPPORT. The fields of encoded words (R99, R101, R103), as numbers, and what a trap leaves of a ray's registers (R379).
-/
namespace Sys2Proof
open Sys2Proof.Machine Sys2Proof.Claims

/-! ### Fields of encoded words -/

/-- A bit is the field of its one position. -/
theorem bit_of_bits {w : Nat} {x : BitVec w} {i : Nat} {b : Bool} (h : bits x i i = b2n b) : bit x i = b := by
  rw [bits, Nat.add_sub_cancel_left, pow_one] at h
  rw [bit, BitVec.getLsbD, Nat.testBit_eq_decide_div_mod_eq, h]
  cases b <;> rfl

theorem bit_false_of_bits {w : Nat} {x : BitVec w} {i : Nat} (h : bits x i i = 0) : bit x i = false :=
  bit_of_bits (b := false) h

theorem b2n_lt (b : Bool) : b2n b < 2 := by cases b <;> decide

theorem b2n_eq_toNat (b : Bool) : b2n b = b.toNat := by cases b <;> rfl

theorem Opnd.code_lt (o : Opnd) : o.code < 128 := by
  cases o <;> simp only [Opnd.code] <;> omega

theorem packHead_lt {opc : Nat} (g : Guard) (h : opc < 128) : packHead opc g < 2048 := by
  have := b2n_lt g.neg
  unfold packHead
  omega

/-- A word whose bits [31:21] are a packed head starts with that head's opcode and guard (R99). -/
theorem startsWith_of_head {w : Word} {opc : Nat} {g : Guard} (h : w.toNat / 2 ^ 21 = packHead opc g) : startsWith w opc g := by
  have := b2n_lt g.neg
  unfold packHead at h
  refine ⟨?_, bit_of_bits ?_, ?_⟩ <;> simp only [bits] <;> omega

theorem toNat_packBasic {opc d a b : Nat} (g : Guard) (ho : opc < 128) (hd : d < 128) (ha : a < 128) (hb : b < 128) :
    (packBasic opc g d a b).toNat = ((packHead opc g * 128 + d) * 128 + a) * 128 + b := by
  have := packHead_lt g ho
  rw [packBasic, BitVec.toNat_ofNat, Nat.mod_eq_of_lt (by omega)]

theorem toNat_packCmp {opc pt pf a b : Nat} (g : Guard) (ho : opc < 128) (ht : pt < 8) (hf : pf < 8) (ha : a < 256)
    (hb : b < 128) :
    (packCmp opc g pt pf a b).toNat = (((packHead opc g * 8 + pt) * 8 + pf) * 256 + a) * 128 + b := by
  have := packHead_lt g ho
  rw [packCmp, BitVec.toNat_ofNat, Nat.mod_eq_of_lt (by omega)]

theorem toNat_packExt {xop c x : Nat} (ho : xop < 256) (hc : c < 128) (hx : x < 131072) :
    (packExt xop c x).toNat = (xop * 128 + c) * 131072 + x := by
  rw [packExt, BitVec.toNat_ofNat, Nat.mod_eq_of_lt (by omega)]

/-- The fields of the basic format (R99). -/
theorem packBasic_fields {opc d a b : Nat} (g : Guard) (ho : opc < 128) (hd : d < 128) (ha : a < 128) (hb : b < 128) :
    startsWith (packBasic opc g d a b) opc g ∧ bits (packBasic opc g d a b) 20 14 = d ∧
      bits (packBasic opc g d a b) 13 7 = a ∧ bits (packBasic opc g d a b) 6 0 = b := by
  have hw := toNat_packBasic g ho hd ha hb
  refine ⟨startsWith_of_head ?_, ?_, ?_, ?_⟩ <;> simp only [bits, hw] <;> omega

/-- The fields of the compare format that every instruction of it has in common (R101). -/
theorem packCmp_fields {opc a b : Nat} (g : Guard) (pt pf : Pred) (ho : opc < 128) (ha : a < 256) (hb : b < 128) :
    startsWith (packCmp opc g pt pf a b) opc g ∧ bits (packCmp opc g pt pf a b) 20 18 = pt.val ∧
      bits (packCmp opc g pt pf a b) 17 15 = pf.val := by
  have hw := toNat_packCmp g ho pt.isLt pf.isLt ha hb
  refine ⟨startsWith_of_head ?_, ?_, ?_⟩ <;> simp only [bits, hw] <;> omega

/-- The fields of an extension word (R103). -/
theorem packExt_fields {xop c x : Nat} (ho : xop < 256) (hc : c < 128) (hx : x < 131072) :
    bits (packExt xop c x) 31 24 = xop ∧ bits (packExt xop c x) 23 17 = c ∧ bits (packExt xop c x) 16 0 = x := by
  have hw := toNat_packExt ho hc hx
  refine ⟨?_, ?_, ?_⟩ <;> simp only [bits, hw] <;> omega

end Sys2Proof

namespace Sys2Proof.Machine

/-! ### What a trap leaves of a ray's registers -/

@[simp] theorem Core.raise_rays (c : Core) (e : BitVec 256) : (c.raise e).rays = c.rays := by
  unfold Core.raise
  split <;> rfl

/-- A precise trap parks the ray with its registers as they were (R379). -/
theorem takeTrap_keeps_th {s : State} {core rslot : Nat} {r : Ray} (why : ParkReason) (t : TrapInfo)
    (h : s.ray core rslot = some r) : ∃ q, (s.takeTrap core rslot why t).ray core rslot = some q ∧ q.th = r.th := by
  rw [takeTrap_eq h]
  exact ⟨{ r with parked := some why, resv := [], stall := none, unresolved := [] }, by simp [State.ray], rfl⟩

/-- So does a run-time trap of the ray that executes, wherever it stands. -/
theorem trapCur_keeps_th {s : State} {core rslot : Nat} {r : Ray} (cause : Nat) (lanes : Mask) (detail info : Nat)
    (h : s.executes core rslot r) :
    ∃ q, (s.trapCur cause lanes detail info).ray core rslot = some q ∧ q.th = r.th := by
  obtain ⟨hcur, hray⟩ := h
  simp only [State.trapCur, hcur, hray]
  exact takeTrap_keeps_th _ _ hray

end Sys2Proof.Machine
end

section
/-!
SUPPORT. Proofs about PLOP and the votes: results and words (R125, R126).
-/
namespace Sys2Proof.Machine
open Sys2Proof.Claims

/-! ### Votes as folds over the active lanes -/

theorem mem_lanesOf {m : Mask} {k : Nat} : k ∈ lanesOf m ↔ k < 32 ∧ bit m k = true := by
  simp [lanesOf]

/-- The bit of a vote's mask is the predicate's, complemented where N is 1 (R126). -/
theorem bit_voteMask (t : Thread) (pa : Pred) (n : Bool) {k : Nat} (hk : k < 32) :
    bit (t.voteMask pa n) k = (bit (t.pred pa) k != n) := by
  cases n <;> simp [Thread.voteMask, bit_not _ hk]

theorem mask_eq_zero {m : Mask} : m = 0 ↔ ∀ k < 32, bit m k = false :=
  ⟨fun h k _ => by simp [h], fun h => mask_ext fun k hk => by simp [h k hk]⟩

/-- Two masks meet exactly when some lane of one is in the other. -/
theorem and_ne_zero_eq_any {act m : Mask} {v : Nat → Bool} (hv : ∀ k < 32, bit m k = v k) :
    (act &&& m != 0) = (lanesOf act).any v := by
  rw [Bool.eq_iff_iff, bne_iff_ne, ne_eq, mask_eq_zero, List.any_eq_true]
  constructor
  · intro h
    push Not at h
    obtain ⟨k, hk, hb⟩ := h
    have ⟨ha, hm⟩ : bit act k = true ∧ bit m k = true := by simpa using hb
    exact ⟨k, mem_lanesOf.2 ⟨hk, ha⟩, hv k hk ▸ hm⟩
  · rintro ⟨k, hmem, hvk⟩ h
    obtain ⟨hk, ha⟩ := mem_lanesOf.1 hmem
    simpa [ha, hv k hk, hvk] using h k hk

/-- No lane of a mask is outside another exactly when every lane of it is inside. -/
theorem and_not_eq_zero_eq_all {act m : Mask} {v : Nat → Bool} (hv : ∀ k < 32, bit m k = v k) :
    (act &&& ~~~m == 0) = (lanesOf act).all v := by
  have hnot : ∀ k < 32, bit (~~~m) k = !v k := fun k hk => by rw [bit_not m hk, hv k hk]
  have h := and_ne_zero_eq_any (act := act) hnot
  rw [← Bool.not_inj_iff, List.not_all_eq_any_not, ← h]
  rfl

end Sys2Proof.Machine

namespace Sys2Proof.Proofs
open Sys2Proof.Machine Sys2Proof.Claims

/-! ### Results -/

theorem exec_plop_decided {g : Guard} {pt pf pa pb : Pred} {table : BitVec 4} {s : State} {t : Thread}
    (h : s.atSlot t (.plop g pt pf pa pb table)) :
    exec (.plop g pt pf pa pb table) s = .next (s.decided t (.plop g pt pf pa pb table) pt pf
      fun k => table.getLsbD ((bit (t.pred pa) k).toNat + 2 * (bit (t.pred pb) k).toNat)) := by
  simp only [← b2n_eq_toNat]
  rw [exec_plop]
  exact predOp_next h fun _ _ _ => rfl

theorem exec_voteAny_decided {g : Guard} {pt pf pa : Pred} {n : Bool} {s : State} {t : Thread}
    (h : s.atSlot t (.voteAny g pt pf pa n)) :
    exec (.voteAny g pt pf pa n) s = .next (s.decided t (.voteAny g pt pf pa n) pt pf
      fun _ => (lanesOf (t.active g)).any fun k => bit (t.pred pa) k != n) := by
  rw [exec_voteAny, ← and_ne_zero_eq_any fun k => bit_voteMask t pa n]
  exact predOp_next h fun _ _ _ => rfl

theorem exec_voteAll_decided {g : Guard} {pt pf pa : Pred} {n : Bool} {s : State} {t : Thread}
    (h : s.atSlot t (.voteAll g pt pf pa n)) :
    exec (.voteAll g pt pf pa n) s = .next (s.decided t (.voteAll g pt pf pa n) pt pf
      fun _ => (lanesOf (t.active g)).all fun k => bit (t.pred pa) k != n) := by
  rw [exec_voteAll, ← and_not_eq_zero_eq_all fun k => bit_voteMask t pa n]
  exact predOp_next h fun _ _ _ => rfl

/-! ### Words -/

/-- PLOP's word: PA and PB in the upper parts of the two fields after PT and PF, its table in the lowest bits (R125). -/
theorem plop_word (g : Guard) (pt pf pa pb : Pred) (table : BitVec 4) :
    ∃ w, encode (.plop g pt pf pa pb table) = [w] ∧ startsWith w 0x25 g ∧ bits w 20 18 = pt.val ∧ bits w 17 15 = pf.val ∧
      bit w 14 = false ∧ bits w 13 11 = pa.val ∧ bits w 10 8 = pb.val ∧ bits w 7 4 = 0 ∧ bits w 3 0 = table.toNat := by
  have ha : pa.val * 16 + pb.val * 2 < 256 := by omega
  have hb : table.toNat < 128 := by omega
  have hw := toNat_packCmp g (opc := 0x25) (by decide) pt.isLt pf.isLt ha hb
  obtain ⟨hs, ht, hf⟩ := packCmp_fields g pt pf (opc := 0x25) (by decide) ha hb
  refine ⟨_, rfl, hs, ht, hf, bit_false_of_bits ?_, ?_, ?_, ?_, ?_⟩ <;>
    simp only [bits, hw] <;> omega

/-- The word that VOTE.ANY and VOTE.ALL share but for the opcode: PA and N after PT and PF (R126). -/
theorem vote_word {opc : Nat} (g : Guard) (pt pf pa : Pred) (n : Bool) (ho : opc < 128) :
    let w := packCmp opc g pt.val pf.val (pa.val * 16 + b2n n * 8) 0x7C
    startsWith w opc g ∧ bits w 20 18 = pt.val ∧ bits w 17 15 = pf.val ∧ bit w 14 = false ∧
      bits w 13 11 = pa.val ∧ bit w 10 = n ∧ bits w 9 0 = 0x7C := by
  have hn := b2n_lt n
  have ha : pa.val * 16 + b2n n * 8 < 256 := by omega
  have hw := toNat_packCmp g ho pt.isLt pf.isLt ha (show 0x7C < 128 by decide)
  obtain ⟨hs, ht, hf⟩ := packCmp_fields g pt pf ho ha (show 0x7C < 128 by decide)
  refine ⟨hs, ht, hf, bit_false_of_bits ?_, ?_, bit_of_bits ?_, ?_⟩ <;>
    simp only [bits, hw] <;> omega

/-- Settles O12: the predicate frame with no mark to check, a vote's mask read lane by lane, and the compare format's
fields. -/
theorem predicateResults : Obligations.PredicateResults := by
  unfold Obligations.PredicateResults
  intro g pt pf pa pb n table s t
  refine ⟨exec_plop_decided, exec_voteAny_decided, exec_voteAll_decided, plop_word g pt pf pa pb table, ?_⟩
  simp only [List.forall_mem_cons, List.not_mem_nil, false_implies, implies_true, and_true]
  exact ⟨⟨_, rfl, vote_word g pt pf pa n (by decide)⟩, _, rfl, vote_word g pt pf pa n (by decide)⟩

end Sys2Proof.Proofs
end

section
/-!
SUPPORT. Proofs about the divisions: results, the divide check and the words (R116).
-/
namespace Sys2Proof.Proofs
open Sys2Proof.Machine Sys2Proof.Claims

/-! ### Truncated division by signs and magnitudes -/

theorem tdiv_eq_sign_mul (x y : Int) : x.tdiv y = x.sign * y.sign * (x.natAbs / y.natAbs : Nat) := by
  rw [← Int.sign_mul_natAbs (x.tdiv y), Int.sign_tdiv, Int.natAbs_tdiv]
  split
  case isTrue h => rw [Nat.div_eq_of_lt h]; simp
  case isFalse => rfl

theorem tmod_eq_sign_mul (x y : Int) : x.tmod y = x.sign * (x.natAbs % y.natAbs : Nat) := by
  rw [← Int.sign_mul_natAbs (x.tmod y), Int.sign_tmod, Int.natAbs_tmod]
  split
  case isTrue h => rw [Nat.mod_eq_zero_of_dvd (Int.natAbs_dvd_natAbs.2 h)]; simp
  case isFalse => rfl

/-! ### Results -/

/-- Each division runs the divide frame on its result, under its own guard. -/
theorem exec_division {row : (Guard → Opnd → Opnd → Opnd → Instr) × (Word → Word → Word)} (hrow : row ∈ divisions)
    (g : Guard) (d a b : Opnd) (s : State) :
    exec (row.1 g d a b) s = divide (row.1 g d a b) d a b row.2 s ∧ (row.1 g d a b).guard = g := by
  simp only [divisions, List.mem_cons, List.not_mem_nil, or_false] at hrow
  obtain rfl | rfl | rfl | rfl := hrow
  · simp only [← tdiv_eq_sign_mul]
    exact ⟨exec_idivS32 g d a b s, rfl⟩
  · exact ⟨exec_idivZ32 g d a b s, rfl⟩
  · simp only [← tmod_eq_sign_mul]
    exact ⟨exec_iremS32 g d a b s, rfl⟩
  · exact ⟨exec_iremZ32 g d a b s, rfl⟩

theorem divisionValues : DivisionValues := by
  intro row hrow g d a b s t hslot hclean hdivisor
  obtain ⟨hexec, hguard⟩ := exec_division hrow g d a b s
  rw [hexec]
  refine regOp_next hslot ?_ ?_ <;> rw [hguard]
  · exact anyMarked_clean hclean
  · exact fun k hk ha => beq_false_of_ne (hdivisor k hk ha)

theorem divideCheck : DivideCheck := by
  intro row hrow g d a b s t hslot hclean hzero
  obtain ⟨hexec, hguard⟩ := exec_division hrow g d a b s
  refine ⟨?_, fun core rslot r hcur hray => trapCur_keeps_th _ _ _ _ ⟨hcur, hray⟩⟩
  obtain ⟨k, hk, ha, hb⟩ := hzero
  rw [hexec]
  refine (regOp_check hslot ?_ ⟨k, hk, ?_, beq_iff_eq.2 hb⟩).trans ?_ <;> rw [hguard]
  · exact anyMarked_clean hclean
  · exact ha
  · rfl

/-! ### Words -/

/-- The two words that the divisions share but for the extended opcode. -/
theorem division_words {xop : Nat} (g : Guard) (d a b : Opnd) (ho : xop < 256) :
    let w := packBasic 0x7F g d.code a.code b.code
    let x := packExt xop 0x7C 0
    startsWith w 0x7F g ∧ bits w 20 14 = d.code ∧ bits w 13 7 = a.code ∧ bits w 6 0 = b.code ∧
      bits x 31 24 = xop ∧ bits x 23 17 = 0x7C ∧ bits x 16 0 = 0 := by
  obtain ⟨hs, hd, ha, hb⟩ := packBasic_fields g (opc := 0x7F) (by decide) d.code_lt a.code_lt b.code_lt
  exact ⟨hs, hd, ha, hb, packExt_fields ho (by decide) (by decide)⟩

theorem divisionWords : DivisionWords := by
  intro row hrow g d a b
  simp only [List.mem_cons, List.not_mem_nil, or_false] at hrow
  obtain rfl | rfl | rfl | rfl := hrow <;> exact ⟨_, _, _, rfl, division_words g d a b (by decide)⟩

/-- Settles O29: the divide frame with its check passed and failed, the signed results by sign and magnitude, and the
fields of the two words. -/
theorem divisionResults : Obligations.DivisionResults :=
  ⟨divisionValues, divideCheck, divisionWords⟩

end Sys2Proof.Proofs
end

section
/-!
SUPPORT. Proofs about the functions' special inputs (R36, R39, R152).
-/
namespace Sys2Proof.Machine

/-! ### Reading an operand -/

/-- A code is a signalling NaN exactly if it is a NaN whose quiet bit is 0 in a format that has one (R36). -/
theorem Fmt.decode_signalling (f : Fmt) (flush : Bool) (x : Nat) : (f.decode flush x).2 =
    ((f.decode flush x).1.isNan && (f.quiet && decide (x % 2 ^ (f.width - 1) % 2 ^ f.mant < 2 ^ (f.mant - 1)))) := by
  unfold Fmt.decode
  dsimp only
  split_ifs <;> simp [XVal.isNan]

theorem FMode.read_flags (m : FMode) (f : Fmt) (x : Nat) : (m.read f x).2 =
    flagIf ((m.read f x).1.isNan && (f.quiet && decide (x % 2 ^ (f.width - 1) % 2 ^ f.mant < 2 ^ (f.mant - 1)))) flNV :=
  congrArg (flagIf · flNV) (f.decode_signalling (m.flush f) x)

/-- Reading a number raises nothing. -/
theorem FMode.read_flags_of_number {m : FMode} {f : Fmt} {x : Nat} (h : (m.read f x).1.isNan = false) : (m.read f x).2 = 0 := by
  simp [m.read_flags, h, flagIf]

/-- A NaN's quiet bit is the top bit of its mantissa. -/
theorem quiet_bit_zero_iff {f : Fmt} (h0 : 0 < f.mant) (h1 : f.mant < f.width) (h2 : f.width ≤ 32) (x : Nat) :
    x % 2 ^ (f.width - 1) % 2 ^ f.mant < 2 ^ (f.mant - 1) ↔ bits (BitVec.ofNat 32 x) (f.mant - 1) (f.mant - 1) = 0 := by
  obtain ⟨k, hk⟩ : ∃ k, f.mant = k + 1 := ⟨f.mant - 1, by omega⟩
  have hhigh : x % 2 ^ (f.width - 1) % 2 ^ (k + 1) = x % 2 ^ (k + 1) := Nat.mod_mod_of_dvd x (pow_dvd_pow 2 (by omega))
  have hword : x % 2 ^ 32 / 2 ^ k % 2 = x / 2 ^ k % 2 := by
    rw [← Nat.mod_mul_right_div_self, ← Nat.mod_mul_right_div_self, ← pow_succ, Nat.mod_mod_of_dvd x (pow_dvd_pow 2 (by omega))]
  simp only [bits, hk, Nat.add_sub_cancel, Nat.add_sub_cancel_left, BitVec.toNat_ofNat, pow_one, hhigh, hword]
  rw [← Nat.mod_mul_right_div_self, ← pow_succ, Nat.div_eq_zero_iff]
  simp

/-- Reading a NaN raises NV only if it signals (R36). -/
theorem FMode.read_flags_of_nan {m : FMode} {f : Fmt} {x : Nat} (hq : f.quiet = true) (h0 : 0 < f.mant) (h1 : f.mant < f.width)
    (h2 : f.width ≤ 32) (h : (m.read f x).1.isNan = true) :
    (m.read f x).2 = if bits (BitVec.ofNat 32 x) (f.mant - 1) (f.mant - 1) = 0 then flNV else 0 := by
  simp [m.read_flags, h, hq, quiet_bit_zero_iff h0 h1 h2, flagIf]

/-! ### Functions of special inputs -/

/-- A function's row of R152 says its result and flags, whatever RM and SAT are. -/
theorem Fun1.run_of_special {f : Fun1} {m : FMode} {fmt : Fmt} {code : Nat} {v : XVal} {fl : BitVec 6}
    (h : f.special (m.read fmt code).1 = some (v, fl)) :
    f.run m fmt code = ((roundTo fmt .rne false false v).1, (m.read fmt code).2 ||| fl) := by
  simp only [Fun1.run, h]

/-- What a function delivers for a code with an entry in R152, by the flush bit alone; none for another code. -/
def Fun1.tabled (f : Fun1) (fmt : Fmt) (flush : Bool) (code : Nat) : Option (Nat × BitVec 6) :=
  (f.special (fmt.decode flush code).1).map fun r =>
    ((roundTo fmt .rne false false r.1).1, flagIf (fmt.decode flush code).2 flNV ||| r.2)

theorem Fun1.run_of_tabled {f : Fun1} {m : FMode} {fmt : Fmt} {code : Nat} {r : Nat × BitVec 6}
    (h : f.tabled fmt (m.flush fmt) code = some r) : f.run m fmt code = r := by
  obtain ⟨⟨v, fl⟩, hs, rfl⟩ := Option.map_eq_some_iff.1 h
  exact run_of_special hs

/-- A NaN gives the canonical NaN (R152). -/
theorem Fun1.run_nan {f : Fun1} {m : FMode} {fmt : Fmt} {code : Nat} (h : (m.read fmt code).1.isNan = true) :
    f.run m fmt code = (fmt.nanOf false, (m.read fmt code).2) := by
  have hs : f.special (m.read fmt code).1 = some (.nan false, 0) := by
    cases hv : (m.read fmt code).1 with
    | nan s => rfl
    | inf s | fin s n d => simp [hv, XVal.isNan] at h
  simp [run_of_special hs, roundTo]

/-- FRSQ, FSQRT and FLOG2 have no value below zero. -/
theorem Fun1.special_below_zero {f : Fun1} (hf : f ∈ [Fun1.rsq, .sqrt, .log2]) {n : Nat} (d : Nat) (hn : n ≠ 0) :
    f.special (.fin true n d) = some (.nan false, flNV) := by
  simp only [List.mem_cons, List.not_mem_nil, or_false] at hf
  obtain rfl | rfl | rfl := hf <;> simp [Fun1.special, hn]

/-- Where a function's value raises no NX, the free value plays no part (R151). -/
theorem Fun1.approx_of_exact {f : Fun1} {m : FMode} {fmt : Fmt} {code n d : Nat} {neg : Bool}
    (h : f.exact fmt neg n d (f.value neg n d) = true) : f.approx m fmt code neg n d =
      roundTo fmt .rne m.sat (m.flush fmt) (fmt.unbounded (roundTo fmt .rne false false (f.value neg n d)).1) := by
  simp [Fun1.approx, h]

/-! ### FLOG2 of 1.0 -/

@[simp] theorem scale2_zero (n d : Nat) : scale2 n d 0 = (n, d) := by simp [scale2]

@[simp] theorem fracLog_self (n : Nat) : fracLog n n = 0 := by simp [fracLog]

@[simp] theorem atanhTail_zero (z2 p fuel k : Nat) : atanhTail z2 p fuel k 0 = 0 := by
  induction fuel generalizing k with
  | zero => rfl
  | succ fuel ih => simp [atanhTail, ih]

theorem Fun1.log2_value_one (n : Nat) : Fun1.log2.value false n n = .fin false 0 1 := by
  simp [Fun1.value, fxVal, XVal.ofFrac]

theorem Fun1.log2_exact_one (fmt : Fmt) (n : Nat) (v : XVal) : Fun1.log2.exact fmt false n n v = true := by
  simp [Fun1.exact]

/-- FLOG2 of 1.0 is the exact +0, raising nothing (R152). -/
theorem Fun1.log2_run_of_one {m : FMode} {code n : Nat} (hn : n ≠ 0) (h : m.read fmtF32 code = (.fin false n n, 0)) :
    Fun1.log2.run m fmtF32 code = (0, 0) := by
  have happrox : Fun1.log2.approx m fmtF32 code false n n = (0, 0) := by
    rw [approx_of_exact (log2_exact_one ..), log2_value_one]
    rfl
  simp [Fun1.run, h, Fun1.special, hn, happrox]

end Sys2Proof.Machine

namespace Sys2Proof.Proofs
open Sys2Proof.Machine Sys2Proof.Claims

/-- The rows of R152 at the infinities and zeros of FP32, flushed or not. -/
theorem specialResults_tabled : ∀ row ∈ specialResults, ∀ flush : Bool,
    row.1.tabled fmtF32 flush 0xFF800000 = some row.2.1 ∧ row.1.tabled fmtF32 flush 0x80000000 = some row.2.2.1 ∧
      row.1.tabled fmtF32 flush 0x00000000 = some row.2.2.2.1 ∧ row.1.tabled fmtF32 flush 0x7F800000 = some row.2.2.2.2 := by
  decide

/-- FEXP2's row of R152 at the infinities and zeros of FP16, flushed or not. -/
theorem exp2_half_tabled : ∀ flush : Bool,
    Fun1.exp2.tabled fmtF16 flush 0xFC00 = some (0x0000, 0) ∧ Fun1.exp2.tabled fmtF16 flush 0x8000 = some (0x3C00, 0) ∧
      Fun1.exp2.tabled fmtF16 flush 0x0000 = some (0x3C00, 0) ∧ Fun1.exp2.tabled fmtF16 flush 0x7C00 = some (0x7C00, 0) := by
  decide

theorem run_below_zero {f : Fun1} (hf : f ∈ [Fun1.rsq, .sqrt, .log2]) {m : FMode} {c n d : Nat} (hn : n ≠ 0)
    (h : (m.read fmtF32 c).1 = .fin true n d) : f.run m fmtF32 c = (0x7FC00000, flNV) := by
  have hflags : (m.read fmtF32 c).2 = 0 := FMode.read_flags_of_number (by rw [h]; rfl)
  rw [Fun1.run_of_special (h ▸ Fun1.special_below_zero hf d hn), hflags]
  rfl

/-- Settles O11: R152's rows as a finite table over the flush bit, a NaN by its quiet bit, the numbers below zero that have
no value, and the exact logarithm of 1.0. -/
theorem functionSpecials : Obligations.FunctionSpecials := by
  unfold Obligations.FunctionSpecials
  intro m
  refine ⟨fun row hrow => ?_, fun f c hnan => ?_, fun f hf c n d => run_below_zero hf, Fun1.log2_run_of_one (n := 2 ^ 23) (by decide) rfl, ?_, fun c hnan => ?_⟩
  · obtain ⟨hninf, hnzero, hzero, hinf⟩ := specialResults_tabled row hrow (m.flush fmtF32)
    exact ⟨Fun1.run_of_tabled hninf, Fun1.run_of_tabled hnzero, Fun1.run_of_tabled hzero, Fun1.run_of_tabled hinf⟩
  · rw [Fun1.run_nan hnan, FMode.read_flags_of_nan (by decide) (by decide) (by decide) (by decide) hnan]
    rfl
  · obtain ⟨hninf, hnzero, hzero, hinf⟩ := exp2_half_tabled (m.flush fmtF16)
    exact ⟨Fun1.run_of_tabled hninf, Fun1.run_of_tabled hnzero, Fun1.run_of_tabled hzero, Fun1.run_of_tabled hinf⟩
  · rw [Fun1.run_nan hnan, FMode.read_flags_of_nan (by decide) (by decide) (by decide) (by decide) hnan]
    rfl

end Sys2Proof.Proofs
end
